-- ==== Sys2Proof/Word.lean ====
section
/-! DEFINITION. The words of the block: bytes, 32-bit registers, and the numbers of heads, sections and dies. -/
namespace Sys2Proof

/-- One byte. -/
abbrev Byte := BitVec 8

/-- One register of BAR0 (R3: every register is 32 bits wide). -/
abbrev Word := BitVec 32

/-- A head, 0 to 255 (Numbers, units and addresses). -/
abbrev HeadId := Fin 256

/-- A section, 0 to 255. -/
abbrev SecId := Fin 256

/-- A field die, FD0 to FD7. -/
abbrev DieId := Fin 8

/-- An interrupt source (R285). -/
abbrev SrcId := Fin 512

/-- One picosecond is the unit of internal time; `us n` is n microseconds. -/
def us (n : Nat) : Nat := n * 1000000

/-- `ns n` is n nanoseconds. -/
def ns (n : Nat) : Nat := n * 1000

/-- `ms n` is n milliseconds. -/
def ms (n : Nat) : Nat := n * 1000000000

end Sys2Proof
end

