-- ==== Sys2Proof/Syntax.lean ====
section
/-! DEFINITION. The commands of the block: one constructor per row of spec/opcode_table.json, with the row's operands.
Every command carries the instant `t` (in picoseconds of the device's internal time) at which it comes about
(assumption log 1). Analogue quantities that a command samples are its operands. -/
namespace Sys2Proof

/-- The two sensor systems of a head (R15). -/
inductive Sys | sys1 | sys2
deriving DecidableEq, Repr

/-- The three vital-port lanes (R212). -/
inductive Lane | a | b | c
deriving DecidableEq, Repr

/-- The two sides of a health window (R121). -/
inductive Side | low | high
deriving DecidableEq, Repr

/-- The BAR an access names (R260). -/
inductive Bar | bar0 | bar2 | bar4
deriving DecidableEq, Repr

/-- A host read: first byte offset in its BAR, doublewords, and the byte enables of the first and the last doubleword
(R4, R262). -/
structure BusRead where
  off     : Nat
  dwords  : Nat
  firstBe : BitVec 4
  lastBe  : BitVec 4
deriving DecidableEq, Repr

/-- The pins of the boundary-scan chain (R349, R361): the digital pins at VIO and VAON levels, less the four that carry the
TAP's own protocol (assumption log 42). -/
inductive ScanPin
  | vspClk (l : Lane) | vspSync (l : Lane) | vspD (l : Lane)
  | role1 | role0 | deposeN | holdOut | holdIn
  | tbPps | tb10m | porstN | perstN | eclipseN | trstN
deriving DecidableEq, Repr

/-- Power states of the PCI Express link (R298). -/
inductive LinkPm | l0 | l1 | l1_1
deriving DecidableEq, Repr

/-- A command descriptor as the device reads it (R269), with the payload bytes found at PADDR. The opcode is the
command's row. -/
structure Cmd where
  orbit   : Fin 4
  tag     : BitVec 16
  plen    : BitVec 16
  rlen    : BitVec 16
  paddr   : BitVec 64
  raddr   : BitVec 64
  fence   : Bool
  payload : List Byte
deriving DecidableEq, Repr

/-- The fields the host writes in a stream descriptor (R276). -/
structure StreamDesc where
  addr : BitVec 64
  len  : BitVec 16
deriving DecidableEq, Repr

/-- A host access that can clear an MSI-X mask: the Message Control word, or one table entry in BAR4 (R260, R293). -/
inductive MsixWrite
  | control (enable functionMask : Bool)
  | entry (vector : SrcId) (addr : BitVec 64) (data : Word) (masked : Bool)
deriving DecidableEq, Repr

/-- The read whose completion failed (R279): a descriptor of an orbit, or the payload of a command. -/
inductive DmaRead
  | descriptor (orbit : Fin 16)
  | payload (opcode : BitVec 16) (c : Cmd)
deriving DecidableEq, Repr

/-- One head's bias current over the moving 100 ms window (R53). -/
structure LeakSample where
  head : HeadId
  leak : Nat
deriving DecidableEq, Repr

/-- What the listening loop of one slice hears in an epoch (R81, R82): phase error in 0.1 degrees, amplitude at EXCn in
10 mV, heard carrier minus FREQ in Hz, and sensed amplitude in % of the setpoint. -/
structure ListenSample where
  head     : HeadId
  sys      : Sys
  phErr    : Int
  heard    : Nat
  offHz    : Int
  sensePct : Nat
deriving DecidableEq, Repr

/-- What the driver of one slice measures in an epoch (R70, R84): peak current in 0.1 mA, amplitudes at EXCn and between
ESNSn and CSNS in 10 mV, and whether the demand stands at the clip level. -/
structure DriveSample where
  head : HeadId
  sys  : Sys
  ipk  : Nat
  vdrv : Nat
  vsns : Nat
  clip : Bool
deriving DecidableEq, Repr

/-- What a field die reports of itself (R71): junction temperature in 0.5 °C and driver dissipation in mW. -/
structure DieSample where
  die  : DieId
  tj   : Int
  pdrv : Nat
deriving DecidableEq, Repr

/-- What a boundary samples: rising edges of each lane clock in the ending epoch (R226), leakage (R53), listening
loops (R81), drivers (R70, R84), dies (R71), the level of ZL_HOLD_IN (R257), the output stages that a fault keeps
enabled (R231), and the power state of the PCI Express link (R298). -/
structure BoundaryInput where
  edgesA  : Nat
  edgesB  : Nat
  edgesC  : Nat
  leaks   : List LeakSample
  listens : List ListenSample
  drives  : List DriveSample
  dies    : List DieSample
  holdIn  : Bool
  stuck   : List (HeadId × Sys)
  linkPm  : LinkPm
deriving DecidableEq, Repr

/-- What one slice's modulator gives for a track sample: the bits clocked since the previous tick, oldest first
(R88, R89). -/
structure SliceSample where
  head : HeadId
  sys  : Sys
  bits : List Bool
deriving DecidableEq, Repr

/-- What a track tick samples: the pace monitors (R205) and the track samples (R107). -/
structure TickInput where
  pace    : Nat
  fdPace  : List (DieId × Nat)
  samples : List SliceSample
deriving DecidableEq, Repr

/-- The outcome of the comparator test of one slice (R128): deviations in LSB, and whether every comparator changed
both ways and each rail was seen in both states. -/
structure TestResult where
  devLow     : Int
  devAssert  : Int
  devRelease : Int
  devHigh    : Int
  devOn      : Int
  devOff     : Int
  compOk     : Bool
  railOk     : Bool
deriving DecidableEq, Repr

/-- What an impedance slot measures (R53, R54, R58): |Z| in 0.1 ohm, phase in 0.5 degrees, K in 2^-16, tone drive
current in microamperes peak, and the correlation residual in 0.1 % of the fitted tone. -/
structure ImpMeasure where
  zmag     : Nat
  zph      : Int
  k        : Nat
  current  : Nat
  residual : Nat
deriving DecidableEq, Repr

/-- What a voter read meets: which of two frames a lane loads when S falls within 20 ns of a boundary (R214); the period
and the low time of VSP_CLK_x in ps (R216), and a stop of the clock after the edge S + `stallAt` for `stallFor` ps (R223);
the code bits that sample as tripped where a latch changes within 0.3 ns of their sampling edge (R136); frame bits of the
lane's copy that a fault turns (R221), and the first bit of a pad disagreement (R226). -/
structure ReadInput where
  loadOld  : Bool
  period   : Nat
  low      : Nat
  stallAt  : Nat
  stallFor : Nat
  near     : List Nat
  flipped  : List Nat
  padAt    : Option Nat
deriving DecidableEq, Repr

/-- A link message with a valid CRC and a known TYPE (R237): its header fields and payload. -/
structure LinkMsg where
  part    : Nat
  last    : Bool
  gen     : BitVec 16
  epoch   : Nat
  payload : List Byte
deriving DecidableEq, Repr

/-- The supply monitors of R327 other than VAON. -/
inductive Monitor
  | vcoreUv | vioUv | vserUv | vanaUv | vfldUv | vfldOv
  | dieSupply (d : DieId)
deriving DecidableEq, Repr

/-- The power domains that a monitor can hold in reset (R326, R327). -/
inductive Domain
  | aon | core | host | link
  | fld (d : DieId)
deriving DecidableEq, Repr

/-- The causes of a core die reset (R329, PWR_CAUSE). -/
inductive ResetCause | pin | vcoreUv | vioUv | clock | wdog
deriving DecidableEq, Repr

/-- What start-up samples: whether each die's local monitors report good supplies and whether ECLIPSE_N is low
(R338, R344). -/
structure StartInput where
  supplyOk  : BitVec 8
  eclipseLow : Bool
deriving DecidableEq, Repr

/-- The commands of the block, one constructor per row of spec/opcode_table.json. -/
inductive Instr where
  /-- HP_NOP (R275): Host-port no-operation command that completes OK. -/
  | hpNop (t : Nat) (c : Cmd)
  /-- HP_SEAL (R264): Command that seals every set-up register, or completes SEALED if the device is already sealed. -/
  | hpSeal (t : Nat) (c : Cmd)
  /-- HP_WRITE (R275): Command that performs a single-doubleword BAR0 write before sealing and completes SEALED after sealing. -/
  | hpWrite (t : Nat) (c : Cmd)
  /-- HP_IDENT (R275): Command that returns the identification registers, the seal state and a consistent epoch sequence number. -/
  | hpIdent (t : Nat) (c : Cmd)
  /-- COMMAND_BAD_OPCODE (R274): Command descriptor whose opcode is not in the opcode table; it completes BAD_OPCODE. -/
  | commandBadOpcode (t : Nat) (opcode : BitVec 16) (c : Cmd)
  /-- FE_ROUTE (R64): Route-request command that is admission-tested and then runs the route-change sequence. -/
  | feRoute (t : Nat) (c : Cmd)
  /-- FE_ROUTE_CTRL_GO (R51): Pre-seal write of GO that starts a route request from the head's registers; after sealing it is counted as an error. -/
  | feRouteCtrlGo (t : Nat) (h : HeadId) (v : Word) (be : BitVec 4)
  /-- FE_BIAS_SET (R64): Command that sets the bias level, which runs as a route request, or only the leakage thresholds. -/
  | feBiasSet (t : Nat) (c : Cmd)
  /-- FE_IMP_SET (R64): Command that sets the impedance-check interval, tone and tolerances. -/
  | feImpSet (t : Nat) (c : Cmd)
  /-- FE_IMP_RUN (R64): Command that queues impedance checks on the named slices. -/
  | feImpRun (t : Nat) (c : Cmd)
  /-- FE_IMP_SETREF (R61): Command that copies the latest valid impedance results into the references, or completes CONFLICT NOREF. -/
  | feImpSetref (t : Nat) (c : Cmd)
  /-- FE_IMP_SWEEP (R62): Command that takes a tone generator and measures up to 16 frequency points. -/
  | feImpSweep (t : Nat) (c : Cmd)
  /-- XS_SET (R79): Command for a carrier change of frequency, amplitude or phase, or of ILIM or TAU, checked against the plan rules. -/
  | xsSet (t : Nat) (c : Cmd)
  /-- XS_ADJ_SET (R83): Command that sets a head's adjacency entries, checked against the plan rules. -/
  | xsAdjSet (t : Nat) (c : Cmd)
  /-- XS_BANDS_SET (R83): Command that selects a head's band sets, checked against the plan rules. -/
  | xsBandsSet (t : Nat) (c : Cmd)
  /-- XS_UBAND_SET (R77): Command that sets one user band, checked against the plan rules. -/
  | xsUbandSet (t : Nat) (c : Cmd)
  /-- XS_PLAN_SET (R83): Command that sets the guard and separation parameters, checked against every head. -/
  | xsPlanSet (t : Nat) (c : Cmd)
  /-- XS_LISTEN_RESET (R83): Command that zeroes TRIM and restarts acquisition of slices in LISTEN. -/
  | xsListenReset (t : Nat) (c : Cmd)
  /-- FLT_SET (R110): Command for a filter change of median, alignment and delay, or for a change of EXTRA alone. -/
  | fltSet (t : Nat) (c : Cmd)
  /-- FLT_NOTCH_SET (R110): Command that loads notch sections or a notch preset as a filter change. -/
  | fltNotchSet (t : Nat) (c : Cmd)
  /-- FLT_SWAP (R97): Command that swaps the active FIR bank, either as a timing swap or as a timing-neutral fade, with queueing. -/
  | fltSwap (t : Nat) (c : Cmd)
  /-- FLT_BANK_LOAD (R94): Command that loads coefficients into a RAM slot owned by a slice. -/
  | fltBankLoad (t : Nat) (c : Cmd)
  /-- FLT_BANK_FREE (R94): Command that releases a RAM slot that is not in use. -/
  | fltBankFree (t : Nat) (c : Cmd)
  /-- FLT_BANK_READ (R115): Command that returns a slot entry and its coefficients. -/
  | fltBankRead (t : Nat) (c : Cmd)
  /-- CMP_SET (R141): Command that stages comparator thresholds, timers and brake values after the order checks. -/
  | cmpSet (t : Nat) (c : Cmd)
  /-- CMP_STATUS (R141): Command that returns a head's comparator status registers. -/
  | cmpStatus (t : Nat) (c : Cmd)
  /-- TRN_SET (R165): Command that sets the transit geometry, detection and validation limits, or only the reporting fields. -/
  | trnSet (t : Nat) (c : Cmd)
  /-- TRN_SETREF (R166): Command that captures baseline references from 100 ms of idle samples. -/
  | trnSetref (t : Nat) (c : Cmd)
  /-- TRN_STATUS (R164): Command that returns a head's TRN_ registers. -/
  | trnStatus (t : Nat) (c : Cmd)
  /-- SEC_BIND (R171): Command that replaces an out-of-service section's bindings within the binding limits. -/
  | secBind (t : Nat) (c : Cmd)
  /-- SEC_SET (R196): Command that sets a section's SEC_CFG and SEC_MATCH values. -/
  | secSet (t : Nat) (c : Cmd)
  /-- SEC_SERVICE (R186): Command that puts a section into service or takes it out, applied by the section's next evaluation. -/
  | secService (t : Nat) (c : Cmd)
  /-- SEC_DISTURB (R196): Command that fails a section to disturbed, with reason COMMAND, at its next evaluation. -/
  | secDisturb (t : Nat) (c : Cmd)
  /-- SEC_LEDGER_READ (R196): Command that returns a snapshot of one section's ledger, taken in a quiet window. -/
  | secLedgerRead (t : Nat) (c : Cmd)
  /-- SEC_STATUS (R196): Command that returns a snapshot of a section's registers, taken in a quiet window. -/
  | secStatus (t : Nat) (c : Cmd)
  /-- SEC_KEY_PROGRAM (R189): Command that programs the customer key once into blank one-time-programmable storage before sealing. -/
  | secKeyProgram (t : Nat) (c : Cmd)
  /-- SEC_RESET_SUP (R191): Supervised reset command with one token; it is tested and then applied at the next evaluation, putting the section in RESTORING. -/
  | secResetSup (t : Nat) (c : Cmd)
  /-- SEC_RESET_DIR (R191): Direct reset command with two tokens and a quiet time; it is tested and then applied at the next evaluation, putting the section in CLEAR. -/
  | secResetDir (t : Nat) (c : Cmd)
  /-- ZL_SET (R256): Command that sets PAIRED, UNIT and AGE_WARN of the link configuration. -/
  | zlSet (t : Nat) (c : Cmd)
  /-- ZL_STATUS (R256): Command that returns the ZL_ registers. -/
  | zlStatus (t : Nat) (c : Cmd)
  /-- TB_SET (R323): Command that sets the time-base mode and discipline values. -/
  | tbSet (t : Nat) (c : Cmd)
  /-- TB_STEP (R307): Command that schedules an absolute or relative step of TB_NOW at a chosen epoch boundary. -/
  | tbStep (t : Nat) (c : Cmd)
  /-- REC_SET (R323): Command that sets the recorder mode, period and trigger and eclipse class enables. -/
  | recSet (t : Nat) (c : Cmd)
  /-- REC_SELECT (R313): Command that names up to 16 snapshot registers and increments REC_SELGEN. -/
  | recSelect (t : Nat) (c : Cmd)
  /-- REC_READ (R319): Command that offers stored records from FIRST to recorder-stream orbit 13. -/
  | recRead (t : Nat) (c : Cmd)
  /-- REC_CLEAR (R321): Authorised command that writes a CLEAR record and makes earlier records unreachable. -/
  | recClear (t : Nat) (c : Cmd)
  /-- PWR_FLD (R331): Command that turns the named field-die power domains off or on. -/
  | pwrFld (t : Nat) (c : Cmd)
  /-- PWR_STATUS (R340): Command that returns the power status registers. -/
  | pwrStatus (t : Nat) (c : Cmd)
  /-- CLK_SET (R340): Command that sets the SCLK tolerance and the ZCLK PLL enable. -/
  | clkSet (t : Nat) (c : Cmd)
  /-- ECL_ENTER (R344): Command with a key value that requests eclipse; no completion is written for it. -/
  | eclEnter (t : Nat) (c : Cmd)
  /-- HP_SEAL_WRITE (R264): Write to the HP_SEAL register that seals the device when the value is 0x5EA1_0001, and is otherwise counted. -/
  | hpSealWrite (t : Nat) (v : Word) (be : BitVec 4)
  /-- HP_CTRL_ERR_CLR (R283): Write of ERR_CLR that zeroes HP_ERR.COUNT and HP_ERR_LOG. -/
  | hpCtrlErrClr (t : Nat) (v : Word) (be : BitVec 4)
  /-- EPC_CTRL_CLR (R211): Write of CLR that restarts EPC_MIN and EPC_PACE.MIN. -/
  | epcCtrlClr (t : Nat) (v : Word) (be : BitVec 4)
  /-- VSP_TEST_CRC_FAIL (R227): Write that makes the named lanes launch a complemented CRC in their next complete read. -/
  | vspTestCrcFail (t : Nat) (v : Word) (be : BitVec 4)
  /-- ZL_PDB_WRITE (R257): Write of a software source number that queues a DOORBELL message to the partner. -/
  | zlPdbWrite (t : Nat) (v : Word) (be : BitVec 4)
  /-- REC_MARK_WRITE (R325): Write to REC_MARK that raises a MARK trigger carrying the written value. -/
  | recMarkWrite (t : Nat) (v : Word) (be : BitVec 4)
  /-- REC_CURSOR_WRITE (R320): Write of a RECNO that loads a copy of that record into REC_WINDOW. -/
  | recCursorWrite (t : Nat) (v : Word) (be : BitVec 4)
  /-- IRQ_EOI (R294): Write that ends the delivery of the named active source and starts arbitration. -/
  | irqEoi (t : Nat) (v : Word) (be : BitVec 4)
  /-- IRQ_HDRAIN (R288): Write that lowers a head event counter by N. -/
  | irqHdrain (t : Nat) (v : Word) (be : BitVec 4)
  /-- IRQ_MASK_SET (R297): W1S alias write that masks exactly the sources whose bits are written as 1. -/
  | irqMaskSet (t : Nat) (k : Fin 16) (v : Word) (be : BitVec 4)
  /-- IRQ_MASK_CLR (R297): W1C alias write that unmasks exactly the sources whose bits are written as 1. -/
  | irqMaskClr (t : Nat) (k : Fin 16) (v : Word) (be : BitVec 4)
  /-- IRQ_PEND_DISCARD (R291): Write of 1 to an IRQ_PEND bit that discards that source's pending state. -/
  | irqPendDiscard (t : Nat) (k : Fin 16) (v : Word) (be : BitVec 4)
  /-- IRQ_DOORBELL_WRITE (R289): Host write of a software source number to BAR2 + 0x8000 that sends a message to the controller. -/
  | irqDoorbellWrite (t : Nat) (v : Word) (be : BitVec 4)
  /-- ORB_DOORBELL (R267): Host doorbell write of an orbit index, accepted only if the range and direction tests pass. -/
  | orbDoorbell (t : Nat) (k : Fin 16) (v : Word) (be : BitVec 4) (descs : List StreamDesc)
  /-- ORB_CFG_WRITE (R266): Write to ORB_CFG that enables or disables an orbit and sets its size, subject to the EN rules. -/
  | orbCfgWrite (t : Nat) (k : Fin 16) (v : Word) (be : BitVec 4)
  /-- EPC_SEQ_LO_READ (R211): Read of EPC_SEQ_LO that captures the upper sequence bits into EPC_SEQ_HI. -/
  | epcSeqLoRead (t : Nat) (r : BusRead)
  /-- TB_NOW_LO_READ (R302): Read of TB_NOW_LO that captures bits [63:32] into TB_NOW_HI. -/
  | tbNowLoRead (t : Nat) (r : BusRead)
  /-- TB_EPOCH_LO_READ (R324): Read of TB_EPOCH_LO that captures TB_EPOCH_HI. -/
  | tbEpochLoRead (t : Nat) (r : BusRead)
  /-- REGISTER_WRITE (R9): Write to any other BAR0 register, handled by byte enables, seal state, access type and pre-seal block tests. -/
  | registerWrite (t : Nat) (bar : Bar) (off : Nat) (v : Word) (be : BitVec 4) (dwords : Nat)
  /-- FUNCTION_LEVEL_RESET (R280): Initiate Function Level Reset, which resets the host port, orbits and interrupt controller only. -/
  | functionLevelReset (t : Nat)
  /-- D3HOT_TO_D0 (R281): Power-state transition from D3hot to D0, with the reach of a function-level reset. -/
  | d3hotToD0 (t : Nat)
  /-- CONVENTIONAL_RESET (R281): PERST_N low or core die reset resets the endpoint with function-level-reset reach. -/
  | conventionalReset (t : Nat)
  /-- DMA_READ_ERROR (R279): A descriptor or payload DMA read returns an error or times out, which halts the orbit or fails the command. -/
  | dmaReadError (t : Nat) (r : DmaRead)
  /-- POISONED_WRITE (R279): A poisoned write request is received, which changes nothing and is logged. -/
  | poisonedWrite (t : Nat)
  /-- STREAM_FLUSH (R276): A stream buffer is handed back when its FLUSH epochs have elapsed. -/
  | streamFlush (t : Nat) (k : Fin 16)
  /-- MSIX_UNMASK (R293): Clearing of the MSI-X masks, which releases a held message for the active source. -/
  | msixUnmask (t : Nat) (w : MsixWrite)
  /-- INTERRUPT_MESSAGE (R290): A source message is applied at the controller and changes the source's state. -/
  | interruptMessage (t : Nat)
  /-- INTERRUPT_COMMIT (R292): Arbitration commit that makes the lowest-numbered pending unmasked source ACTIVE. -/
  | interruptCommit (t : Nat)
  /-- EPOCH_BOUNDARY (R201): Epoch boundary: the sequence number increments and the frame, ephemerides, TB latch, role in force, trip-latch releases and intake cut are processed. -/
  | epochBoundary (t : Nat) (i : BoundaryInput)
  /-- SECTION_GRANT (R207): Fabric grants a ledger engine or the commit port to a section after the late-drop check, and the section's queued items and commands are processed. -/
  | sectionGrant (t : Nat) (n : SecId)
  /-- SECTION_COMMIT (R203): A section's evaluation commits its private copy to the frame, registers and ephemeris, and queues its records and deltas. -/
  | sectionCommit (t : Nat) (n : SecId)
  /-- EVALUATION_DEADLINE (R207): At E + 70 µs, uncommitted evaluations are dropped, EPC_LAST is written and the quiet window begins. -/
  | evaluationDeadline (t : Nat)
  /-- TRACK_TICK (R87): Track tick: the resampler output, the settle-counter counting and the pace-monitor sample. -/
  | trackTick (t : Nat) (i : TickInput)
  /-- TRACK_SAMPLE_LATE (R206): A track sample missing its limit of tick + 4.0 µs is handled as an unbridged gap. -/
  | trackSampleLate (t : Nat) (h : HeadId) (x : Sys)
  /-- SETTLE_COMPLETE (R139): A settle counter reaches its target, which ends the forced state and may close the expected-trip window. -/
  | settleComplete (t : Nat) (h : HeadId) (x : Sys) (e : Nat)
  /-- TRANSIT_STEP (R151): Per-tick step of the head transit state machine, run once both slices' samples have arrived. -/
  | transitStep (t : Nat) (h : HeadId)
  /-- PASSAGE_VALIDATION (R156): End of the 1 ms validation hold: the passage is checked and issued ACCEPTED, INCOMPLETE or REJECTED. -/
  | passageValidation (t : Nat) (h : HeadId)
  /-- PRESENCE_ASSERT (R123): Presence comparator asserts: the trip line trips, occultation starts and an episode may begin. -/
  | presenceAssert (t : Nat) (h : HeadId) (x : Sys) (e : Nat)
  /-- PRESENCE_RELEASE (R121): Envelope rises above RELEASE after occultation has ended, which releases the presence comparator. -/
  | presenceRelease (t : Nat) (h : HeadId) (x : Sys) (e : Nat)
  /-- OCCULTATION_EXPIRY (R123): The occultation timer ends, letting presence release if the envelope is above RELEASE. -/
  | occultationExpiry (t : Nat) (h : HeadId) (x : Sys) (e : Nat)
  /-- PRESENCE_EPISODE_JUDGEMENT (R374): An ended presence episode is judged, after HOLD_h with the transit logic idle, for whether a transit was reported. -/
  | presenceEpisodeJudgement (t : Nat) (h : HeadId)
  /-- HEALTH_TRIP (R63): A health window trips, outside the expected window or persisting past it, which marks samples invalid, aborts, queues a check and notifies sections. -/
  | healthTrip (t : Nat) (h : HeadId) (x : Sys) (side : Side) (e : Nat)
  /-- HEALTH_RETURN (R121): A side of the health window returns in window, which may release the trip line and end the invalid marking. -/
  | healthReturn (t : Nat) (h : HeadId) (x : Sys) (side : Side) (e : Nat)
  /-- RAIL_FAULT (R131): Trip-line rails disagree for more than 50 ns, which sets RAIL and holds the line tripped. -/
  | railFault (t : Nat) (h : HeadId) (x : Sys)
  /-- BRAKE_COMPARATOR_SET (R125): The brake branch reaches BRK_ON, which sets the brake comparator and starts recognition. -/
  | brakeComparatorSet (t : Nat) (h : HeadId) (x : Sys) (level : Nat)
  /-- BRAKE_COMPARATOR_CLEAR (R125): The brake branch falls below BRK_OFF, which clears the brake comparator. -/
  | brakeComparatorClear (t : Nat) (h : HeadId) (x : Sys) (level : Nat)
  /-- BRAKE_RECOGNITION_END (R125): The HOLD time expires after both brake comparators have cleared, which ends brake recognition. -/
  | brakeRecognitionEnd (t : Nat) (h : HeadId)
  /-- INVALID_RUN_START (R41): Overrange or common-mode alarm begins an invalid run that is treated as a gap. -/
  | invalidRunStart (t : Nat) (h : HeadId) (x : Sys) (ovr : Bool) (cm : Bool)
  /-- INVALID_RUN_LONG (R41): An invalid run reaches 10 µs, which sets OVR or CM and gives a head fault notice. -/
  | invalidRunLong (t : Nat) (h : HeadId) (x : Sys) (ovr : Bool) (cm : Bool)
  /-- GAP_UNBRIDGED (R113): A gap's length first exceeds 8.000 µs: samples are marked invalid, passages aborted and the settle counter restarted. -/
  | gapUnbridged (t : Nat) (h : HeadId) (x : Sys)
  /-- GAP_BRIDGED (R114): A gap ends within 8.000 µs and is bridged with repeated I and Q values. -/
  | gapBridged (t : Nat) (h : HeadId) (x : Sys)
  /-- HANDOVER_MARK_RAISE (R249): A hand-over gap mark is raised on a role change or on a fall of the sense amplitude. -/
  | handoverMarkRaise (t : Nat) (h : HeadId) (x : Sys) (senseFall : Bool)
  /-- HANDOVER_MARK_END (R249): A hand-over mark ends when the amplitude has recovered for 1 µs, or 20 µs after it was raised. -/
  | handoverMarkEnd (t : Nat) (h : HeadId) (x : Sys)
  /-- ENVELOPE_HOLD_END (R138): The envelope hold of a hand-over mark ends at most 8 µs after it began. -/
  | envelopeHoldEnd (t : Nat) (h : HeadId) (x : Sys)
  /-- ROUTE_RAMP_DOWN_DONE (R42): Drivers reach zero during a route request, and all routing switches open at the break. -/
  | routeRampDownDone (t : Nat) (h : HeadId)
  /-- ROUTE_BREAK_EXPIRY (R42): The 2 µs after the break elapse, which closes the discharge path or makes the new switches. -/
  | routeBreakExpiry (t : Nat) (h : HeadId)
  /-- ROUTE_DISCHARGE_EXPIRY (R42): The DISCH time elapses, which opens the discharge path. -/
  | routeDischargeExpiry (t : Nat) (h : HeadId)
  /-- ROUTE_BREAK2_EXPIRY (R42): The 2 µs after the discharge opens elapse, which makes the new switches once the comparator test has ended. -/
  | routeBreak2Expiry (t : Nat) (h : HeadId)
  /-- COMPARATOR_TEST_END (R128): The 120 µs comparator test ends; its results are written and the slice is forced or held tripped. -/
  | comparatorTestEnd (t : Nat) (h : HeadId) (x : Sys) (r : TestResult)
  /-- CARRIER_SWITCH_POINT (R79): At the next positive zero crossing, the new increment and setpoint apply and the filters retune. -/
  | carrierSwitchPoint (t : Nat) (h : HeadId) (x : Sys)
  /-- REGULATOR_RAMP_UP_DONE (R72): The regulator ramp-up completes and the regulator enters ACQUIRE. -/
  | regulatorRampUpDone (t : Nat) (h : HeadId) (x : Sys)
  /-- REGULATOR_ACQUIRE_DONE (R72): The sensed amplitude comes within ±2 %, and the regulator enters TRACK or HOLD. -/
  | regulatorAcquireDone (t : Nat) (h : HeadId) (x : Sys)
  /-- REGULATOR_ACQUIRE_TIMEOUT (R72): ACQUIRE runs 100 µs without reaching ±2 %, which sets REG_FAULT. -/
  | regulatorAcquireTimeout (t : Nat) (h : HeadId) (x : Sys)
  /-- REGULATOR_HOLD_BEGIN (R72): A hold condition begins and the regulator freezes its drive. -/
  | regulatorHoldBegin (t : Nat) (h : HeadId) (x : Sys)
  /-- REGULATOR_HOLD_END (R72): The last hold condition ends and the regulator resumes tracking. -/
  | regulatorHoldEnd (t : Nat) (h : HeadId) (x : Sys)
  /-- REGULATION_FAULT (R72): The amplitude stays more than 10 % off the setpoint for 20 ms in TRACK, which sets REG_FAULT. -/
  | regulationFault (t : Nat) (h : HeadId) (x : Sys)
  /-- DRIVER_CLIP_FAULT (R70): Clipping lasts 1 ms without a break, which sets ILIM. -/
  | driverClipFault (t : Nat) (h : HeadId) (x : Sys)
  /-- LISTEN_LOCKED (R81): Phase and amplitude stay within limits for 100 epochs, which sets LOCKED. -/
  | listenLocked (t : Nat) (h : HeadId) (x : Sys)
  /-- THERM_WARN (R71): The die junction temperature reaches 110 °C, which sets THERM_WARN. -/
  | thermWarn (t : Nat) (d : DieId) (tj : Int)
  /-- THERM_OFF (R71): The die junction temperature reaches 125 °C: the drivers ramp off and the sections fail to disturbed. -/
  | thermOff (t : Nat) (d : DieId) (tj : Int)
  /-- THERM_OFF_CLEAR (R71): The temperature falls below 105 °C, which clears THERM_OFF and ramps the heads in RUN back up. -/
  | thermOffClear (t : Nat) (d : DieId) (tj : Int)
  /-- LEAK_FAULT_TIMER (R53): Leakage at or above LEAK_FAULT for 200 ms sets LEAK_FAULT and fails the sections to disturbed. -/
  | leakFaultTimer (t : Nat) (h : HeadId)
  /-- IMP_CHECK_DUE (R56): A slice's impedance check becomes due INTERVAL seconds after its last completed check. -/
  | impCheckDue (t : Nat) (h : HeadId) (x : Sys)
  /-- IMP_SLOT_START (R56): The scheduler attaches a free tone generator to a due slice and starts the tone. -/
  | impSlotStart (t : Nat) (d : DieId) (g : Fin 4)
  /-- IMP_SLOT_END (R59): The impedance slot ends: the results are written and the slice is classified. -/
  | impSlotEnd (t : Nat) (d : DieId) (g : Fin 4) (m : ImpMeasure)
  /-- IMP_SLOT_ABORT (R57): A deferral condition during a slot ramps the tone down and discards the measurement. -/
  | impSlotAbort (t : Nat) (d : DieId) (g : Fin 4)
  /-- IMP_OVERDUE (R58): A check still due one further INTERVAL sets OVERDUE. -/
  | impOverdue (t : Nat) (h : HeadId) (x : Sys)
  /-- SWEEP_TIMEOUT (R62): A sweep not finished 45 ms after admission stops and completes PARTIAL. -/
  | sweepTimeout (t : Nat) (d : DieId) (g : Fin 4)
  /-- FADE_START (R98): A timing-neutral swap starts its cross-fade at the next FIR output. -/
  | fadeStart (t : Nat) (h : HeadId) (x : Sys)
  /-- FADE_COMPLETE (R98): A fade reaches w = 1: ACT takes the target, the swap completes and any queued swap is retested. -/
  | fadeComplete (t : Nat) (h : HeadId) (x : Sys)
  /-- ROLE_INPUT_CHANGE (R229): A ROLE pin value held for 200 ns is taken in, which governs the drivers and starts or withdraws a claim. -/
  | roleInputChange (t : Nat) (pins : BitVec 2)
  /-- DEPOSE (R230): DEPOSE_N low for 200 ns puts every output stage high-impedance and the role input to 00. -/
  | depose (t : Nat)
  /-- DEPOSE_RELEASE (R231): DEPOSE_N returns high with the role input at 10, which starts a claim. -/
  | deposeRelease (t : Nat)
  /-- INTERLOCK_CLAIM (R231): The device claims the excitation interlock once ZL_HOLD_IN reads released, by setting ZL_HOLD_OUT held. -/
  | interlockClaim (t : Nat)
  /-- CLAIM_WAIT_EXPIRY (R231): The 100 ns claim wait ends, and the claim is won and drive picked up, or the claim is retried after its backoff. -/
  | claimWaitExpiry (t : Nat) (releasedThroughout : Bool)
  /-- HOLD_TIMEOUT (R232): No claim is won within 4.0 µs, which sets HOLD_TIMEOUT and gives head fault notices. -/
  | holdTimeout (t : Nat)
  /-- VSP_READ (R213): A voter read of one 576-bit frame from a lane, started by VSP_SYNC_x, with live trip gating and CRC. -/
  | vspRead (t : Nat) (l : Lane) (i : ReadInput)
  /-- VSP_READ_ABORT (R215): VSP_SYNC_x sampled low before bit 575 aborts the read. -/
  | vspReadAbort (t : Nat) (l : Lane)
  /-- STATUS_SEND (R240): At the boundary plus 1.000 µs, the device sends its STATUS message on the link. -/
  | statusSend (t : Nat)
  /-- DOORBELL_SEND (R240): A DOORBELL message is sent at the next gap between messages. -/
  | doorbellSend (t : Nat)
  /-- STATUS_MESSAGE (R238): Receipt of a partner STATUS message, with generation check, skew measurement and link-state update. -/
  | statusMessage (t : Nat) (m : LinkMsg)
  /-- EPH_MESSAGE (R238): Receipt of an EPH part carrying 16 ephemerides. -/
  | ephMessage (t : Nat) (m : LinkMsg)
  /-- COVER_MESSAGE (R239): Receipt of a COVER message carrying each head's last passage stamp. -/
  | coverMessage (t : Nat) (m : LinkMsg)
  /-- LDELTA_MESSAGE (R239): Receipt of an LDELTA part carrying ledger delta records. -/
  | ldeltaMessage (t : Nat) (m : LinkMsg)
  /-- LFULL_MESSAGE (R243): Receipt of an LFULL message that replaces one section's ledger copy. -/
  | lfullMessage (t : Nat) (m : LinkMsg)
  /-- DOORBELL_MESSAGE (R240): Receipt of a partner DOORBELL message with current generation, which raises its software source. -/
  | doorbellMessage (t : Nat) (m : LinkMsg)
  /-- LINK_TRAINED (R236): All four lanes are block-locked and deskewed, and the link moves from TRAIN to WAIT. -/
  | linkTrained (t : Nat)
  /-- LINK_LOSS (R236): A lane loses block lock or the skew exceeds 8 blocks, and the link drops to TRAIN. -/
  | linkLoss (t : Nat) (lanes : BitVec 4)
  /-- STATUS_TIMEOUT (R236): No valid STATUS arrives in 3 consecutive epochs, and the link drops to TRAIN. -/
  | statusTimeout (t : Nat)
  /-- ALIGNED (R241): The skew stays within 20 ns for 16 epochs, which sets ALIGNED and records OFFSET. -/
  | aligned (t : Nat)
  /-- DRIVE_INTERVAL_COMPLETE (R255): A 10 s fault-free drive interval completes and ZL_DRIVE_AGE restarts from 0. -/
  | driveIntervalComplete (t : Nat)
  /-- DRIVE_AGE_HOUR (R255): An hour elapses without a drive interval, which increments HOURS and may set AGE. -/
  | driveAgeHour (t : Nat)
  /-- PPS_EDGE (R304): A rising TB_PPS edge captures TB_NOW, computes the error and adjusts or flags the rate. -/
  | ppsEdge (t : Nat) (err : Int)
  /-- TB_FREQ_LOCK (R305): The rate holds within 0.01 ppm of TB_10M for 1 s, and the discipline locks. -/
  | tbFreqLock (t : Nat)
  /-- REF_10M_LOSS (R305): No TB_10M edge for 1.0 µs puts the discipline in HOLDOVER. -/
  | ref10mLoss (t : Nat)
  /-- PPS_LOSS (R305): No TB_PPS edge within 1.5 s puts the discipline in HOLDOVER. -/
  | ppsLoss (t : Nat)
  /-- REFERENCE_RETURN (R305): Every reference used by the mode is present again, and HOLDOVER returns to ACQUIRE. -/
  | referenceReturn (t : Nat)
  /-- REC_TRIGGER (R312): A trigger of an enabled class is coalesced, queued with its snapshots, or counted as lost. -/
  | recTrigger (t : Nat)
  /-- REC_WRITE (R316): The recorder writes the next staged record into its slot. -/
  | recWrite (t : Nat)
  /-- REC_WRITE_BACK (R317): REPEAT and LAST_EPOCH of the open record are written back when it closes or every 65,536 epochs. -/
  | recWriteBack (t : Nat)
  /-- REC_SURVEY_PERIOD (R315): A SURVEY period ends and one SURVEY record is queued. -/
  | recSurveyPeriod (t : Nat)
  /-- SUPPLY_MONITOR_TRIP (R327): A supply monitor condition lasts its filter time and resets the affected domains. -/
  | supplyMonitorTrip (t : Nat) (m : Monitor)
  /-- SUPPLY_RECOVERY (R327): Every monitor acting on a domain has been good for 1.0 ms, and the domain leaves reset. -/
  | supplyRecovery (t : Nat) (dom : Domain)
  /-- AON_POWER_ON_RESET (R329): VAON below threshold resets everything, including AON. -/
  | aonPowerOnReset (t : Nat)
  /-- CORE_DIE_RESET (R329): PORST_N low, a monitor, a clock fault or the watchdog resets the core, host, link and field domains. -/
  | coreDieReset (t : Nat) (cause : ResetCause)
  /-- START_UP (R338): Release of core die reset runs start-up: PLL lock, field-die power-up, epoch floor, first boundary, and START and POWER records. -/
  | startUp (t : Nat) (i : StartInput)
  /-- FLD_POWER_DOWN_DONE (R331): A commanded field-die power-down finishes with the switches open and the command complete. -/
  | fldPowerDownDone (t : Nat) (d : DieId)
  /-- FLD_RESET_RELEASE (R331): Field-die supplies are good and the die reset is released: plan fields reloaded, heads ISOLATED and slices forced. -/
  | fldResetRelease (t : Nat) (d : DieId)
  /-- CLKREF_LOSS (R336): CLKREF lost or main PLL unlocked for 0.5 µs asserts the clock-fault reset. -/
  | clkrefLoss (t : Nat)
  /-- CLKREF_GLITCH (R336): A CLKREF gap shorter than 0.5 µs sets REF_GLITCH. -/
  | clkrefGlitch (t : Nat)
  /-- SCLK_FREQUENCY_CHECK (R336): The millisecond comparison of SCLK against HCLK and TBCLK flags deviations beyond TOL. -/
  | sclkFrequencyCheck (t : Nat) (vsHclk : Option Int) (vsTb : Option Int)
  /-- ZPLL_LOSS (R336): The ZCLK PLL loses lock, which sets ZPLL and sends the link to TRAIN. -/
  | zpllLoss (t : Nat)
  /-- EPOCH_WATCHDOG (R337): No epoch boundary for 1.0 ms asserts core die reset with cause WDOG. -/
  | epochWatchdog (t : Nat)
  /-- ECLIPSE_REQUEST (R344): ECLIPSE_N held low for 200 ns requests eclipse. -/
  | eclipseRequest (t : Nat)
  /-- TAP_RESET (R329): TRST_N low or Test-Logic-Reset resets the TAP and selects IDCODE. -/
  | tapReset (t : Nat)
  /-- EXTEST (R348): TAP instruction for boundary-scan EXTEST in eclipse; it acts as BYPASS outside eclipse. -/
  | extest (t : Nat) (cells : List (ScanPin × Bool))
  /-- IDCODE (R348): TAP instruction that selects the 32-bit IDCODE register. -/
  | idcode (t : Nat)
  /-- SAMPLE_PRELOAD (R348): TAP instruction that samples or preloads the boundary-scan chain. -/
  | samplePreload (t : Nat) (cells : List (ScanPin × Bool))
  /-- HIGHZ (R348): TAP HIGHZ instruction in eclipse; it acts as BYPASS outside eclipse. -/
  | highz (t : Nat)
  /-- CLAMP (R348): TAP CLAMP instruction in eclipse; it acts as BYPASS outside eclipse. -/
  | clamp (t : Nat)
  /-- ECL_PATH (R350): TAP instruction that loads the 48-bit hierarchy path register at Update-DR. -/
  | eclPath (t : Nat) (v : BitVec 48)
  /-- ECL_READ (R351): TAP instruction that captures the named cell word with status and advances CELL. -/
  | eclRead (t : Nat)
  /-- ECL_STATUS (R348): TAP instruction that returns the eclipse and stall status with the last cause. -/
  | eclStatus (t : Nat)
  /-- BYPASS (R348): TAP instruction that selects the 1-bit bypass register, also for unlisted codes. -/
  | bypass (t : Nat) (code : Byte)
  /-- INVALID_RUN_END (R41): The overrange or common-mode condition that held an invalid run clears, ending a run longer than 8 µs, so invalid marking stops and the settle counter counts from the end of the gap. -/
  | invalidRunEnd (t : Nat) (h : HeadId) (x : Sys)
  /-- REGULATOR_RAMP_DOWN_DONE (R72): A driver ramping down outside a route request, as after THERM_OFF, reaches zero, and the regulator moves from RAMP_DOWN to OFF. -/
  | regulatorRampDownDone (t : Nat) (h : HeadId) (x : Sys)
  /-- MESSAGE_DISCARDED (R237): A link message whose CRC fails, whose TYPE is unknown or whose LEN is out of range is received, discarded and counted in ZL_CNT_ERR.CRC. -/
  | messageDiscarded (t : Nat)
  /-- ZCLK_PLL_LOCK (R336): The ZCLK PLL reaches lock, or stops when ZEN is 0, which completes CLK_SET and counts a relock in CLK_CNT.ZRELOCK. -/
  | zclkPllLock (t : Nat)
  /-- PCIE_REFCLK_LOSS (R334): PCIE_REFCLK stops, which sets CLK_FAULT.HCLK_LOST, raises source 5 and affects the HOST domain. -/
  | pcieRefclkLoss (t : Nat)
  /-- D0_TO_D3HOT (R281): The function enters D3hot, after which the device answers only configuration requests, admits nothing, writes nothing, drops records and counts completions of commands in progress as lost. -/
  | d0ToD3hot (t : Nat)
  /-- BUS_MASTER_ENABLE_CHANGE (R279): A configuration write changes Bus Master Enable: at 0 the device admits nothing, writes nothing, drops records and holds commits; at 1 admission, writes and commits resume. -/
  | busMasterEnableChange (t : Nat) (on : Bool)
deriving DecidableEq, Repr

end Sys2Proof
end

