-- ==== Sys2Proof/Decode.lean ====
section
/-! DEFINITION. The decoder of the rows of spec/opcode_table.json that give bits, and the one of the host's command
descriptors. The table gives bits to none of its 191 rows: what reaches the block is a descriptor, a register access, a
message or an event, never an instruction word. -/
namespace Sys2Proof

/-- The command that a word spells by the bits of the opcode table: none, for no row of the table gives bits. -/
def decodeTableWord (_nbits _w : Nat) : Option Instr := none

/-! ### Command descriptors (R269, R275) -/

/-- The opcodes that the device accepts, with the row of each. -/
def opcodeRows : List (Nat × (Nat → Cmd → Instr)) :=
  [(0x0001, .hpNop), (0x0002, .hpSeal), (0x0003, .hpWrite), (0x0004, .hpIdent)] ++
  [(0x0210, .feRoute), (0x0211, .feBiasSet), (0x0212, .feImpSet), (0x0213, .feImpRun), (0x0214, .feImpSetref),
   (0x0215, .feImpSweep)] ++
  [(0x0220, .xsSet), (0x0221, .xsAdjSet), (0x0222, .xsBandsSet), (0x0223, .xsUbandSet), (0x0224, .xsPlanSet),
   (0x0225, .xsListenReset)] ++
  [(0x0230, .fltSet), (0x0231, .fltNotchSet), (0x0232, .fltSwap), (0x0233, .fltBankLoad), (0x0234, .fltBankFree),
   (0x0235, .fltBankRead)] ++
  [(0x0240, .cmpSet), (0x0241, .cmpStatus), (0x0250, .trnSet), (0x0251, .trnSetref), (0x0252, .trnStatus)] ++
  [(0x0260, .secBind), (0x0261, .secSet), (0x0262, .secService), (0x0263, .secDisturb), (0x0264, .secLedgerRead),
   (0x0265, .secStatus), (0x0266, .secKeyProgram), (0x0270, .secResetSup), (0x0271, .secResetDir)] ++
  [(0x0280, .zlSet), (0x0281, .zlStatus), (0x0290, .tbSet), (0x0291, .tbStep)] ++
  [(0x02A0, .recSet), (0x02A1, .recSelect), (0x02A2, .recRead), (0x02A3, .recClear)] ++
  [(0x02B0, .pwrFld), (0x02B1, .pwrStatus), (0x02C0, .clkSet), (0x02D0, .eclEnter)]

/-- The row of an opcode. -/
def rowOf (opcode : Nat) : Option (Nat → Cmd → Instr) := (opcodeRows.find? (fun r => r.1 == opcode)).map (·.2)

/-- A little-endian number. -/
def leValue : List Byte → Nat
  | [] => 0
  | b :: bs => b.toNat + 256 * leValue bs

/-- The `n` bytes of a descriptor from byte `i`. -/
def descField (d : List Byte) (i n : Nat) : Nat := leValue ((d.drop i).take n)

/-- The fields of a command descriptor (R269). `host` is what host memory holds at an address and upwards; of it PLEN
bytes are the payload. -/
def cmdOfDescriptor (orbit : Fin 4) (d : List Byte) (host : BitVec 64 → List Byte) : Cmd :=
  { orbit := orbit
    tag := BitVec.ofNat 16 (descField d 2 2)
    plen := BitVec.ofNat 16 (descField d 4 2)
    rlen := BitVec.ofNat 16 (descField d 6 2)
    paddr := BitVec.ofNat 64 (descField d 8 8)
    raddr := BitVec.ofNat 64 (descField d 16 8)
    fence := (descField d 24 1).testBit 0
    payload := (host (BitVec.ofNat 64 (descField d 8 8))).take (descField d 4 2) }

/-- The command that a descriptor of a command orbit brings about at an instant: the row of its OPCODE, and
COMMAND_BAD_OPCODE where the table has none. -/
def descriptorCommand (t : Nat) (orbit : Fin 4) (d : List Byte) (host : BitVec 64 → List Byte) : Instr :=
  match rowOf (descField d 0 2) with
  | some row => row t (cmdOfDescriptor orbit d host)
  | none => .commandBadOpcode t (BitVec.ofNat 16 (descField d 0 2)) (cmdOfDescriptor orbit d host)

end Sys2Proof
end

