-- ==== Sys2Proof/Config.lean ====
section
/-! DEFINITION. What an implementation fixes and what the manual leaves open. Every constant here is opaque: nothing
can be proved of its value (assumption log 2, 10, 11). -/
namespace Sys2Proof.Config

/-- The device's random source (R188, R321): the n-th 64-bit draw. FREE VALUE, applied to `State.free`. -/
opaque random : Nat → BitVec 64

/-- What a live analogue register reads that no command samples (R342 PWR_VMON and PWR_EST):
the register's BAR0 offset and the free counter. FREE VALUE. -/
opaque live : Nat → Nat → Word

/-- The serial number fused at manufacture (R283). -/
opaque serial : BitVec 64

/-- Depth of a slice at an instant of the signature window that lies outside its depth history (R160). FREE VALUE,
applied to the free counter. -/
opaque depth : Nat → BitVec 10

/-- Cosine and sine of a carrier phase in 1/65,536 cycle, in the number format of the demodulator, which the manual
does not give (R90). FREE VALUE. -/
opaque cosine : BitVec 16 → Int
opaque sine : BitVec 16 → Int

/-- Coefficient k of a ROM bank, linear or minimum phase, in a rate class: the manual gives their responses and not
their values (R92). FREE VALUE. -/
opaque romCoef : Bool → Nat → Nat → BitVec 20

/-- The resampler's prototype between its zero ends (R107). FREE VALUE. -/
opaque kernel : Nat → Int

/-- A quotient in the number format of a stage: the manual states no rounding for the averages (0), the FIR output (1)
and the kernel's interpolation (2) (R92, R107). FREE VALUE. -/
opaque quotient : Nat → Int → Int → Int

/-- One output of a notch section: its word, FREQ, F_fir, its state and its input give the new state and the output
(R102 gives the response and no structure). FREE VALUE. -/
opaque notch : Word → Nat → Nat → List Int → Int × Int → List Int × (Int × Int)

/-- The steady state of a notch section for a constant input (R105). FREE VALUE. -/
opaque notchSteady : Word → Nat → Nat → Int × Int → List Int

/-- The magnitude of I and Q in whole units: the manual states no rounding (R90, R102). FREE VALUE. -/
opaque magnitude : Int → Int → Nat

/-- The preset drive of a slice that has heard no carrier, from its setpoint (R72). FREE VALUE. -/
opaque presetDrive : Nat → Nat

/-- The drive that the regulator asks for, in the drive's units: fast loop, TAU, setpoint, sensed amplitude, drive
(R72 gives the loops' speed and not their law). FREE VALUE. -/
opaque regulator : Bool → Nat → Nat → Nat → Nat → Nat

/-- TRIM that the listening loop asks for, from TRIM and the phase error (R81 gives the loop's bandwidth and not its
law). FREE VALUE. -/
opaque loopTrim : Int → Int → Int

/-- Whether a record write that the loss of a supply cuts off had ended, and the bytes that it leaves where it had not: the
manual bounds the write at 20 us and says of a torn record only that its CRC fails (R310, R316). FREE VALUES, applied to
the free counter and the byte's place. -/
opaque writeEnded : Nat → Bool
opaque tornByte : Nat → Nat → BitVec 8

/-- The rate that the device measures of its reference TB_10M, minus nominal, in 0.001 ppm (R303). FREE VALUE, applied
to the free counter. -/
opaque tbRate : Nat → Int

/-- The level of a digital pin that no command samples into the state, as a boundary-scan cell captures it (R349). FREE
VALUE, applied to the free counter. -/
opaque pinLevel : Nat → ScanPin → Bool

/-- What a register or a cell reads whose contents the manual gives no layout for (R350, state of a stage by
cell index). FREE VALUE. -/
opaque cell : Nat → Nat → Word

end Sys2Proof.Config
end

