-- ==== Sys2Proof/Machine/State.lean ====
section
/-! DEFINITION. The state of the block as plain data: every register, buffer, counter, mode and pin the spec gives it,
and the queue of waiting commands. Registers that the host writes whole stay words; live fields are computed from the
structured state by Sys2Proof.Machine.Read. -/
namespace Sys2Proof.Machine

/-- One value for each of the two slices of a head. -/
structure Pair (α : Type) where
  one : α
  two : α
deriving DecidableEq, Repr

/-- A stop with a fault. No command of this block raises one: the spec gives every command an effect, and what goes
wrong inside the device is a flag, a notice or a status code. SAFE. -/
inductive Fault
  /-- Raised by no meaning; the host's interface asks for the type. SAFE. -/
  | noneRaised
deriving DecidableEq, Repr

/-- A stop without a meaning. -/
inductive Refusal
  /-- Raised by an arm of `exec` whose command has no meaning yet, by its mnemonic. SAFE. -/
  | notModelled (mnemonic : String)
deriving DecidableEq, Repr

/-! ### Host port (R258 to R284) -/

/-- Completion status (R274). -/
inductive Status
  | ok | refusedBusy | badOpcode | badLength | shortBuffer | sealed | notAuthorised | conflict | roleStale | lateDropped
deriving DecidableEq, Repr

/-- A command in progress (R270, R271, R273). -/
structure InFlight where
  opcode   : BitVec 16
  tag      : BitVec 16
  orbit    : Fin 4
  cmdIdx   : Word
  rlen     : Nat
  raddr    : BitVec 64
  epochAdm : Nat
  admSeq   : Nat
  long     : Bool
  lost     : Bool
deriving DecidableEq, Repr

/-- What leaves the device: posted writes to host memory (R268), MSI-X writes (R293) and link messages (R237). -/
inductive Out
  | dma (addr : BitVec 64) (bytes : List Byte)
  | msix (addr : BitVec 64) (data : Word)
  | link (bytes : List Byte)
deriving DecidableEq, Repr

/-- The HP_ block, the configuration-space controls that the rules name, and the commands in progress. `served` is how
far the round over the command orbits has come (R270): orbits below it have had their turn. `readData` is the answer to
the host's last read: the bytes that reach it, none for Unsupported Request (R262). `muted` is some while an HP_WRITE
runs, whose refusal is not counted (R275): the cause of its refusal, 0 for none. -/
structure Hp where
  isSealed  : Bool
  errCount  : Nat
  errLog    : Word
  diagCfg   : Word
  refused   : Nat
  completed : Nat
  flrCount  : Nat
  flrLost   : Nat
  admSeq    : Nat
  inflight  : List InFlight
  served    : Nat
  bme       : Bool
  msixEn    : Bool
  funcMask  : Bool
  d3hot     : Bool
  maxPayload : Nat
  maxRead   : Nat
  linkPm    : LinkPm
  readData  : Option (List Byte)
  aerLogged : Nat
  muted     : Option Nat
deriving DecidableEq, Repr

/-- A posted stream buffer (R276). -/
structure Buf where
  addr  : BitVec 64
  len   : Nat
  used  : Nat
  first : Option Nat
deriving DecidableEq, Repr

/-- A command descriptor that was read and is held back (R270); its payload is read at admission. -/
structure Waiting where
  opcode : BitVec 16
  desc   : Cmd
deriving DecidableEq, Repr

/-- One orbit (R265 to R267, R276, R284). `clrRefused`: the last clear of EN was refused (R266). -/
structure Orbit where
  base       : BitVec 64
  shadow     : BitVec 64
  cfg        : Word
  hostIdx    : Word
  devIdx     : Word
  halt       : Bool
  drops      : Nat
  dropsSince : Nat
  waiting    : Option Waiting
  clrRefused : Bool
  fault      : Word
  posted     : List Buf
  lastDb     : Word
deriving DecidableEq, Repr

/-! ### Interrupt controller (R285 to R300) -/

/-- An MSI-X table entry. -/
structure MsixEntry where
  addr   : BitVec 64
  data   : Word
  masked : Bool
deriving DecidableEq, Repr

/-- A head event counter (R287). -/
structure HCnt where
  count : Nat
  sat   : Bool
deriving DecidableEq, Repr

/-- A message on its way to the controller, with its instant of arrival (R290). -/
structure IrqMsg where
  at_ : Nat
  src : SrcId
deriving DecidableEq, Repr

/-- The IRQ_ block. A source is PENDING or ACTIVE_PENDING when its bit of `pend` is set, and ACTIVE or ACTIVE_PENDING
when it is `active`; at most one source is active by construction (R291). -/
structure Irq where
  cfg     : Word
  pend    : BitVec 512
  active  : Option SrcId
  held    : Bool
  badEoi  : Nat
  storms  : Nat
  deliv   : Nat
  storm   : BitVec 512
  mask    : BitVec 512
  target  : Vector SrcId 512
  commits : List (Nat × Nat)
  hcnt    : Vector HCnt 256
  msgs    : List IrqMsg
  table   : Vector MsixEntry 512
  pba     : BitVec 512
  lastDb  : Word
deriving DecidableEq, Repr

/-! ### Front end of a head (R34 to R66) -/

/-- Phases of the route-request machine (R48). -/
inductive RoutePhase | steady | ramp | break1 | disch | break2 | make
deriving DecidableEq, Repr

/-- What a route request asks for, or what is in force (R42, R50, R52). -/
structure RouteCfg where
  mode  : BitVec 2
  type  : BitVec 2
  gain1 : BitVec 3
  gain2 : BitVec 3
  disch : Nat
  level : BitVec 8
  xp    : Vector Byte 14
deriving DecidableEq, Repr

/-- The route-request machine of a head: request in progress, its command, times of the break and of the discharge,
what is in force, and the expected-trip window (R42, R47, R48). -/
structure Route where
  phase   : RoutePhase
  req     : Option RouteCfg
  job     : Option Nat
  oldMode : BitVec 2
  admAt   : Nat
  breakAt : Nat
  dischAt : Nat
  testEnd : Nat
  cur     : RouteCfg
  window  : Bool
deriving DecidableEq, Repr

/-- Impedance class (R59). -/
abbrev ImpClass := BitVec 3

/-- Impedance state of one slice: next due time, whether it is due and since when, queued ahead by R63 or by
FE_IMP_RUN, overdue, class, and whether a result stands since the last route change (R56 to R61). -/
structure ImpSlice where
  lastDone : Nat
  dueSince : Option Nat
  urgent   : Bool
  overdue  : Bool
  cls      : ImpClass
  fresh    : Bool
deriving DecidableEq, Repr

/-- The FE_ state of a head. -/
structure FeHead where
  headCfg   : Word
  gain      : Word
  routeCtrl : Word
  bias      : Word
  xp        : Vector Byte 14
  seq       : Nat
  result    : Nat
  route     : Route
  impCfg    : Word
  impTol    : Word
  impRef    : Pair Word
  impRes    : Pair Word
  kref      : Word
  kres      : Word
  imp       : Pair ImpSlice
  interf    : Nat
  aborts    : Nat
  fault     : Word
  leak      : Nat
  leakSince : Option Nat
  leakFault : Bool
deriving DecidableEq, Repr

/-! ### Excitation of a head (R67 to R85) -/

/-- Regulator states (R72). -/
inductive RegState | off | rampUp | acquire | track | hold | rampDown | listen
deriving DecidableEq, Repr

/-- A synthesiser (R67): the accumulator `acc` at XCLK tick `tick`, the increment added at every tick from there, and the
phase offset. -/
structure Synth where
  acc   : Nat
  tick  : Nat
  inc   : Nat
  phase : Nat
deriving DecidableEq, Repr

/-- Excitation of one slice: the synthesiser in force and the one before its last change (R67, R68), the regulator with the
instant its ramp or switch point began, its drive, the preset, and the drives of the last 10 ms with their instants
(R72), the driver's clip level and measurements (R70, R84), and the listening loop with the amplitudes heard in the
last 1 ms, newest first (R81, R82). -/
structure XsSlice where
  syn      : Synth
  synOld   : Synth
  freq     : Nat
  amp      : Nat
  phase    : Nat
  trim     : Int
  reg      : RegState
  since    : Nat
  drive    : Nat
  preset   : Nat
  driveLog : List (Nat × Nat)
  clip     : Bool
  meas     : Word
  locked   : Bool
  mismatch : Bool
  phErr    : Int
  lockRun  : Nat
  heard    : List Nat
deriving DecidableEq, Repr

/-- A carrier change in progress (R79): the slices it changes, slices still to reach the switch point, slices still to be regulated, and the
command that waits. -/
structure CarrierChange where
  mask       : Pair Bool
  toSwitch   : Pair Bool
  toRegulate : Pair Bool
  job        : Option Nat
deriving DecidableEq, Repr

/-- The XS_ state of a head. The words FREQ to ADJ are held by the core die (R330). `thermHeld` is set from THERM_OFF
until the head's drivers are regulated again (R112); `spoilAt` is the instant of the last REG_FAULT, ILIM or HEALTH flag of
the head (R255). -/
structure XsHead where
  freq       : Pair Word
  amp        : Word
  ilim       : Word
  phase      : Word
  reg        : Word
  bands      : Word
  adj        : Vector Word 4
  planResult : Nat
  chgSeq     : Nat
  fault      : Word
  slice      : Pair XsSlice
  chg        : Option CarrierChange
  thermHeld  : Bool
  spoilAt    : Nat
deriving DecidableEq, Repr

/-! ### Filter chain of a head (R86 to R117) -/

/-- A track sample as FLT_MAGn shows it. -/
structure Sample where
  valid   : Bool
  settled : Bool
  bridged : Bool
  mag     : Nat
deriving DecidableEq, Repr

/-- The CIC decimator: three integrators, three comb delays and the output, 24-bit two's complement (R89), with the
count of bits since the last output. -/
structure Cic where
  int1 : BitVec 24
  int2 : BitVec 24
  int3 : BitVec 24
  dly1 : BitVec 24
  dly2 : BitVec 24
  dly3 : BitVec 24
  out  : BitVec 24
  cnt  : Nat
deriving DecidableEq, Repr

/-- The stages of a slice from the demodulator to the resampler (R90 to R107): I and Q of the newest CIC output and of the
last one before a gap; their sums since the last FIR output, with their number; the averages, newest first; the newest
FIR output, and how many a fade has had; the states of the notch sections, none while they are bypassed; magnitudes and
medians, newest first; the number of medians since the settle start; and the resampler's j and rem, none until it is
set. -/
structure Dsp where
  iq     : Int × Int
  held   : Int × Int
  sum    : Int × Int
  sumN   : Nat
  avg    : List (Int × Int)
  fir    : Int × Int
  fadeN  : Nat
  notch  : Option (List (List Int))
  mags   : List Nat
  med    : List Nat
  medNo  : Nat
  rsmp   : Option (Int × Nat)
deriving DecidableEq, Repr

/-- A gap of one slice (R113): its start, its end while it has ended, whether it is unbridged, and whether the settle
counter stood at its target when it began (R114). -/
structure Gap where
  start     : Nat
  stop      : Option Nat
  unbridged : Bool
  settled   : Bool
deriving DecidableEq, Repr

/-- An invalid run of R41: the conditions that held at any time in it, those that hold now, and whether it has reached
10 us. -/
structure InvRun where
  start  : Nat
  ovr    : Bool
  cm     : Bool
  ovrNow : Bool
  cmNow  : Bool
  long   : Bool
deriving DecidableEq, Repr

/-- The filter chain of one slice: bank codes and fade (R97 to R99; `fadeAt` is when a fade began), settle counter (R111, R112), latest sample,
decimation accumulator (R91), CIC, later stages, gap, invalid run, hand-over mark, health marking (R63),
and spans that mark samples invalid or bridged. `settleStart` is the instant the counter started; `settleHeld` holds
it at zero; `extra` is the EXTRA taken at its start (R110); `sampleAt` is one more than
the tick instant of the latest sample. -/
structure FltSlice where
  act         : Byte
  next        : Byte
  queued      : Byte
  fadeAt      : Option Nat
  settleCount : Nat
  settleHeld  : Bool
  settleStart : Nat
  extra       : Nat
  sample      : Sample
  sampleAt    : Nat
  dacc        : Nat
  cic         : Cic
  dsp         : Dsp
  gap         : Option Gap
  inv         : Option InvRun
  mark        : Option Nat
  healthMark  : Option Nat
  badSpans    : List (Nat × Nat)
  bridgeSpans : List (Nat × Nat)
  gapLast     : Nat
  gapBridged  : Nat
deriving DecidableEq, Repr

/-- A bank swap (R97): targets per slice (none for a slice not named), fade length, command. -/
structure Swap where
  one  : Option Byte
  two  : Option Byte
  fade : Nat
  job  : Option Nat
deriving DecidableEq, Repr

/-- The FLT_ state of a head. -/
structure FltHead where
  cfg    : Word
  delay  : Word
  fade   : Word
  notch  : Pair (Vector Word 4)
  result : Nat
  seq    : Nat
  fault  : Word
  alignErr : Bool
  slice  : Pair FltSlice
  fading : Option Swap
  queue  : Option Swap
deriving DecidableEq, Repr

/-! ### Comparators of a head (R118 to R143, R374) -/

/-- The comparator values of a head as four register words, staged or in force (R127). -/
structure CmpWords where
  pres   : Pair Word
  health : Pair Word
  cfg    : Word
  brake  : Word
deriving DecidableEq, Repr

/-- The comparators of one slice (R121 to R125, R129, R131, R139). `occEnd` is when the occultation timer ends,
`releasedAt` the last release of the line, `envHold` the end of an envelope hold (R138), `plaus` the run of
disagreements of R130, `checks` the instants and thresholds whose track sample is still to come (R130). -/
structure CmpSlice where
  asserted   : Bool
  lowOut     : Bool
  highOut    : Bool
  forced     : Bool
  testHold   : Bool
  railHold   : Bool
  testing    : Bool
  occEnd     : Option Nat
  releasedAt : Nat
  brk        : Bool
  envHold    : Option Nat
  plaus      : Nat
  checks     : List (Nat × Nat)
deriving DecidableEq, Repr

/-- The CMP_ state of a head: recognition of a brake field since `brakeSince`, its hold end once both comparators have
cleared, when the last recognition ended, the episode in progress and those ended but not judged (R374). -/
structure CmpHead where
  staged     : CmpWords
  force      : CmpWords
  result     : Nat
  fault      : Word
  rbA        : Pair Word
  rbB        : Pair Word
  trips      : Nat
  notrn      : Nat
  slice      : Pair CmpSlice
  brakeSince : Option Nat
  brakeHold  : Option Nat
  brakeEnded : Option Nat
  episode    : Option Nat
  judge      : List (Nat × Nat)
deriving DecidableEq, Repr

/-! ### Transit logic of a head (R144 to R168) -/

/-- States of the transit machine (R151). -/
inductive TrnState | wait | idle | one | both | two | init
deriving DecidableEq, Repr

/-- The edges of one slice within a passage, on internal time in 100 ns: its first entry, its last exit, and the last
crossing of ON on the way out of a dip that has not ended (R149); and its largest depth. -/
structure Edges where
  te   : Option Int
  tx   : Option Int
  out  : Option Int
  peak : Nat
deriving DecidableEq, Repr

/-- A passage in progress or in hold (R151 to R155). `entry`, `from_` and `lastx` as R151 names them; `stateSince` is
the tick at which the present state was entered; `endAt` the tick at which it ended, `lat` the
latencies at that tick as fractions of ps (R108). -/
structure Passage where
  start      : Bool
  entry      : Sys
  from_      : Sys
  lastx      : Option Sys
  exit       : Sys
  edges      : Pair Edges
  reversals  : Nat
  order      : Bool
  reversal   : Bool
  bridged    : Bool
  brake      : Bool
  stateSince : Nat
  endAt      : Nat
  incomplete : Bool
  spacing    : Nat
  val        : Word
  valb       : Word
  len        : Word
  lenb       : Word
  scale      : Nat
  noref      : Bool
  lat        : Pair (Nat × Nat)
deriving DecidableEq, Repr

/-- The head's last ACCEPTED transit (R156 checks 8 and 9). -/
structure LastAcc where
  stamp  : Int
  rev    : Bool
  rocked : Bool
deriving DecidableEq, Repr

/-- Transit logic of one slice: baseline with 16 fractional bits (R147), depth and dip (R146), depth history newest
first (R160), one more than the tick instant of the newest depth, and the magnitudes of the unbroken run of settled valid
samples, newest first (R166). -/
structure TrnSlice where
  base    : Nat
  limit   : Bool
  depth   : Nat
  dip     : Bool
  hist    : List Nat
  histAt  : Nat
  okMags  : List Nat
deriving DecidableEq, Repr

/-- The TRN_ state of a head. `lastStamp` is the stamp of the last passage of any outcome (R239); `issuedEnds` the ends
of issued ACCEPTED or REJECTED passages, newest first (R374); `histTick` is one more than the tick instant of the
latest step of the machine. -/
structure TrnHead where
  geom      : Word
  det       : Word
  val       : Word
  valb      : Word
  len       : Word
  lenb      : Word
  cal       : Word
  baseref   : Pair Word
  result    : Nat
  last      : Word
  cntFwd    : Nat
  cntRev    : Nat
  cntRej    : Nat
  cntInc    : Nat
  fault     : Word
  seq       : Nat
  st        : TrnState
  slice     : Pair TrnSlice
  histTick  : Nat
  pass      : Option Passage
  held      : List Passage
  lastAcc   : Option LastAcc
  lastEnd   : Option Nat
  idleSince : Nat
  lastStamp : Option Int
  issuedEnds : List Nat
deriving DecidableEq, Repr

/-- A head block: the five register groups at 0x0010_0000 + h × 0x1000 (R3, R261). -/
structure Head where
  fe  : FeHead
  xs  : XsHead
  flt : FltHead
  cmp : CmpHead
  trn : TrnHead
deriving DecidableEq, Repr

/-! ### Field dies -/

/-- A slot of a tone generator: the slice under tone, its start, and whether it is a sweep point (R54). -/
structure ToneSlot where
  head  : HeadId
  sys   : Sys
  start : Nat
  sweep : Bool
deriving DecidableEq, Repr

/-- A sweep that owns a generator (R62): slice, points, frequencies, results so far, admission. -/
structure Sweep where
  head   : HeadId
  sys    : Sys
  points : Nat
  freq0  : Nat
  step   : Nat
  done   : List (Word × Word)
  since  : Nat
  job    : Option Nat
deriving DecidableEq, Repr

/-- A tone generator. -/
structure Tone where
  sweep : Option Sweep
  slot  : Option ToneSlot
deriving DecidableEq, Repr

/-- A coefficient-bank slot (R94, R117). -/
structure BankSlot where
  loaded : Bool
  kind   : Bool
  cmax   : Nat
  cmin   : Nat
  gd     : Byte
  owned  : Bool
  sys    : Sys
  head   : Nat
  coef   : List (BitVec 20)
deriving DecidableEq, Repr

/-- A field die: tone generators and completed checks (R66), bank slots and the last load or free (R117), temperature and
driver dissipation (R71), and the FE_TG and thermal state. -/
structure Die where
  tg        : Vector Tone 4
  checks    : Nat
  slots     : Vector BankSlot 128
  bankRes   : Nat
  bankSlot  : Nat
  thermOff  : Bool
  thermWarn : Bool
  tj        : Int
  pdrv      : Nat
deriving DecidableEq, Repr

/-! ### Sections (R169 to R198) -/

/-- Section states, coded as SEC_STATE.STATE. -/
inductive SecState | clear | occupied | disturbed | restoring
deriving DecidableEq, Repr

/-- A ledger entry (R175). -/
structure Entry where
  sig      : List Byte
  head     : HeadId
  wildcard : Bool
  brake    : Bool
  epoch    : BitVec 16
deriving DecidableEq, Repr

/-- An item of a section's queue (R172): an ACCEPTED transit, a reject notice or a head notice with its reason code.
`stamp` orders it (R173), `at_` is the event's instant. -/
inductive ItemKind
  | transit (rev : Bool) (sig : List Byte)
  | reject
  | notice (reason : Nat)
deriving DecidableEq, Repr

structure Item where
  kind  : ItemKind
  head  : HeadId
  seq   : Nat
  stamp : Int
  at_   : Nat
deriving DecidableEq, Repr

/-- A section command waiting for the evaluation that applies it (R172, R186, R192, R196). -/
inductive SecOp
  | service (on : Bool)
  | disturb
  | reset (direct : Bool)
deriving DecidableEq, Repr

/-- The command, the instant of its admission, and the SEC_CFG value where it is a pre-seal write (R196). -/
structure SecCmd where
  op  : SecOp
  job : Option Nat
  at_ : Nat
  wr  : Option Word
deriving DecidableEq, Repr

/-- A ledger operation, sent to the partner as one delta record (R175, R239). -/
inductive Delta
  | append (idx : Nat) (e : Entry)
  | remove (idx : Nat)
  | empty
deriving DecidableEq, Repr

/-- What an evaluator works on: the working copy of R203. -/
structure SecCore where
  state      : SecState
  service    : Bool
  reason     : Nat
  count      : Int
  maxc       : Int
  firstHead  : Nat
  conf       : Bool
  susp       : Bool
  nomatchEp  : Nat
  ledger     : List Entry
  gen        : Nat
  stateEpoch : Nat
  exact      : Nat
  displaced  : Nat
  wildcard   : Nat
  nomat      : Nat
  unusable   : Nat
  suspended  : Nat
  transIn    : Nat
  transOut   : Nat
  fault      : Word
deriving DecidableEq, Repr

/-- Where a section's evaluation of this epoch stands (R201, R207). -/
inductive EvalState | none | due | served | committed | dropped
deriving DecidableEq, Repr

/-- A command's outcome, kept with the working copy until the commit (R203); `wr` is the value of a SEC_CFG write that
failed its test, which the commit counts (R196). -/
structure CmdDone where
  job    : Option Nat
  status : Status
  detail : Nat
  wr     : Option Word
deriving DecidableEq, Repr

/-- A working copy with what its commit queues: records, ledger deltas, completions, triggers, result codes (R203).
`rows` counts the ledger rows of the item in hand (R375); `work` holds the rows still to search of each item not yet
processed, and `until_` the instant at which the last row granted is searched (R207). -/
structure Priv where
  core   : SecCore
  recs   : List (List Byte)
  deltas : List Delta
  dones  : List CmdDone
  trigs  : List (Nat × Nat × Word)
  enter  : Bool
  adopted : Bool
  statRes : Option Nat
  authRes : Option Nat
  rows    : Nat
  work    : List Nat
  until_  : Nat
deriving DecidableEq, Repr

/-- A local fail of a follower (R245): reason and own epoch. -/
structure LocalFail where
  reason : Nat
  epoch  : Nat
deriving DecidableEq, Repr

/-- An ephemeris (R195), less its CRC. -/
structure Eph where
  state     : SecState
  service   : Bool
  latch     : Bool
  late      : Bool
  susp      : Bool
  conf      : Bool
  reason    : Nat
  count     : Int
  entries   : Nat
  maxc      : Int
  epoch     : Nat
  section_  : Nat
  nomatchEp : Nat
  firstHead : Nat
  mode      : BitVec 2
  quietEl   : Nat
  gen       : Nat
  stateEpoch : Nat
  transIn   : Nat
  transOut  : Nat
  cfgChk    : Nat
deriving DecidableEq, Repr

/-- A section: registers, queue, waiting commands, evaluation, trip latch and duplex state. `cutOvf`, `cutFit`,
`cutQuiet` and `cutWaits` are the queue overflow, the fitness of the bound heads, ELAPSED and whether an item stayed in
the queue as the intake cut found them (R202). `latchLog` holds the instants at which the trip latch changed, newest first, as
long as a read in progress samples it (R136). -/
structure Section where
  cfg       : Word
  match_    : Word
  bind      : Vector Word 8
  core      : SecCore
  quietEl   : Nat
  nonce     : BitVec 64
  authRes   : Nat
  fails     : Nat
  statRes   : Nat
  latch     : Bool
  latchLog  : List Nat
  late      : Bool
  queue     : List Item
  overflow  : Bool
  cmds      : List SecCmd
  eval      : EvalState
  intake    : List Item
  intakeCmd : List SecCmd
  cutOvf    : Bool
  cutFit    : Bool
  cutQuiet  : Nat
  cutWaits  : Bool
  priv      : Option Priv
  code      : BitVec 2
  dropPrev  : Bool
  localFail : Option LocalFail
  mismatch  : Bool
  adopted   : Option Nat
  adoptedLate : Bool
  synced    : Bool
  ledgerSnap : Option Nat
deriving DecidableEq, Repr

/-! ### Epochs (R199 to R211) -/

/-- A record waiting for the quiet window (R201): its orbit, bytes, and the head or section whose flag a drop sets. -/
structure StreamRec where
  orbit : Fin 16
  bytes : List Byte
  head  : Option HeadId
  sec   : Option SecId
deriving DecidableEq, Repr

/-- A SEC_STATUS or SEC_LEDGER_READ waiting for its snapshot (R201). -/
structure Snap where
  sec    : SecId
  ledger : Bool
  job    : Nat
deriving DecidableEq, Repr

/-- A TB latch of a past boundary: its instant, sequence number, TB_NOW and generation (R150). -/
structure TbLatch where
  at_ : Nat
  seq : Nat
  tb  : Nat
  gen : BitVec 16
deriving DecidableEq, Repr

/-- The EPC_ block and the running epoch. `tick` counts its track ticks; `tickAt` is one more than the instant of the
latest one, 0 where none has come; `fdLateEp` says whether a track sample was late since the last deadline; `engines`
holds the instants at which ledger engines granted in this epoch are free again (R207). -/
structure Epc where
  seq       : Nat
  start     : Nat
  tick      : Nat
  tickAt    : Nat
  cfg       : Word
  last      : Word
  minSlack  : Nat
  minAt     : Nat
  pace      : Nat
  paceMin   : Nat
  epochPace : Nat
  paceLow   : Bool
  cntLate   : Nat
  cntDrop   : Nat
  fault     : Word
  fdLate    : Word
  seqHi     : Nat
  floor     : Nat
  fdPace    : Vector Nat 8
  lateRun   : Nat
  lastCommit : Option Nat
  dropped   : Nat
  quiet     : Bool
  recs      : List StreamRec
  snaps     : List Snap
  fdLateEp  : Bool
  engines   : List Nat
deriving DecidableEq, Repr

/-! ### Vital status port (R212 to R227) -/

/-- A latched frame (R217 to R221): header with LANE 00, codes, build check. -/
structure Frame where
  hdr   : Word
  codes : Vector (BitVec 2) 256
  check : Word
deriving DecidableEq, Repr

/-- A read in progress: the instant of edge S, the clock of the read, and the lane's copy of the frame with LANE, with what
its operand says of the samples, of the build check and of the pad (R213 to R223). -/
structure LaneRead where
  start    : Nat
  period   : Nat
  low      : Nat
  stallAt  : Nat
  stallFor : Nat
  copy     : List Bool
  bad      : Bool
  seq      : BitVec 24
  near     : List Nat
  padAt    : Option Nat
deriving DecidableEq, Repr

/-- One lane: the read in progress, frame loaded since the last boundary, counters, clock edges of the last epoch, armed
CRC failure, and the bits launched in the last read that ended. -/
structure LaneSt where
  read     : Option LaneRead
  loaded   : Bool
  lastSeq  : BitVec 24
  complete : Nat
  aborted  : Nat
  missed   : Nat
  edges    : Nat
  clkOk    : Bool
  crcFail  : Bool
  bits     : List Bool
deriving DecidableEq, Repr

/-- The VSP_ block. -/
structure Vsp where
  ctrl  : Word
  frame : Option Frame
  old   : Option Frame
  a     : LaneSt
  b     : LaneSt
  c     : LaneSt
  fault : Word
deriving DecidableEq, Repr

/-! ### Duplex operation (R228 to R257) -/

/-- The claim of R231. -/
inductive Claim | none | waiting | trying | backoff | won
deriving DecidableEq, Repr

/-- Link states (R236). -/
inductive LinkState | down | train | wait | up
deriving DecidableEq, Repr

/-- The partner's last STATUS (R238): role in force, READY, MEAS, REQ; `ahead` is the device's own sequence number at
its receipt minus the message's (R241). -/
structure PartnerStatus where
  role  : BitVec 2
  ready : Bool
  meas  : Int
  req   : List Nat
  ahead : Int
deriving DecidableEq, Repr

/-- The set being received (R240, R243). -/
structure RxSet where
  epoch   : Nat
  status  : Bool
  cover   : Option (List Byte)
  ldelta  : List (Nat × List Byte)
  ldLast  : Option Nat
  eph     : List (Nat × List Byte)
deriving DecidableEq, Repr

/-- A kept ACCEPTED transit (R247). -/
structure Kept where
  head  : HeadId
  epoch : Nat
  item  : Item
deriving DecidableEq, Repr

/-- A cover entry: the stamp of a head's last passage (R239), on internal time in 100 ns. -/
abbrev CoverMap := Vector (Option Int) 256

/-- The ZL_ block: sideband pins, interlock, role, link, alignment, following. `roleAt` is the instant of the last change
of the role input to or from 10 (R249), `sent` whether this epoch's STATUS has been sent, `lfulls` the ledger snapshots
taken at the boundary for the partner (R240). `holdOut` is what the claim itself holds (R231), `stuck` the output stages that
stay enabled through a fault, and `driveFrom` the instant since which the stages have driven every head in RUN (R255). -/
structure Zl where
  cfg       : Word
  pins      : BitVec 2
  roleIn    : BitVec 2
  deposed   : Bool
  holdIn    : Bool
  holdOut   : Bool
  claim     : Claim
  claimAt   : Nat
  wantSince : Option Nat
  wonAt     : Option Nat
  role      : BitVec 2
  link      : LinkState
  laneLock  : BitVec 4
  upCount   : Nat
  statusMiss : Nat
  partner   : Option PartnerStatus
  meas      : Option Int
  skew      : Int
  offset    : Int
  aligned   : Bool
  alignRun  : Nat
  stale     : Nat
  crcErr    : Nat
  downCnt   : Nat
  missed    : Nat
  lfull     : Nat
  lastHo    : Word
  fault     : Word
  doorbells : List Nat
  rx        : Option RxSet
  lfulls    : List (Nat × List Byte)
  kept      : List Kept
  readyRun  : Nat
  eph       : Vector Eph 256
  ephSeq    : Nat
  cutCover  : CoverMap
  setCover  : CoverMap
  deltas    : List (SecId × List Delta)
  setDeltas : List (SecId × List Delta)
  setRole   : BitVec 2
  setGen    : BitVec 16
  sent      : Bool
  roleAt    : Nat
  stuck     : List (HeadId × Sys)
  driveFrom : Option Nat
deriving DecidableEq, Repr

/-! ### Time base and recorder (R301 to R325) -/

/-- Discipline states (R305). -/
inductive TbState | free | acquire | locked | holdover
deriving DecidableEq, Repr

/-- A pending step (R307). -/
structure TbStep where
  absolute : Bool
  value    : BitVec 64
  atSeq    : Nat
  job      : Option Nat
deriving DecidableEq, Repr

/-- The TB_ block. `acc` is the accumulator, exact, in units of 1 / (24 × 10^9) ns, at instant `accAt`; `dev` the rate minus nominal in
units of 0.001 ppm, of which `base` is the reference's part; `lastPps` the latest TB_PPS edge. -/
structure Tb where
  cfg      : Word
  mode     : BitVec 2
  disc     : Word
  result   : Nat
  acc      : Nat
  accAt    : Nat
  dev      : Int
  latches  : List TbLatch
  nowHi    : Word
  epochHi  : Word
  st       : TbState
  ppsErr   : Int
  lastStep : Int
  fault    : Word
  step     : Option TbStep
  refOk    : Bool
  ppsOk    : Bool
  ppsGood  : Nat
  freqHeld : Bool
  lastPps  : Option Nat
  base     : Int
deriving DecidableEq, Repr

/-- A recorder trigger raised and not yet handled (R312), with the instant of its event. -/
structure Trigger where
  cls    : Nat
  source : Nat
  detail : Word
  epoch  : Nat
  tbGen  : BitVec 16
  tbTime : Nat
  role   : BitVec 2
deriving DecidableEq, Repr

/-- A recorder record before it is written (R314). -/
structure RecEntry where
  ty     : Nat
  trig   : Nat
  ecl    : Bool
  source : Nat
  epoch  : Nat
  tbGen  : BitVec 16
  tbTime : Nat
  detail : Word
  selgen : Nat
  role   : BitVec 2
  data   : List Byte
  snaps  : List Word
  snapData : List Byte
  rep    : Nat
  lastEp : Nat
  latest : Nat
  job    : Option Nat
  ok     : Bool
  status : Status
  result : Nat
deriving DecidableEq, Repr

/-- The open record (R317). -/
structure OpenRec where
  recno  : Nat
  cls    : Nat
  source : Nat
  detail : Word
  rep    : Nat
  lastEp : Nat
  latest : Nat
  opened : Nat
  wroteBack : Nat
deriving DecidableEq, Repr

/-- What SURVEY gathers over a period (R315). -/
structure Survey where
  startSeq : Nat
  lo       : Nat
  hi       : Nat
  a        : Nat
  b        : Nat
  trigs    : Nat
  classes  : Word
  top      : Int
  bins     : Vector Nat 16
deriving DecidableEq, Repr

/-- The recorder's memory (R310): address and byte pairs, addresses rising, no entry equal to what an unlisted address
reads as (assumption log 3). -/
abbrev Memory := List Host.Cell

/-- A copy of the header block: the pointers of R310 and PASSES (R322). -/
structure RecHeader where
  next   : Nat
  oldest : Nat
  passes : Nat
deriving DecidableEq, Repr

/-- A REC_READ under way (R319): admission sequence, the RECNO to read next, how many are left, the first RECNO offered,
counts, and OLDEST at the start. -/
structure ReadJob where
  seq     : Nat
  next    : Nat
  left    : Nat
  first   : Option Nat
  offered : Nat
  dropped : Nat
  overrun : Nat
  oldest  : Nat
deriving DecidableEq, Repr

/-- The REC_ block. `winAt` is the instant of the last write to REC_CURSOR. -/
structure Rec where
  cfg      : Word
  period   : Word
  trigEn   : Word
  eclEn    : Word
  sel      : Vector Word 16
  selgen   : Nat
  open_    : Option OpenRec
  staging  : List RecEntry
  ovf      : Nat
  lost     : Nat
  nonce    : BitVec 64
  authRes  : Nat
  fails    : Nat
  fault    : Word
  cursor   : Word
  window   : List Byte
  winNo    : Option Nat
  winStale : Bool
  winGone  : Bool
  winAt    : Option Nat
  reads    : List ReadJob
  raised   : List Trigger
  lastWrite : Option Nat
  mem      : Memory
  header   : Pair RecHeader
  passes   : Nat
  survey   : Survey
deriving DecidableEq, Repr

/-! ### Power, clocks, eclipse, TAP, AON (R326 to R352) -/

/-- A PWR_FLD command in progress (R331). -/
structure FldJob where
  left : BitVec 8
  on   : Bool
  job  : Option Nat
deriving DecidableEq, Repr

/-- The PWR_ block and the domains (R326, R327, R331, R342). `held` names the field dies, and `aonHeld`, `coreHeld`,
`hostHeld` and `linkHeld` the other domains, that a supply monitor holds in reset; `onAt` is when a die's switches close. -/
structure Pwr where
  fldEn    : BitVec 8
  result   : Nat
  supplyOk : BitVec 8
  inReset  : BitVec 8
  on       : BitVec 8
  goingOff : BitVec 8
  onAt     : Vector Nat 8
  linkUp   : Bool
  hostUp   : Bool
  held     : BitVec 8
  aonHeld  : Bool
  coreHeld : Bool
  hostHeld : Bool
  linkHeld : Bool
  fault    : Word
  dieFault : Word
  jobs     : List FldJob
deriving DecidableEq, Repr

/-- The CLK_ block; `zSeen` says whether the ZCLK PLL has locked since core die reset, `jobs` are the CLK_SET commands that
wait for it. -/
structure Clk where
  cfg     : Word
  result  : Nat
  refOk   : Bool
  lock    : Bool
  zlock   : Bool
  hclkOk  : Bool
  vsTb    : BitVec 16
  vsHclk  : BitVec 16
  fault   : Word
  glitch  : Nat
  zrelock : Nat
  zSeen   : Bool
  jobs    : List Nat
deriving DecidableEq, Repr

/-- What the AON domain holds (R326). `floor` is none when AON has lost power (R200); `hourAt` is the instant from which the
hour of ZL_DRIVE_AGE in progress runs (R255). -/
structure Aon where
  gen      : BitVec 16
  tbGen    : BitVec 16
  driveAge : Nat
  hourAt   : Nat
  floor    : Option Nat
  next     : Nat
  oldest   : Nat
  cause    : Word
  resets   : Nat
  eclLast  : Word
  eclEpoch : Nat
  eclCnt   : Nat
deriving DecidableEq, Repr

/-- The TAP (R348 to R351): instruction, what its register captured in Capture-IR, path register, and the data register last
captured; the boundary-scan cells as captured and as last loaded (R349). -/
structure Tap where
  ir      : Byte
  irOut   : Byte
  path    : BitVec 48
  dr      : BitVec 40
  scan    : List (ScanPin × Bool)
  preload : List (ScanPin × Bool)
deriving DecidableEq, Repr

/-- Eclipse: configuration, pin, the instant of the last entry, and the free counter at it, which the cells without a
stated layout are drawn from (R344, R345, R350). -/
structure Ecl where
  cfg    : Word
  pinLow : Bool
  since  : Nat
  seed   : Nat
deriving DecidableEq, Repr

/-- Device-level plan and counters: XS_PLAN, XS_PLAN_STAT and user bands (R85), CMP_RAIL_LOG (R143), TRN_DROP and
TRN_REJ_LOG (R168), SEC_AUTH (R198). -/
structure Dev where
  plan      : Word
  planStat  : Word
  uband     : Vector Word 16
  railCount : Nat
  railSlice : Nat
  drop      : Vector Nat 4
  rejHead   : Nat
  rejReason : Nat
  rejCount  : Nat
  secAuth   : Word
deriving DecidableEq, Repr

/-- Run phase of the core die: in reset; released but before the first boundary (R200); running; in eclipse. -/
inductive Phase | reset | starting | running | eclipse
deriving DecidableEq, Repr

/-- The state of the block. -/
structure State where
  pending  : List Instr
  now      : Nat
  free     : Nat
  phase    : Phase
  resetAt  : Nat
  out      : List Out
  key      : Option (List Byte)
  subsys   : Option (BitVec 16 × BitVec 16)
  hp       : Hp
  orbits   : Vector Orbit 16
  irq      : Irq
  heads    : Vector Head 256
  dies     : Vector Die 8
  dev      : Dev
  sections : Vector Section 256
  epc      : Epc
  vsp      : Vsp
  zl       : Zl
  tb       : Tb
  rcd      : Rec
  pwr      : Pwr
  clk      : Clk
  ecl      : Ecl
  tap      : Tap
  aon      : Aon
deriving DecidableEq, Repr

/-! ### The state after reset

AON power-on reset, with the core die still in reset (R329): every field at the Reset column of its register map, and
the internal state the rules give. Values the spec gives no reset for are named in assumption logs 1, 2, 8, 9. -/

/-- A table of n values, the i-th being `f i`. -/
def tabulate {α : Type} (n : Nat) (f : Nat → α) : Vector α n :=
  ⟨⟨(List.range n).map f⟩, by simp⟩

/-- Low bytes of FE_XP_PIN0 to 13 after reset (R65): the fixed-head functions. -/
def xpReset : Vector Byte 14 :=
  ⟨#[0x11, 0x12, 0x13, 0x14, 0x21, 0x22, 0x23, 0x24, 0x05, 0x06, 0x00, 0x00, 0x00, 0x00], rfl⟩

/-- ISOLATED with TYPE 00 (R48). -/
def RouteCfg.reset : RouteCfg :=
  { mode := 0, type := 0, gain1 := 0, gain2 := 0, disch := 100, level := 0x64, xp := xpReset }

def Route.reset : Route :=
  { phase := .steady, req := none, job := none, oldMode := 0, admAt := 0, breakAt := 0, dischAt := 0, testEnd := 0, cur := RouteCfg.reset,
    window := false }

def ImpSlice.reset : ImpSlice :=
  { lastDone := 0, dueSince := none, urgent := false, overdue := false, cls := 0, fresh := false }

def FeHead.reset : FeHead :=
  { headCfg := 0x6400, gain := 0, routeCtrl := 0, bias := 0x1F406464, xp := xpReset, seq := 0, result := 0,
    route := Route.reset, impCfg := 0x0BB8012C, impTol := 0x00140A14, impRef := ⟨0, 0⟩, impRes := ⟨0, 0⟩, kref := 0,
    kres := 0, imp := ⟨ImpSlice.reset, ImpSlice.reset⟩, interf := 0, aborts := 0, fault := 0, leak := 0,
    leakSince := none, leakFault := false }

def Synth.reset : Synth := { acc := 0, tick := 0, inc := 0, phase := 0 }

def XsSlice.reset (freq : Nat) : XsSlice :=
  { syn := Synth.reset, synOld := Synth.reset, freq := freq, amp := 500, phase := 0, trim := 0, reg := .off, since := 0,
    drive := 0, preset := 0, driveLog := [], clip := false, meas := 0, locked := false, mismatch := false, phErr := 0,
    lockRun := 0, heard := [] }

def XsHead.reset : XsHead :=
  { freq := ⟨0x7530, 0x84D0⟩, amp := 0x01F401F4, ilim := 0x2828, phase := 0, reg := 0x32, bands := 0,
    adj := Vector.replicate 4 0, planResult := 0, chgSeq := 0, fault := 0,
    slice := ⟨XsSlice.reset 30000, XsSlice.reset 34000⟩, chg := none, thermHeld := false, spoilAt := 0 }

def Cic.reset : Cic :=
  { int1 := 0, int2 := 0, int3 := 0, dly1 := 0, dly2 := 0, dly3 := 0, out := 0, cnt := 0 }

/-- Every stage from the demodulator on holds zeros. -/
def Dsp.reset : Dsp :=
  { iq := (0, 0), held := (0, 0), sum := (0, 0), sumN := 0, avg := [], fir := (0, 0), fadeN := 0, notch := none,
    mags := [], med := [], medNo := 0, rsmp := none }

def FltSlice.reset : FltSlice :=
  { act := 0x80, next := 0xFF, queued := 0xFF, fadeAt := none, settleCount := 0, settleHeld := true, settleStart := 0, extra := 50,
    sample := { valid := false, settled := false, bridged := false, mag := 0 }, sampleAt := 0, dacc := 0,
    cic := Cic.reset, dsp := Dsp.reset, gap := none, inv := none, mark := none, healthMark := none, badSpans := [], bridgeSpans := [],
    gapLast := 0, gapBridged := 0 }

def FltHead.reset : FltHead :=
  { cfg := 0x32000000, delay := 0, fade := 0x100, notch := ⟨Vector.replicate 4 0, Vector.replicate 4 0⟩, result := 0,
    seq := 0, fault := 0, alignErr := false, slice := ⟨FltSlice.reset, FltSlice.reset⟩, fading := none, queue := none }

def CmpWords.reset : CmpWords :=
  { pres := ⟨0x00B800A0, 0x00B800A0⟩, health := ⟨0x02080028, 0x02080028⟩, cfg := 0x08051010, brake := 0x00A050F0 }

def CmpSlice.reset : CmpSlice :=
  { asserted := true, lowOut := true, highOut := true, forced := true, testHold := false, railHold := false,
    testing := false, occEnd := none, releasedAt := 0, brk := false, envHold := none, plaus := 0, checks := [] }

def CmpHead.reset : CmpHead :=
  { staged := CmpWords.reset, force := CmpWords.reset, result := 0, fault := 0, rbA := ⟨0, 0⟩, rbB := ⟨0, 0⟩,
    trips := 0, notrn := 0, slice := ⟨CmpSlice.reset, CmpSlice.reset⟩, brakeSince := none, brakeHold := none,
    brakeEnded := none, episode := none, judge := [] }

def TrnSlice.reset : TrnSlice :=
  { base := 0, limit := false, depth := 0, dip := false, hist := [], histAt := 0, okMags := [] }

def TrnHead.reset : TrnHead :=
  { geom := 0x000C0096, det := 0x009A0100, val := 0x14190032, valb := 0x000C0046, len := 0x0190001E,
    lenb := 0x012C003C, cal := 0x0A0A0100, baseref := ⟨0, 0⟩, result := 0, last := 0, cntFwd := 0, cntRev := 0,
    cntRej := 0, cntInc := 0, fault := 0, seq := 0, st := .wait, slice := ⟨TrnSlice.reset, TrnSlice.reset⟩,
    histTick := 0, pass := none, held := [], lastAcc := none, lastEnd := none, idleSince := 0, lastStamp := none,
    issuedEnds := [] }

def Head.reset : Head :=
  { fe := FeHead.reset, xs := XsHead.reset, flt := FltHead.reset, cmp := CmpHead.reset, trn := TrnHead.reset }

def BankSlot.reset : BankSlot :=
  { loaded := false, kind := false, cmax := 0, cmin := 0, gd := 0, owned := false, sys := .sys1, head := 0, coef := [] }

def Die.reset : Die :=
  { tg := Vector.replicate 4 { sweep := none, slot := none }, checks := 0, slots := Vector.replicate 128 BankSlot.reset,
    bankRes := 0, bankSlot := 0, thermOff := false, thermWarn := false, tj := 0, pdrv := 0 }

def Dev.reset : Dev :=
  { plan := 0x327D0BB8, planStat := 0, uband := Vector.replicate 16 0, railCount := 0, railSlice := 0,
    drop := Vector.replicate 4 0, rejHead := 0, rejReason := 0, rejCount := 0, secAuth := 0xC350 }

/-- Out of service, DISTURBED, REASON POWERUP (R182, R186). -/
def SecCore.reset : SecCore :=
  { state := .disturbed, service := false, reason := 1, count := 0, maxc := 0, firstHead := 0, conf := false,
    susp := false, nomatchEp := 0, ledger := [], gen := 0, stateEpoch := 0, exact := 0, displaced := 0, wildcard := 0,
    nomat := 0, unusable := 0, suspended := 0, transIn := 0, transOut := 0, fault := 0 }

/-- A section after core die reset: no bindings, trip latch set (R140), the given fresh nonce (R188). -/
def Section.reset (nonce : BitVec 64) : Section :=
  { cfg := 0x10, match_ := 0x60A00060, bind := Vector.replicate 8 0, core := SecCore.reset, quietEl := 0,
    nonce := nonce, authRes := 0, fails := 0, statRes := 0, latch := true, latchLog := [], late := false, queue := [],
    overflow := false, cmds := [], eval := .none, intake := [], intakeCmd := [], cutOvf := false, cutFit := false,
    cutQuiet := 0, cutWaits := false, priv := none, code := 3,
    dropPrev := false, localFail := none, mismatch := false, adopted := none,
    adoptedLate := false, synced := false, ledgerSnap := none }

/-- The ephemeris latched before the first boundary. -/
def Eph.reset (n : Nat) : Eph :=
  { state := .disturbed, service := false, latch := true, late := false, susp := false, conf := false, reason := 1,
    count := 0, entries := 0, maxc := 0, epoch := 0, section_ := n, nomatchEp := 0, firstHead := 0, mode := 1,
    quietEl := 0, gen := 0, stateEpoch := 0, transIn := 0, transOut := 0, cfgChk := 0 }

def Hp.reset : Hp :=
  { isSealed := false, errCount := 0, errLog := 0, diagCfg := 1, refused := 0, completed := 0, flrCount := 0,
    flrLost := 0, admSeq := 0, inflight := [], served := 0, bme := false, msixEn := false, funcMask := false, d3hot := false,
    maxPayload := 128, maxRead := 512, linkPm := .l0, readData := some [], aerLogged := 0, muted := none }

def Orbit.reset : Orbit :=
  { base := 0, shadow := 0, cfg := 0x06, hostIdx := 0, devIdx := 0, halt := false, drops := 0, dropsSince := 0,
    waiting := none, clrRefused := false, fault := 0, posted := [], lastDb := 0 }

def Irq.reset : Irq :=
  { cfg := 0x40, pend := 0, active := none, held := false, badEoi := 0, storms := 0, deliv := 0, storm := 0,
    mask := BitVec.allOnes 512, target := tabulate 512 (fun n => Fin.ofNat 512 n), commits := [],
    hcnt := Vector.replicate 256 { count := 0, sat := false }, msgs := [],
    table := Vector.replicate 512 { addr := 0, data := 0, masked := true }, pba := 0, lastDb := 0 }

def Epc.reset : Epc :=
  { seq := 0, start := 0, tick := 0, tickAt := 0, cfg := 0x1010, last := 0, minSlack := 0x8C, minAt := 0, pace := 1024,
    paceMin := 0xFFFF, epochPace := 0xFFFF, paceLow := false, cntLate := 0, cntDrop := 0, fault := 0, fdLate := 0,
    seqHi := 0, floor := 0, fdPace := Vector.replicate 8 1024, lateRun := 0, lastCommit := none, dropped := 0,
    quiet := false, recs := [], snaps := [], fdLateEp := false, engines := [] }

def LaneSt.reset : LaneSt :=
  { read := none, loaded := false, lastSeq := 0, complete := 0, aborted := 0, missed := 0, edges := 0,
    clkOk := false, crcFail := false, bits := [] }

def Vsp.reset : Vsp :=
  { ctrl := 0x7, frame := none, old := none, a := LaneSt.reset, b := LaneSt.reset, c := LaneSt.reset, fault := 0 }

/-- Undriven sideband inputs read as R228 states: role 00, deposed, held. -/
def Zl.reset : Zl :=
  { cfg := 0x00180000, pins := 0, roleIn := 0, deposed := true, holdIn := true, holdOut := false, claim := .none,
    claimAt := 0, wantSince := none, wonAt := none, role := 0, link := .down, laneLock := 0, upCount := 0,
    statusMiss := 0, partner := none, meas := none, skew := 0, offset := 0, aligned := false, alignRun := 0, stale := 0,
    crcErr := 0, downCnt := 0, missed := 0, lfull := 0, lastHo := 0, fault := 0, doorbells := [], rx := none,
    lfulls := [], kept := [], readyRun := 0, eph := tabulate 256 Eph.reset, ephSeq := 0,
    cutCover := Vector.replicate 256 none, setCover := Vector.replicate 256 none, deltas := [], setDeltas := [],
    setRole := 0, setGen := 0, sent := false, roleAt := 0, stuck := [], driveFrom := none }

def Tb.reset : Tb :=
  { cfg := 0, mode := 0, disc := 0x03E80000, result := 0, acc := 0, accAt := 0, dev := 0, latches := [], nowHi := 0,
    epochHi := 0, st := .free, ppsErr := 0, lastStep := 0, fault := 0, step := none, refOk := false, ppsOk := false,
    ppsGood := 0, freqHeld := false, lastPps := none, base := 0 }

def Survey.reset : Survey :=
  { startSeq := 0, lo := 0xFFFF, hi := 0, a := 0, b := 0, trigs := 0, classes := 0, top := 0,
    bins := Vector.replicate 16 0 }

def RecHeader.reset : RecHeader := { next := 0, oldest := 0, passes := 0 }

def Rec.reset (nonce : BitVec 64) : Rec :=
  { cfg := 0x00640001, period := 0x64, trigEn := 0x7FE6, eclEn := 0, sel := Vector.replicate 16 0, selgen := 0,
    open_ := none, staging := [], ovf := 0, lost := 0, nonce := nonce, authRes := 0, fails := 0, fault := 0,
    cursor := 0, window := [], winNo := none, winStale := false, winGone := false, winAt := none, reads := [],
    raised := [], lastWrite := none, mem := [], header := ⟨RecHeader.reset, RecHeader.reset⟩, passes := 0, survey := Survey.reset }

def Pwr.reset : Pwr :=
  { fldEn := 0xFF, result := 0, supplyOk := 0xFF, inReset := 0xFF, on := 0, goingOff := 0,
    onAt := Vector.replicate 8 0, linkUp := false, hostUp := false, held := 0,
    aonHeld := false, coreHeld := false, hostHeld := false, linkHeld := false, fault := 0, dieFault := 0,
    jobs := [] }

def Clk.reset : Clk :=
  { cfg := 0x1401, result := 0, refOk := true, lock := false, zlock := false, hclkOk := true, vsTb := 0x8000,
    vsHclk := 0, fault := 0, glitch := 0, zrelock := 0, zSeen := false, jobs := [] }

/-- AON power-on (R329): generations 0, HOURS 65,535, floor lost, POR recorded. -/
def Aon.reset : Aon :=
  { gen := 0, tbGen := 0, driveAge := 65535, hourAt := 0, floor := none, next := 0, oldest := 0, cause := 0x1, resets := 0,
    eclLast := 0, eclEpoch := 0, eclCnt := 0 }

def Tap.reset : Tap := { ir := 0x01, irOut := 0x01, path := 0, dr := 0, scan := [], preload := [] }

def Ecl.reset : Ecl := { cfg := 0x1, pinLow := false, since := 0, seed := 0 }

/-- The machine right after reset. -/
def State.reset : State :=
  { pending := [], now := 0, free := 257, phase := .reset, resetAt := 0, out := [], key := none, subsys := none, hp := Hp.reset,
    orbits := Vector.replicate 16 Orbit.reset, irq := Irq.reset, heads := Vector.replicate 256 Head.reset,
    dies := Vector.replicate 8 Die.reset, dev := Dev.reset,
    sections := tabulate 256 (fun n => Section.reset (Config.random n)), epc := Epc.reset, vsp := Vsp.reset,
    zl := Zl.reset, tb := Tb.reset, rcd := Rec.reset (Config.random 256), pwr := Pwr.reset, clk := Clk.reset,
    ecl := Ecl.reset, tap := Tap.reset, aon := Aon.reset }

end Sys2Proof.Machine
end

