-- ==== Sys2Proof/Machine/Bits.lean ====
section
/-! DEFINITION. Bit fields of register words, little-endian bytes, two's complement, saturation and small list
helpers. Everything here is structural or arithmetic on Nat, so that the kernel evaluates it on numerals. -/
namespace Sys2Proof

/-- The slice index of [8] in the records of R312 and the like: 0 for SYS1, 1 for SYS2. -/
def Sys.idx : Sys → Nat
  | .sys1 => 0
  | .sys2 => 1

def Sys.other : Sys → Sys
  | .sys1 => .sys2
  | .sys2 => .sys1

end Sys2Proof

namespace Sys2Proof.Machine

/-- Field of `n` bits from bit `lo` of a register. -/
def fld (w : Word) (lo n : Nat) : Nat := w.toNat / 2 ^ lo % 2 ^ n

/-- One bit of a register. -/
def bit (w : Word) (i : Nat) : Bool := w.toNat.testBit i

/-- A word whose field of `n` bits from bit `lo` is `v`, and which is zero elsewhere. -/
def put (lo n v : Nat) : Word := BitVec.ofNat 32 (v % 2 ^ n * 2 ^ lo)

/-- The mask of `n` bits from bit `lo`. -/
def bits (lo n : Nat) : Word := put lo n (2 ^ n - 1)

/-- Replace a field. -/
def setFld (w : Word) (lo n v : Nat) : Word := (w &&& ~~~ bits lo n) ||| put lo n v

/-- A word from a Nat, wrapping. -/
def word (v : Nat) : Word := BitVec.ofNat 32 v

/-- A single bit as a Nat. -/
def b2n (b : Bool) : Nat := if b then 1 else 0

/-- Two's complement reading of the low `n` bits. -/
def sext (n v : Nat) : Int := if v % 2 ^ n < 2 ^ (n - 1) then (v % 2 ^ n : Nat) else ((v % 2 ^ n : Nat) : Int) - (2 ^ n : Nat)

/-- Two's complement code in `n` bits. -/
def twos (n : Nat) (i : Int) : Nat := (i % ((2 ^ n : Nat) : Int)).toNat

/-- Saturate to the range of `n`-bit two's complement. -/
def satInt (n : Nat) (i : Int) : Int := max (-((2 ^ (n - 1) : Nat) : Int)) (min i (((2 ^ (n - 1) : Nat) : Int) - 1))

/-- Saturate a counter of `n` bits (R8). -/
def satNat (n v : Nat) : Nat := min v (2 ^ n - 1)

/-- `n` bytes of `v`, least significant first. -/
def le : Nat → Nat → List Byte
  | 0, _ => []
  | n + 1, v => BitVec.ofNat 8 v :: le n (v / 256)

/-- The little-endian number that the first `n` bytes of a list spell; a byte that is not there reads 0. -/
def unle : Nat → List Byte → Nat
  | 0, _ => 0
  | _ + 1, [] => 0
  | n + 1, b :: bs => b.toNat + 256 * unle n bs

/-- `n`-byte little-endian field at offset `i`. -/
def field (l : List Byte) (i n : Nat) : Nat := unle n (l.drop i)

/-- The `n` bytes from offset `i`, zeros where the list ends. -/
def slice (l : List Byte) (i n : Nat) : List Byte := le n (field l i n)

/-- Zeros. -/
def zeros (n : Nat) : List Byte := List.replicate n 0

/-- A register's four bytes. -/
def leWord (w : Word) : List Byte := le 4 w.toNat

/-- The bytes of several registers, in order. -/
def leWords (ws : List Word) : List Byte := ws.flatMap leWord

/-- Number of bits set among the low `n` bits. -/
def popcount : Nat → Nat → Nat
  | 0, _ => 0
  | n + 1, v => v % 2 + popcount n (v / 2)

/-- Lowest set bit among the low `n` bits. -/
def lowestBit : Nat → Nat → Option Nat
  | 0, _ => none
  | n + 1, v => if v % 2 = 1 then some 0 else (lowestBit n (v / 2)).map (· + 1)

/-- Division rounding to nearest, ties up. -/
def rdiv (a b : Nat) : Nat := (a + b / 2) / b

/-- Integer division truncating towards zero (R12's pseudocode rule). -/
def tdiv (a b : Int) : Int := a.tdiv b

/-- The first element that satisfies `p`, removed; and the rest. -/
def takeFirst {α : Type} (p : α → Bool) : List α → Option (α × List α)
  | [] => none
  | a :: as => if p a then some (a, as) else (takeFirst p as).map (fun r => (r.1, a :: r.2))

/-- Apply `f` with every element of a list, first to last. -/
def foldOver {α σ : Type} (l : List α) (f : α → σ → σ) (s : σ) : σ := l.foldl (fun acc a => f a acc) s

/-- All the numbers 0 to n - 1. -/
def allFin (n : Nat) : List (Fin n) := List.finRange n

/-! ### The two slices of a head -/

def Pair.get {α : Type} (p : Pair α) : Sys → α
  | .sys1 => p.one
  | .sys2 => p.two

def Pair.set {α : Type} (p : Pair α) (x : Sys) (a : α) : Pair α :=
  match x with
  | .sys1 => { p with one := a }
  | .sys2 => { p with two := a }

def Pair.mod {α : Type} (p : Pair α) (x : Sys) (f : α → α) : Pair α := p.set x (f (p.get x))

def Pair.both {α β : Type} (p : Pair α) (f : α → β) : Pair β := ⟨f p.one, f p.two⟩

/-- The slices a two-bit mask names: bit 0 SYS1, bit 1 SYS2. -/
def slices (m : Nat) : List Sys :=
  (if m.testBit 0 then [Sys.sys1] else []) ++ (if m.testBit 1 then [Sys.sys2] else [])

end Sys2Proof.Machine
end

