-- ==== Sys2Proof/Machine/Ops.lean ====
section
/-! DEFINITION. The operations that every meaning shares: access to the tables of the state, event stamps, interrupt
messages and recorder triggers, DMA writes, streams, the host-port error counter, admission and completion of commands,
and the recorder's memory. -/
namespace Sys2Proof.Machine

/-! ### Tables -/

def tget {α : Type} {n : Nat} (v : Vector α n) (i : Fin n) : α := v.get i

def tset {α : Type} {n : Nat} (v : Vector α n) (i : Fin n) (a : α) : Vector α n := v.set i.val a i.isLt

def tmod {α : Type} {n : Nat} (v : Vector α n) (i : Fin n) (f : α → α) : Vector α n := tset v i (f (tget v i))

/-- Time passes to the instant a command carries; it never goes back (assumption log 1). -/
def State.advance (s : State) (t : Nat) : State := { s with now := max s.now t }

def State.head (s : State) (h : HeadId) : Head := tget s.heads h
def State.sec (s : State) (n : SecId) : Section := tget s.sections n
def State.die (s : State) (d : DieId) : Die := tget s.dies d
def State.orbit (s : State) (k : Fin 16) : Orbit := tget s.orbits k

def State.modHead (s : State) (h : HeadId) (f : Head → Head) : State := { s with heads := tmod s.heads h f }
def State.modSec (s : State) (n : SecId) (f : Section → Section) : State := { s with sections := tmod s.sections n f }
def State.modDie (s : State) (d : DieId) (f : Die → Die) : State := { s with dies := tmod s.dies d f }
def State.modOrbit (s : State) (k : Fin 16) (f : Orbit → Orbit) : State := { s with orbits := tmod s.orbits k f }
def State.modFe (s : State) (h : HeadId) (f : FeHead → FeHead) : State :=
  s.modHead h (fun x => { x with fe := f x.fe })
def State.modXs (s : State) (h : HeadId) (f : XsHead → XsHead) : State :=
  s.modHead h (fun x => { x with xs := f x.xs })
def State.modFlt (s : State) (h : HeadId) (f : FltHead → FltHead) : State :=
  s.modHead h (fun x => { x with flt := f x.flt })
def State.modCmp (s : State) (h : HeadId) (f : CmpHead → CmpHead) : State :=
  s.modHead h (fun x => { x with cmp := f x.cmp })
def State.modTrn (s : State) (h : HeadId) (f : TrnHead → TrnHead) : State :=
  s.modHead h (fun x => { x with trn := f x.trn })
def State.modXsSlice (s : State) (h : HeadId) (x : Sys) (f : XsSlice → XsSlice) : State :=
  s.modXs h (fun b => { b with slice := b.slice.mod x f })
def State.modFltSlice (s : State) (h : HeadId) (x : Sys) (f : FltSlice → FltSlice) : State :=
  s.modFlt h (fun b => { b with slice := b.slice.mod x f })
def State.modCmpSlice (s : State) (h : HeadId) (x : Sys) (f : CmpSlice → CmpSlice) : State :=
  s.modCmp h (fun b => { b with slice := b.slice.mod x f })
def State.modTrnSlice (s : State) (h : HeadId) (x : Sys) (f : TrnSlice → TrnSlice) : State :=
  s.modTrn h (fun b => { b with slice := b.slice.mod x f })

/-- The field die of a head: heads 32 × n to 32 × n + 31 belong to FDn. -/
def dieOf (h : HeadId) : DieId := Fin.ofNat 8 (h.val / 32)

/-- The free counter advances; what is drawn is `Config.random` of its old value (assumption log 2). -/
def State.draw (s : State) : BitVec 64 × State := (Config.random s.free, { s with free := s.free + 1 })

/-! ### Running -/

/-- Commands act on the core die only while it runs (R12; R329, R345). -/
def running (s : State) : Bool := s.phase == .running

/-- The core die is out of reset and not in eclipse. -/
def awake (s : State) : Bool := s.phase == .running || s.phase == .starting

/-- Eclipse is being entered: within the 2.0 us that the entry takes, a clock-fault reset or the watchdog still acts
(R344, R345; assumption log 41). -/
def entering (s : State) : Bool := s.phase == .eclipse && decide (s.now ≤ s.ecl.since + us 2)

/-- Where the core die is awake, do `f`; otherwise nothing happens (R12). -/
def whenAwake (f : State → State) (s : State) : State := if awake s then f s else s

def whenRunning (f : State → State) (s : State) : State := if running s then f s else s

/-- The HOST domain is up and has its clock PCIE_REFCLK (R326, R334). -/
def hostUp (s : State) : Bool := s.pwr.hostUp && s.clk.hclkOk

/-- The host's memory requests reach the registers: core die awake, HOST domain up, function in D0 (R281, R326). -/
def hostOk (s : State) : Bool := awake s && hostUp s && !s.hp.d3hot

def whenHost (f : State → State) (s : State) : State := if hostOk s then f s else s

/-! ### Stamps (R150, R309) -/

/-- The TB latch of the last boundary at or before an instant; before the first boundary TB_NOW counts from 0 at the release
of the core die (R308). -/
def latchAt (s : State) (at_ : Nat) : TbLatch :=
  match s.tb.latches.find? (fun l => decide (l.at_ ≤ at_)) with
  | some l => l
  | none => { at_ := s.resetAt, seq := s.epc.seq, tb := 0, gen := s.aon.tbGen }

/-- TB time of an instant, in ns (R150). -/
def tbTimeAt (s : State) (at_ : Nat) : Nat :=
  let l := latchAt s at_
  l.tb + rdiv (at_ - l.at_) 100000 * 100

/-- TB time and generation of the present instant. -/
def tbNowStamp (s : State) : Nat × BitVec 16 := (tbTimeAt s s.now, (latchAt s s.now).gen)

/-! ### Interrupt messages and recorder triggers (R286 to R290, R312) -/

/-- A message takes its place: after those that arrived earlier, and after those of its own instant with a source not above
its own (R290; assumption log 81). -/
def insertMsg (m : IrqMsg) : List IrqMsg → List IrqMsg
  | [] => [m]
  | x :: l =>
    if x.at_ < m.at_ ∨ (x.at_ = m.at_ ∧ x.src.val ≤ m.src.val) then x :: insertMsg m l else m :: x :: l

/-- A message for a source arrives at the controller. -/
def raise (n : Nat) (s : State) : State :=
  { s with irq := { s.irq with msgs := insertMsg { at_ := s.now, src := Fin.ofNat 512 n } s.irq.msgs } }

/-- A happening of a trigger class is a trigger where the class is enabled in REC_TRIG_EN (R312). -/
def trig (cls source : Nat) (detail : Word) (s : State) : State :=
  if bit s.rcd.trigEn cls then
    let st := tbNowStamp s
    { s with rcd := { s.rcd with raised := s.rcd.raised ++
        [{ cls := cls, source := source, detail := detail, epoch := s.epc.seq, tbGen := st.2, tbTime := st.1,
           role := s.zl.role }] } }
  else s

/-! ### DMA writes (R268, R279, R281) -/

/-- The device writes host memory only in D0 with Bus Master Enable set, and while its host port is up. -/
def canMaster (s : State) : Bool := s.hp.bme && !s.hp.d3hot && hostUp s

/-- A write split at every 4 KiB address boundary and after Max_Payload_Size bytes (R279): the requests, oldest first. -/
def dmaRequests (mps : Nat) : BitVec 64 → List Byte → List Byte → List Out
  | _, [], [] => []
  | a, acc, [] => [.dma a acc.reverse]
  | a, acc, b :: bs =>
    let next := a + BitVec.ofNat 64 (acc.length + 1)
    if acc.length + 1 = mps ∨ next.toNat % 4096 = 0 then .dma a (b :: acc).reverse :: dmaRequests mps next [] bs
    else dmaRequests mps a (b :: acc) bs

/-- A write of the device, as its posted requests; with no byte to write there is none. -/
def dma (addr : BitVec 64) (bytes : List Byte) (s : State) : State :=
  { s with out := (dmaRequests s.hp.maxPayload addr [] bytes).reverse ++ s.out }

/-! ### Orbits (R265 to R268, R276, R278) -/

def Orbit.size (o : Orbit) : Nat := 2 ^ fld o.cfg 0 5
def Orbit.en (o : Orbit) : Bool := bit o.cfg 8
def Orbit.ie (o : Orbit) : Bool := bit o.cfg 16

/-- Address of the entry of index `i`. -/
def Orbit.slot (o : Orbit) (i : Word) : BitVec 64 := o.base + BitVec.ofNat 64 (32 * (i.toNat % o.size))

/-- Set flags of ORB_FAULT; a flag that goes to 1 raises source 16 + k (R278, R284). -/
def orbFault (k : Fin 16) (flags : Word) (s : State) : State :=
  let o := s.orbit k
  let s' := s.modOrbit k (fun o => { o with fault := o.fault ||| flags })
  if flags &&& ~~~ o.fault = 0 then s' else raise (16 + k.val) s'

/-- Advance the device's index and write the shadow, with the source of R278. -/
def stepIndex (k : Fin 16) (s : State) : State :=
  let o := s.orbit k
  let s := s.modOrbit k (fun o => { o with devIdx := o.devIdx + 1 })
  let s := dma o.shadow (leWord (o.devIdx + 1)) s
  if o.ie then raise (16 + k.val) s else s

/-- Drop a record offered to a stream (R163, R276). -/
def dropRecord (k : Fin 16) (s : State) : State :=
  orbFault k (bits 3 1) (s.modOrbit k (fun o =>
    { o with drops := (o.drops + 1) % 65536, dropsSince := satNat 16 (o.dropsSince + 1) }))

/-- Hand back the oldest posted buffer: write-back of bytes 12 to 23 of its descriptor, then the shadow (R276). -/
def handBack (k : Fin 16) (b : Buf) (flags : Nat) (s : State) : State :=
  let o := s.orbit k
  let s := dma (o.slot o.devIdx + 12)
    (le 2 b.used ++ [BitVec.ofNat 8 flags, 0] ++ le 6 (b.first.getD 0) ++ le 2 o.dropsSince) s
  let s := s.modOrbit k (fun o => { o with posted := o.posted.tail, dropsSince := 0 })
  stepIndex k s

/-- Pack a record into the posted buffers, handing back the skipped and the full ones (R276). Answers whether it was
taken. -/
def offerFrom (k : Fin 16) (bytes : List Byte) : List Buf → State → State × Bool
  | [], s => (dropRecord k s, false)
  | b :: rest, s =>
    if b.len < bytes.length then offerFrom k bytes rest (handBack k { b with used := 0, first := none } 5 s)
    else if b.used + bytes.length ≤ b.len then
      let s := dma (b.addr + BitVec.ofNat 64 b.used) bytes s
      (s.modOrbit k (fun o => { o with posted :=
        { b with used := b.used + bytes.length, first := some (b.first.getD s.epc.seq) } :: rest }), true)
    else offerFrom k bytes rest (handBack k b 1 s)

/-- Offer a record to a stream orbit (R276). -/
def offer (k : Fin 16) (bytes : List Byte) (s : State) : State × Bool :=
  let o := s.orbit k
  if o.en && !o.halt && canMaster s then offerFrom k bytes o.posted s else (dropRecord k s, false)

/-! ### Diagnostic records and the host-port error counter (R263, R277) -/

/-- A diagnostic record: bytes 0 to 7, the common fields, bytes 24 to 31, zeros. -/
def diagBytes (head tail : List Byte) (s : State) : List Byte :=
  head ++ le 6 s.epc.seq ++ le 2 (tbNowStamp s).2.toNat ++ le 8 (tbNowStamp s).1 ++ tail ++ zeros 32

/-- Count an event in HP_ERR and log it; `val` is the data of the refused write (R263, R277). The refusal of an HP_WRITE
is not counted (R275). -/
def hpErr (cause : Nat) (bar2 : Bool) (off : Nat) (val : Word) (s : State) : State :=
  if s.hp.muted.isSome then { s with hp := { s.hp with muted := some cause } } else
  let first := s.hp.errCount == 0
  let s := { s with hp := { s.hp with
    errCount := satNat 16 (s.hp.errCount + 1)
    errLog := put 28 4 cause ||| put 27 1 (b2n bar2) ||| put 0 23 off } }
  let s := if first then raise 8 s else s
  if bit s.hp.diagCfg 2 then
    (offer 15 (diagBytes ([0x12, BitVec.ofNat 8 cause, (if bar2 then 2 else 0), 0] ++ le 4 off)
      (leWord val ++ zeros 4) s) s).1
  else s

/-! ### Commands (R269 to R274) -/

def Status.code : Status → Nat
  | .ok => 0
  | .refusedBusy => 1
  | .badOpcode => 2
  | .badLength => 3
  | .shortBuffer => 4
  | .sealed => 5
  | .notAuthorised => 6
  | .conflict => 7
  | .roleStale => 8
  | .lateDropped => 9

/-- The completion orbit of a command orbit. -/
def compOrbit (k : Fin 4) : Fin 16 := ⟨4 + k.val, by omega⟩

/-- A command orbit among the sixteen. -/
def cmdOrbit (k : Fin 4) : Fin 16 := ⟨k.val, by omega⟩

/-- The 32 bytes of a completion descriptor (R273). -/
def completionBytes (c : InFlight) (st : Status) (detail used done : Nat) : List Byte :=
  le 2 c.opcode.toNat ++ le 2 c.tag.toNat ++ [BitVec.ofNat 8 st.code, BitVec.ofNat 8 detail,
    BitVec.ofNat 8 c.orbit.val, 0] ++ leWord c.cmdIdx ++ le 2 used ++ [0, 0] ++ le 6 c.epochAdm ++ le 6 done ++
    le 4 c.admSeq

/-- Write the response, the completion descriptor and the shadow of a command that completes (R268, R273). -/
def writeCompletion (c : InFlight) (st : Status) (detail : Nat) (resp : List Byte) (s : State) : State :=
  let k := compOrbit c.orbit
  let o := s.orbit k
  let s := dma c.raddr resp s
  let s := dma (o.slot o.devIdx) (completionBytes c st detail resp.length s.epc.seq) s
  stepIndex k { s with hp := { s.hp with completed := (s.hp.completed + 1) % 65536 } }

/-- A command in progress completes. A completion that cannot be written, or whose command was in progress at a
function-level reset, is counted in HP_FLR.LOST (R279, R280, R283). A response that does not fit completes
SHORT_BUFFER (R272). -/
def complete (seq : Nat) (st : Status) (detail : Nat) (resp : List Byte) (s : State) : State :=
  match takeFirst (fun c : InFlight => c.admSeq == seq) s.hp.inflight with
  | none => s
  | some (c, rest) =>
    let s := { s with hp := { s.hp with
      inflight := rest
      refused := if st = .refusedBusy then (s.hp.refused + 1) % 65536 else s.hp.refused } }
    if c.lost || !canMaster s || !(s.orbit (compOrbit c.orbit)).en then
      { s with hp := { s.hp with flrLost := satNat 16 (s.hp.flrLost + 1) } }
    else if c.rlen < resp.length then writeCompletion c .shortBuffer 0 [] s
    else writeCompletion c st detail resp s

/-- Complete a command if one waits. -/
def completeJob (job : Option Nat) (st : Status) (detail : Nat) (s : State) : State :=
  match job with
  | none => s
  | some seq => complete seq st detail [] s

/-- Commands of an orbit in progress. -/
def inProgress (k : Fin 4) (s : State) : List InFlight := s.hp.inflight.filter (fun c => c.orbit == k)

/-- Slots of the completion orbit that hold a completion the host has not taken, or that are reserved (R270). -/
def slotsUsed (k : Fin 4) (s : State) : Nat :=
  let o := s.orbit (compOrbit k)
  (o.devIdx - o.hostIdx).toNat + ((inProgress k s).filter (fun c => !c.lost)).length

/-- The completion orbit is disabled or full, which holds a descriptor back (R270). -/
def noSlot (k : Fin 4) (s : State) : Bool :=
  !(s.orbit (compOrbit k)).en || decide ((s.orbit (compOrbit k)).size ≤ slotsUsed k s)

/-- The orbit has a descriptor that the device has read or may read, and admits commands at all. -/
def orbitReady (k : Fin 4) (s : State) : Bool :=
  let o := s.orbit (cmdOrbit k)
  running s && canMaster s && o.en && !o.halt && o.devIdx != o.hostIdx

/-- A descriptor with FENCE waits for an earlier command of its orbit. -/
def fenceHolds (c : Cmd) (s : State) : Bool := c.fence && !(inProgress c.orbit s).isEmpty

/-- A descriptor that was read and waits on FENCE: ORB_STAT.FENCED. -/
def fencedNow (k : Fin 4) (s : State) : Bool :=
  match (s.orbit (cmdOrbit k)).waiting with
  | some w => orbitReady k s && fenceHolds { w.desc with orbit := k } s
  | none => false

/-- The round over the orbits has come to orbit k: no orbit before it in the round has a descriptor to take, and where k
has had its turn the round is over (R270). -/
def orbitTurn (k : Fin 4) (s : State) : Bool :=
  let takes (lo hi : Nat) : Bool := [(0 : Fin 4), 1, 2, 3].any (fun j =>
    decide (lo ≤ j.val ∧ j.val < hi) && orbitReady j s && !noSlot j s && !fencedNow j s)
  if s.hp.served ≤ k.val then !takes s.hp.served k.val else !takes s.hp.served 4 && !takes 0 k.val

/-- What the device has read of a descriptor: all but the payload, which it fetches at admission. -/
def descOf (c : Cmd) : Cmd := { c with payload := [] }

/-- The next descriptor of a command orbit may be admitted; one that waits goes before any later one (R270). -/
def admissible (opcode : BitVec 16) (c : Cmd) (s : State) : Bool :=
  orbitReady c.orbit s && !noSlot c.orbit s && !fenceHolds c s && orbitTurn c.orbit s &&
    ((s.orbit (cmdOrbit c.orbit)).waiting.all (· == { opcode := opcode, desc := descOf c }))

/-- Take the descriptor in: reserve the slot, step the consumer index, write the shadow. -/
def admitCmd (opcode : BitVec 16) (long : Bool) (c : Cmd) (s : State) : State :=
  let k := cmdOrbit c.orbit
  let e : InFlight :=
    { opcode := opcode, tag := c.tag, orbit := c.orbit, cmdIdx := (s.orbit k).devIdx, rlen := c.rlen.toNat,
      raddr := c.raddr, epochAdm := s.epc.seq, admSeq := s.hp.admSeq, long := long, lost := false }
  let s := s.modOrbit k (fun o => { o with waiting := none })
  stepIndex k { s with hp := { s.hp with
    admSeq := s.hp.admSeq + 1, served := c.orbit.val + 1, inflight := s.hp.inflight ++ [e] } }

/-- A descriptor that finds no slot or an earlier command under FENCE is kept and waits. -/
def holdBack (opcode : BitVec 16) (c : Cmd) (s : State) : State :=
  if orbitReady c.orbit s && (s.orbit (cmdOrbit c.orbit)).waiting.isNone && (noSlot c.orbit s || fenceHolds c s) then
    s.modOrbit (cmdOrbit c.orbit) (fun o => { o with waiting := some { opcode := opcode, desc := descOf c } })
  else s

/-- Admission of the next descriptor of a command orbit, with the host-port checks of R271 and R272 in the order PLEN,
limit of the long class, limit of all, RLEN (assumption log 14); `body` is what the command's own chapter does, given its admission sequence. -/
def command (opcode : BitVec 16) (long : Bool) (need rneed : Nat) (c : Cmd) (body : Nat → State → State)
    (s : State) : State :=
  if !admissible opcode c s then holdBack opcode c s
  else
    let total := s.hp.inflight.length
    let longs := (s.hp.inflight.filter (·.long)).length
    let seq := s.hp.admSeq
    let s := admitCmd opcode long c s
    if c.plen.toNat < need then complete seq .badLength 0xF0 [] s
    else if long && decide (8 ≤ longs) then complete seq .refusedBusy 0xF3 [] s
    else if 64 ≤ total then complete seq .refusedBusy 0xF2 [] s
    else if c.rlen.toNat < rneed then complete seq .shortBuffer 0 [] s
    else body seq s

/-! ### The recorder's memory (R310)

Address and byte pairs, addresses rising, no entry equal to 0, which is what an unlisted address reads as
(assumption log 3). -/

def memGet : Memory → Nat → Byte
  | [], _ => 0
  | c :: m, a => if c.1 = a then c.2 else memGet m a

/-- Put an entry in its place; 0 is not listed. -/
def memSet : Memory → Nat → Byte → Memory
  | [], a, b => if b = 0 then [] else [(a, b)]
  | c :: m, a, b =>
    if c.1 < a then c :: memSet m a b
    else if c.1 = a then (if b = 0 then m else (a, b) :: m)
    else if b = 0 then c :: m else (a, b) :: c :: m

/-- Write bytes upwards from an address. -/
def memWrite : Memory → Nat → List Byte → Memory
  | m, _, [] => m
  | m, a, b :: bs => memWrite (memSet m a b) (a + 1) bs

/-- Read `n` bytes upwards from an address. -/
def memRead (m : Memory) : Nat → Nat → List Byte
  | _, 0 => []
  | a, n + 1 => memGet m a :: memRead m (a + 1) n

/-- The canonical form: addresses above `lo` strictly rising, and no listed 0. -/
def memSorted : Nat → Memory → Bool
  | _, [] => true
  | lo, c :: m => decide (lo ≤ c.1) && c.2 != 0 && memSorted (c.1 + 1) m

/-- The canonical form of the memory. -/
def Memory.wf (m : Memory) : Bool := memSorted 0 m

end Sys2Proof.Machine
end

