-- ==== Sys2Proof/Machine/Flags.lean ====
section
/-! DEFINITION. Every flag computation of the block: W1C writes, the fault flags of a head with its event counter
(R287), and the fault flags of the device blocks with their sources (R286) and trigger classes (R312). -/
namespace Sys2Proof.Machine

/-- A write of `v` to W1C bits `mask` (R5). -/
def w1c (old v mask : Word) : Word := old &&& ~~~ (v &&& mask)

/-- The five fault registers of a head, in the order of the trigger codes of R312. -/
inductive HeadReg | fe | xs | flt | cmp | trn
deriving DecidableEq, Repr

def HeadReg.code : HeadReg → Nat
  | .fe => 0
  | .xs => 1
  | .flt => 2
  | .cmp => 3
  | .trn => 4

def headFault (r : HeadReg) (x : Head) : Word :=
  match r with
  | .fe => x.fe.fault
  | .xs => x.xs.fault
  | .flt => x.flt.fault
  | .cmp => x.cmp.fault
  | .trn => x.trn.fault

def setHeadFault (r : HeadReg) (w : Word) (x : Head) : Head :=
  match r with
  | .fe => { x with fe := { x.fe with fault := w } }
  | .xs => { x with xs := { x.xs with fault := w } }
  | .flt => { x with flt := { x.flt with fault := w } }
  | .cmp => { x with cmp := { x.cmp with fault := w } }
  | .trn => { x with trn := { x.trn with fault := w } }

/-- The head event counter takes `n` events; at 255 it sets SAT and sends no message (R287). -/
def countEvents (h : HeadId) (n : Nat) (s : State) : State :=
  let c := tget s.irq.hcnt h
  let c' : HCnt := { count := min 255 (c.count + n), sat := c.sat || decide (255 < c.count + n) }
  let s' := { s with irq := { s.irq with hcnt := tset s.irq.hcnt h c' } }
  if c.count < 255 then raise (32 + h.val) s' else s'

/-- REG_FAULT, ILIM or HEALTH is among the flags. -/
def spoils (r : HeadReg) (flags : Word) : Bool :=
  match r with
  | .xs => decide (flags &&& 0xF ≠ 0)
  | .fe => decide (flags &&& 3 ≠ 0)
  | _ => false

/-- A drive interval of the head starts anew at an instant where such a flag is set (R255). -/
def Head.spoil (r : HeadReg) (flags : Word) (now : Nat) (x : Head) : Head :=
  if spoils r flags then { x with xs := { x.xs with spoilAt := now } } else x

/-- Set flags of a head's fault register. The flags that go from 0 to 1 increment the head's event counter by their
number and are a trigger of class 3 (R287, R312). -/
def flagHead (r : HeadReg) (h : HeadId) (flags : Word) (s : State) : State :=
  let s := s.modHead h (Head.spoil r flags s.now)
  let old := headFault r (s.head h)
  let rise := flags &&& ~~~ old
  if rise = 0 then s
  else
    let s := s.modHead h (setHeadFault r (old ||| rise))
    let s := countEvents h (popcount 32 rise.toNat) s
    trig 3 h.val (put 28 4 r.code ||| put 0 16 rise.toNat) s

/-- Flag `n` for SYS1 and `n + 1` for SYS2. -/
def sliceFlag (n : Nat) (x : Sys) : Word := bits (n + x.idx) 1

def flagFe (h : HeadId) (n : Nat) (s : State) : State := flagHead .fe h (bits n 1) s
def flagXs (h : HeadId) (n : Nat) (s : State) : State := flagHead .xs h (bits n 1) s
def flagFlt (h : HeadId) (n : Nat) (s : State) : State := flagHead .flt h (bits n 1) s
def flagCmp (h : HeadId) (n : Nat) (s : State) : State := flagHead .cmp h (bits n 1) s
def flagTrn (h : HeadId) (n : Nat) (s : State) : State := flagHead .trn h (bits n 1) s

/-- What the setting of device flags brings: the source where a flag rose, and the trigger with the register's value
after the change. -/
def announce (src cls : Nat) (old new : Word) (s : State) : State :=
  if new &&& ~~~ old = 0 then s else trig cls 0xFFFF new (raise src s)

/-- VSP_FAULT: source 0, class 7 (R226). -/
def flagVsp (flags : Word) (s : State) : State :=
  announce 0 7 s.vsp.fault (s.vsp.fault ||| flags) { s with vsp := { s.vsp with fault := s.vsp.fault ||| flags } }

/-- ZL_FAULT: source 2, class 8 (R257). -/
def flagZl (n : Nat) (s : State) : State :=
  announce 2 8 s.zl.fault (s.zl.fault ||| bits n 1)
    { s with zl := { s.zl with fault := s.zl.fault ||| bits n 1 } }

/-- EPC_FAULT: source 3, class 6 (R210). -/
def flagEpc (flags : Word) (s : State) : State :=
  announce 3 6 s.epc.fault (s.epc.fault ||| flags) { s with epc := { s.epc with fault := s.epc.fault ||| flags } }

/-- CLK_FAULT: source 5, class 10 (R343). -/
def flagClk (flags : Word) (s : State) : State :=
  announce 5 10 s.clk.fault (s.clk.fault ||| flags) { s with clk := { s.clk with fault := s.clk.fault ||| flags } }

/-- TB_FAULT: source 6, class 12 (R324). -/
def flagTb (n : Nat) (s : State) : State :=
  announce 6 12 s.tb.fault (s.tb.fault ||| bits n 1)
    { s with tb := { s.tb with fault := s.tb.fault ||| bits n 1 } }

/-- REC_FAULT: source 7 (R325); the recorder's own faults are no trigger class. -/
def flagRec (n : Nat) (s : State) : State :=
  let new := s.rcd.fault ||| bits n 1
  let s' := { s with rcd := { s.rcd with fault := new } }
  if new = s.rcd.fault then s' else raise 7 s'

/-- SEC_FAULT of a section; section flags raise no source (R197). -/
def flagSec (n : SecId) (k : Nat) (s : State) : State :=
  s.modSec n (fun x => { x with core := { x.core with fault := x.core.fault ||| bits k 1 } })

end Sys2Proof.Machine
end

