-- ==== Sys2Proof/Machine/Chain.lean ====
section
/-! DEFINITION. The arithmetic of the filter chain: rates, latency, alignment, settle targets, notch delays and the
CIC decimator (R89 to R114). -/
namespace Sys2Proof.Machine

/-- F_fir in S/s (R91). -/
def firRate (freq : Nat) : Nat := min (4 * freq) 160000

/-- Median length M (R106, R116): 01 is seven-point, every other code five-point. -/
def medianOf (cfg : Word) (x : Sys) : Nat := if fld cfg (8 * x.idx) 2 = 1 then 7 else 5

/-- DELAY in units of 100 ns. -/
def delayOf (delay : Word) (x : Sys) : Nat := fld delay (16 * x.idx) 12

/-- ALIGN = 1 is MANUAL. -/
def manualAlign (cfg : Word) : Bool := bit cfg 16

/-- DC group delay of a bank code in quarter taps: 31.5 and 6.0 taps for the ROM banks (R92), as stored for a slot. -/
def gdOf (d : Die) (code : Byte) : Nat :=
  if code = 0x80 then 126 else if code = 0x81 then 24 else (tget d.slots (Fin.ofNat 128 code.toNat)).gd.toNat

/-- A time in ps as numerator and denominator. -/
abbrev Ratio := Nat × Nat

/-- Lchain (R108), over 4 × F_fir. -/
def lchain (f gdq m : Nat) : Ratio := (937500 * (4 * f) + (gdq + 18 + 2 * (m - 1)) * 10 ^ 12, 4 * f)

/-- L = Lchain + DELAY. -/
def latency (lc : Ratio) (delay : Nat) : Ratio := (lc.1 + delay * 100000 * lc.2, lc.2)

/-- Round a time to units of 100 ns, an exact half upwards. -/
def round100 (r : Ratio) : Nat := (2 * r.1 + r.2 * 100000) / (2 * (r.2 * 100000))

/-- The absolute difference of two times. -/
def ratioDiff (a b : Ratio) : Ratio := (max (a.1 * b.2) (b.1 * a.2) - min (a.1 * b.2) (b.1 * a.2), a.2 * b.2)

/-- a < b. -/
def ratioLt (a b : Ratio) : Bool := decide (a.1 * b.2 < b.1 * a.2)

/-- 200.0 us, the alignment limit of R109. -/
def alignLimit : Ratio := (200000000, 1)

/-- TARGET of R111, with EXTRA. -/
def settleTarget (f m delay extra : Nat) : Nat :=
  let num := 2000000 * f + (71 + m) * 10 ^ 12 + delay * 100000 * f
  let den := 10000000 * f
  (num + den - 1) / den + extra

/-- The length of the input span of a track sample, less DELAY: 2.0 us + (71 + M) × T, in ps rounded up (R111). -/
def spanLen (f m : Nat) : Nat := 2000000 + ((71 + m) * 10 ^ 12 + f - 1) / f

/-- DC delay of a notch section in 10^-6 of 100 ns (R102), with π taken to 15 decimals. -/
def notchDelay (w : Word) (freq : Nat) : Nat :=
  let width := fld w 20 10
  let f := fld w 0 20
  if fld w 30 2 = 1 then
    if f = 0 then 0 else width * 10 ^ 29 / (2 * 3141592653589793 * (f * f))
  else if fld w 30 2 = 2 then
    let d := max f (10 * freq) - min f (10 * freq)
    if d = 0 then 0 else width * 10 ^ 29 / (4 * 3141592653589793 * (d * d))
  else 0

/-- Sum of the DC delays of a slice's four sections in 10^-6 of 100 ns. -/
def notchSum (v : Vector Word 4) (freq : Nat) : Nat := (v.toList.map (fun w => notchDelay w freq)).foldl (· + ·) 0

/-- A notch section within its ranges (R102). MODE 11 is treated as 00. -/
def notchInRange (w : Word) (freq : Nat) : Bool :=
  let width := fld w 20 10
  let f := fld w 0 20
  let okW := decide (10 ≤ width ∧ width ≤ 500)
  if fld w 30 2 = 1 then okW && decide (100 ≤ f ∧ f ≤ 15000)
  else if fld w 30 2 = 2 then
    let d := max f (10 * freq) - min f (10 * freq)
    okW && decide (100 ≤ d ∧ d ≤ 15000)
  else true

/-- The four sections of a slice may be loaded: ranges, and at most 2.0 ms of DC delay (R102). -/
def notchesOk (v : Vector Word 4) (freq : Nat) : Bool :=
  v.toList.all (fun w => notchInRange w freq) && decide (notchSum v freq ≤ 20000 * 10 ^ 6)

/-- The presets of R104: four sections of MODE 01. -/
def notchPreset (n : Nat) : Vector Word 4 :=
  let sec (w f : Nat) : Word := put 30 2 1 ||| put 20 10 w ||| put 0 20 f
  match n with
  | 0 => ⟨#[sec 20 500, sec 20 1000, sec 20 1500, sec 20 2500], rfl⟩
  | 1 => ⟨#[sec 20 167, sec 20 333, sec 20 500, sec 20 833], rfl⟩
  | 2 => ⟨#[sec 50 3000, sec 50 6000, sec 50 9000, sec 50 12000], rfl⟩
  | _ => ⟨#[sec 20 167, sec 20 333, sec 20 500, sec 20 1000], rfl⟩

/-- Rate class of F_fir (R92). -/
def rateClass (f : Nat) : Nat := min 7 ((f - 80000) / 10000)

/-- One modulator bit through the CIC decimator: wrapping 24-bit integrators, and combs at every 16th bit (R89). -/
def cicBit (c : Cic) (b : Bool) : Cic :=
  let i1 := c.int1 + (if b then 1 else -1)
  let i2 := c.int2 + i1
  let i3 := c.int3 + i2
  if c.cnt = 15 then
    let y1 := i3 - c.dly1
    let y2 := y1 - c.dly2
    { int1 := i1, int2 := i2, int3 := i3, dly1 := i3, dly2 := y1, dly3 := y2, out := y2 - c.dly3, cnt := 0 }
  else { c with int1 := i1, int2 := i2, int3 := i3, cnt := c.cnt + 1 }

/-- The resampler's position one track tick later (R107). -/
def rsmpStep (f j rem : Nat) : Nat × Nat := (j + (rem + f) / 100000, (rem + f) % 100000)

/-- MAG of a resampler sum (R107). -/
def clampMag (y : Int) : Nat := (max 0 (min y 0xFFFFF)).toNat

/-- A span of input touches an interval. -/
def touches (lo hi : Nat) (i : Nat × Nat) : Bool := decide (i.1 ≤ hi ∧ lo ≤ i.2)

/-! ### The slices of a head -/

def State.freqOf (s : State) (h : HeadId) (x : Sys) : Nat := ((s.head h).xs.slice.get x).freq
def State.firOf (s : State) (h : HeadId) (x : Sys) : Nat := firRate (s.freqOf h x)

/-- Lchain of a slice with its active bank. -/
def lchainOf (s : State) (h : HeadId) (x : Sys) : Ratio :=
  let f := (s.head h).flt
  lchain (s.firOf h x) (gdOf (s.die (dieOf h)) (f.slice.get x).act) (medianOf f.cfg x)

def latencyOf (s : State) (h : HeadId) (x : Sys) : Ratio :=
  latency (lchainOf s h x) (delayOf (s.head h).flt.delay x)

/-- FLT_LATn.TOTAL. -/
def latTotal (s : State) (h : HeadId) (x : Sys) : Nat := round100 (latencyOf s h x)

/-- FLT_LATn.NOTCH: the sum, truncated to 100 ns. -/
def latNotch (s : State) (h : HeadId) (x : Sys) : Nat :=
  notchSum ((s.head h).flt.notch.get x) (s.freqOf h x) / 10 ^ 6

/-- HOLD_h in us, rounded up (R134, R142). -/
def holdUs (s : State) (h : HeadId) : Nat :=
  let l := max (latTotal s h .sys1 + latNotch s h .sys1) (latTotal s h .sys2 + latNotch s h .sys2)
  (l + 2000 + 9) / 10

/-- HOLD_h in ps. -/
def holdOf (s : State) (h : HeadId) : Nat := us (holdUs s h)

/-- TARGET of a slice: live delay and rate, EXTRA as taken at the settle start (R110). -/
def targetOf (s : State) (h : HeadId) (x : Sys) : Nat :=
  let f := (s.head h).flt
  settleTarget (s.firOf h x) (medianOf f.cfg x) (delayOf f.delay x) (f.slice.get x).extra

/-- SETTLEDn: COUNT has reached TARGET, and nothing holds the counter. -/
def settled (s : State) (h : HeadId) (x : Sys) : Bool :=
  let f := (s.head h).flt.slice.get x
  !f.settleHeld && decide (targetOf s h x ≤ f.settleCount)

/-- The crossing of ON between two samples with depths d0 and d1, the later at tick instant `tk` (ps), less the
latency; in 100 ns, ties up (R149). -/
def crossing (tk : Nat) (lat : Ratio) (on d0 d1 : Nat) : Int :=
  let a := max on d0 - min on d0
  let b := max d1 d0 - min d1 d0
  let den : Int := ((b * lat.2 : Nat) : Int)
  let num : Int := ((tk : Int) - 10000000) * den + ((a * 10000000 * lat.2 : Nat) : Int) - ((lat.1 * b : Nat) : Int)
  (2 * num + den * 100000) / (2 * (den * 100000))

/-- Tk less the latency in 100 ns, ties up (R159). -/
def tickStamp (tk : Nat) (lat : Ratio) : Int :=
  let den : Int := (lat.2 : Int)
  let num : Int := (tk : Int) * den - (lat.1 : Int)
  (2 * num + den * 100000) / (2 * (den * 100000))

end Sys2Proof.Machine
end

