-- ==== Sys2Proof/Machine/Dsp.lean ====
section
/-! DEFINITION. The carrier synthesiser (R67, R68) and the stages of a slice from the CIC decimator to the resampler
(R86 to R107). Instants of modulator bits are counted in 1/24 ps, as SCLK and XCLK run at 24 and 96 MHz. -/
namespace Sys2Proof.Machine

/-! ### The synthesiser (R67, R68) -/

/-- The accumulator's modulus M. -/
def synModulus : Nat := 96000000 * 65536

/-- The accumulator at an XCLK tick. -/
def Synth.at (y : Synth) (n : Int) : Nat := (((y.acc : Int) + (y.inc : Int) * (n - (y.tick : Int))) % (synModulus : Int)).toNat

/-- ph16 at an XCLK tick. -/
def Synth.ph16 (y : Synth) (n : Int) : BitVec 16 := BitVec.ofNat 16 (y.at n / 96000000 + y.phase)

/-- The increment FREQ × 65,536 + TRIM. -/
def synInc (freq : Nat) (trim : Int) : Nat := ((freq : Int) * 65536 + trim).toNat

/-- XCLK ticks since the core die left reset (R68). -/
def xclkTicks (s : State) : Nat := (s.now - s.resetAt) * 96 / 1000000

/-- The slice's FREQ, TRIM, PHASE or regulator has changed at an XCLK tick: the accumulator goes on from where it stands, with
the increment and phase now in force. PHASE is ignored in LISTEN (R81). -/
def XsSlice.anchor (n : Nat) (v : XsSlice) : XsSlice :=
  { v with synOld := if v.syn.tick = n then v.synOld else v.syn
           syn := { acc := v.syn.at n, tick := n, inc := synInc v.freq v.trim
                    phase := if v.reg = .listen then 0 else v.phase } }

/-- The accumulator loaded at a make (R68). -/
def XsSlice.load (n : Nat) (v : XsSlice) : XsSlice :=
  { v with synOld := v.syn
           syn := { acc := v.freq * (n % 96000000) % 96000000 * 65536, tick := n, inc := synInc v.freq v.trim
                    phase := if v.reg = .listen then 0 else v.phase } }

/-- A slice in LISTEN starts to drive: PHASE counts again and the carrier's phase stays as it is (R250). -/
def XsSlice.pickUpPhase (n : Nat) (v : XsSlice) : XsSlice :=
  let acc := (v.syn.at n + (65536 - v.phase % 65536) * 96000000) % synModulus
  { v with synOld := if v.syn.tick = n then v.synOld else v.syn
           syn := { acc := acc, tick := n, inc := synInc v.freq v.trim, phase := v.phase } }

/-- ph16 of a slice at an XCLK tick, before or after the last change of its synthesiser. -/
def XsSlice.phaseAt (v : XsSlice) (n : Int) : BitVec 16 :=
  if n < (v.syn.tick : Int) then v.synOld.ph16 n else v.syn.ph16 n

/-! ### What a slice's stages work with -/

/-- The parameters of a slice's stages at a track tick: F_fir, FREQ, M, DELAY in ps, the settle start, the synthesiser with
the core die's reset, the coefficients of ACT and of the bank fading in with the fade's length, the notch words, and the
spans of the gaps that are bridged or run. -/
structure DspIn where
  fir     : Nat
  freq    : Nat
  m       : Nat
  delay   : Nat
  settle  : Nat
  resetAt : Nat
  tm      : Nat
  xs      : XsSlice
  act     : List (BitVec 20)
  next    : List (BitVec 20)
  fade    : Option Nat
  notch   : List Word
  gaps    : List (Nat × Nat)

/-- Coefficients h0 to h63 of a bank code at F_fir (R92). -/
def bankCoefs (d : Die) (code : Byte) (fir : Nat) : List (BitVec 20) :=
  if code = 0x80 then (List.range 64).map (Config.romCoef false (rateClass fir))
  else if code = 0x81 then (List.range 64).map (Config.romCoef true (rateClass fir))
  else (tget d.slots (Fin.ofNat 128 code.toNat)).coef

/-! ### The FIR decimator (R91, R92, R98) -/

/-- Σ h[k] × a[k] over I and Q; an average that is not there counts 0. -/
def firDot : List (BitVec 20) → List (Int × Int) → Int × Int
  | c :: cs, a :: as =>
    let r := firDot cs as
    (c.toInt * a.1 + r.1, c.toInt * a.2 + r.2)
  | _, _ => (0, 0)

/-- The FIR output: the active bank's, or while a fade runs (1 − w) × ACT + w × target with w = n / FADE. -/
def firOutput (p : DspIn) (n : Nat) (avg : List (Int × Int)) : Int × Int :=
  let a := firDot p.act avg
  match p.fade with
  | none => (Config.quotient 1 a.1 (2 ^ 19), Config.quotient 1 a.2 (2 ^ 19))
  | some len =>
    let b := firDot p.next avg
    let w : Int := (min n len : Nat)
    let mix (u v : Int) : Int := Config.quotient 1 (((len : Int) - w) * u + w * v) ((len : Int) * 2 ^ 19)
    (mix a.1 b.1, mix a.2 b.2)

/-! ### Notches and magnitude (R102, R105) -/

/-- A section that filters: MODE 01 or 10. -/
def notchOn (w : Word) : Bool := fld w 30 2 == 1 || fld w 30 2 == 2

/-- The sections' states for a constant input `u`, each section fed by the one before. -/
def notchLoad (p : DspIn) : List Word → Int × Int → List (List Int)
  | [], _ => []
  | w :: ws, u =>
    if notchOn w then
      let st := Config.notchSteady w p.freq p.fir u
      st :: notchLoad p ws (Config.notch w p.freq p.fir st u).2
    else [] :: notchLoad p ws u

/-- One output through the sections: their new states, and what leaves the last one. -/
def notchRun (p : DspIn) : List Word → List (List Int) → Int × Int → List (List Int) × (Int × Int)
  | w :: ws, st :: sts, u =>
    if notchOn w then
      let r := Config.notch w p.freq p.fir st u
      let t := notchRun p ws sts r.2
      (r.1 :: t.1, t.2)
    else
      let t := notchRun p ws sts u
      (st :: t.1, t.2)
  | _, _, u => ([], u)

/-- The span of an FIR output, 64 averages and the CIC's 2.0 us, lies wholly after the settle start. -/
def spanSettled (p : DspIn) (e24 : Int) : Bool :=
  decide (64 * 24 * 10 ^ 12 ≤ (e24 - 24 * (p.settle : Int) - 48000000) * (p.fir : Int))

/-- The notch stage: bypassed from the settle start to the first FIR output that lies wholly after it, whose steady state it
takes. -/
def notchStage (p : DspIn) (e24 : Int) (st : Option (List (List Int))) (u : Int × Int) :
    Option (List (List Int)) × (Int × Int) :=
  match st with
  | some sts => (some (notchRun p p.notch sts u).1, (notchRun p p.notch sts u).2)
  | none =>
    if spanSettled p e24 then
      let sts := notchLoad p p.notch u
      (some (notchRun p p.notch sts u).1, (notchRun p p.notch sts u).2)
    else (none, u)

/-! ### The median (R106) -/

/-- The element of a list that has at most `k` elements below it and more than `k` not above it. -/
def rankOf (k : Nat) (l : List Nat) : Nat :=
  (l.find? (fun a => decide ((l.filter (fun b => decide (b < a))).length ≤ k ∧
    k < (l.filter (fun b => decide (b ≤ a))).length))).getD 0

/-- The median of the newest M magnitudes; one that is not there counts 0. -/
def medianStage (m : Nat) (mags : List Nat) : Nat :=
  rankOf ((m - 1) / 2) ((mags ++ List.replicate m 0).take m)

/-! ### The resampler (R107) -/

/-- H[n]. -/
def kernelAt (n : Nat) : Int := if n = 0 ∨ 512 ≤ n then 0 else Config.kernel n

/-- Median output k; one that is not held counts 0. -/
def Dsp.x (d : Dsp) (k : Int) : Nat :=
  let i := (d.medNo : Int) - 1 - k
  if i < 0 then 0 else (d.med[i.toNat]?).getD 0

/-- The sum y at a position j, rem. -/
def resample (d : Dsp) (j : Int) (rem : Nat) : Int :=
  let p := rem * 64 / 100000
  let alpha : Int := (rem * 64 % 100000 * 65536 / 100000 : Nat)
  (List.range 8).foldl (fun y i =>
    let n := 64 * (7 - i) + p
    y + Config.quotient 2 (kernelAt n * (65536 - alpha) + kernelAt (n + 1) * alpha) 65536 *
      ((d.x (j - 3 + (i : Nat)) : Nat) : Int)) 0

/-- j and rem at tick Tm from the first output after the settle start, emitted at instant `e24` with accumulator `dacc` left
over (R107, R108): τ = Tm − L, where an output leaves Lchain − 4 × T after the instant it stands for. -/
def rsmpSet (p : DspIn) (e24 : Int) (dacc : Nat) : Int × Nat :=
  let span : Int := 24 * ((p.tm : Int) - (p.delay : Int)) - e24
  let u := (span * (p.fir : Int) - 96 * 10 ^ 12 + 16000000 * (dacc : Int)) / 240000000
  (u / 100000, (u % 100000).toNat)

/-! ### The stages at a CIC output -/

/-- One FIR output with what follows it up to the median. -/
def emitFir (p : DspIn) (e24 : Int) (dacc : Nat) (d : Dsp) : Dsp :=
  let n : Int := (d.sumN : Int)
  let avg := ((Config.quotient 0 d.sum.1 n, Config.quotient 0 d.sum.2 n) :: d.avg).take 64
  let fir := firOutput p d.fadeN avg
  let nt := notchStage p e24 d.notch fir
  let mags := (Config.magnitude nt.2.1 nt.2.2 :: d.mags).take 7
  let after := decide (24 * (p.settle : Int) < e24)
  { d with sum := (0, 0), sumN := 0, avg := avg, fir := fir, fadeN := if p.fade.isSome then d.fadeN + 1 else 0
           notch := nt.1, mags := mags, med := (medianStage p.m mags :: d.med).take 64
           medNo := if after then d.medNo + 1 else d.medNo
           rsmp := if d.rsmp.isNone && after then some (rsmpSet p e24 dacc) else d.rsmp }

/-- A CIC output `c` that ends at `e24`: demodulated by the carrier at the centre of its span, 1.0 us before its end; where
the span touches a gap, I and Q of the last output before the gap stand in (R90, R114); and the decimation accumulator
(R91). -/
def cicOutput (p : DspIn) (e24 : Int) (c : Int) (dacc : Nat) (d : Dsp) : Nat × Dsp :=
  let ph := p.xs.phaseAt ((e24 - 24 * (p.resetAt : Int) - 24000000) * 4 / 1000000)
  let iq : Int × Int := (c * Config.cosine ph, -(c * Config.sine ph))
  let e := (e24 / 24).toNat
  let gap := p.gaps.any (touches (e - us 2) e)
  let use_ := if gap then d.held else iq
  let d := { d with iq := iq, held := use_, sum := (d.sum.1 + use_.1, d.sum.2 + use_.2), sumN := d.sumN + 1 }
  if 1500000 ≤ dacc + p.fir then (dacc + p.fir - 1500000, emitFir p e24 (dacc + p.fir - 1500000) d)
  else (dacc + p.fir, d)

/-- Modulator bits, oldest first, the first of them at `t24`, through the stages. -/
def runBits (p : DspIn) : List Bool → Int → Cic → Nat → Dsp → Cic × Nat × Dsp
  | [], _, c, dacc, d => (c, dacc, d)
  | b :: bs, t24, c, dacc, d =>
    let c' := cicBit c b
    if c.cnt = 15 then
      let r := cicOutput p t24 c'.out.toInt dacc d
      runBits p bs (t24 + 1000000) c' r.1 r.2
    else runBits p bs (t24 + 1000000) c' dacc d

/-- The stages of a slice over the bits that end at tick Tm. -/
def runChain (p : DspIn) (bits : List Bool) (c : Cic) (dacc : Nat) (d : Dsp) : Cic × Nat × Dsp :=
  runBits p bits (24 * (p.tm : Int) - 1000000 * (((bits.length : Nat) : Int) - 1)) c dacc d

/-- The resampler at a tick: one step on from where it stood before; a position set since the tick before is that of this
tick. -/
def rsmpTick (fir : Nat) (old : Option (Int × Nat)) (d : Dsp) : Dsp :=
  match old with
  | some q => { d with rsmp := some (q.1 + ((rsmpStep fir 0 q.2).1 : Int), (rsmpStep fir 0 q.2).2) }
  | none => d

/-- MAG, where the resampler's position is set. -/
def Dsp.mag? (d : Dsp) : Option Nat := d.rsmp.map (fun q => clampMag (resample d q.1 q.2))

/-- A settle start: notches bypassed, and j and rem to be set from the first output after it (R105, R107). -/
def Dsp.settleStart (d : Dsp) : Dsp := { d with notch := none, medNo := 0, rsmp := none }

end Sys2Proof.Machine
end

