-- ==== Sys2Proof/Machine/HeadOps.lean ====
section
/-! DEFINITION. What every head family shares: use of slices (R50), trip lines and latches (R124, R132), settle counters
(R111, R112), items and notices to sections (R172, R183), issue and abort of passages (R155 to R163), the wiring fault of
R63, the expected-trip window (R47), and the regulator's common transitions (R72). -/
namespace Sys2Proof.Machine

/-! ### Heads and slices -/

/-- Heads 0 and 1 of each die are flex heads. -/
def isFlex (h : HeadId) : Bool := decide (h.val % 32 < 2)

/-- A TYPE that a head uses: 01 or 10 (R37). -/
def typeUsed (t : BitVec 2) : Bool := t == 1 || t == 2

/-- Function of a crosspoint pin; 111 is treated as NONE (R49). -/
def xpFunc (b : Byte) : Nat := if b.toNat % 8 = 7 then 0 else b.toNat % 8
def xpSlice (b : Byte) : Nat := b.toNat / 16 % 4

/-- A pin names a slice where its function takes one: EXC, ESNS, RXP, RXN (R49). -/
def pinNames (x : Sys) (b : Byte) : Bool :=
  decide (1 ≤ xpFunc b ∧ xpFunc b ≤ 4) && decide (xpSlice b = x.idx + 1)

/-- The slice is in use under a TYPE and map (R50). -/
def usesSlice (flex : Bool) (r : RouteCfg) (x : Sys) : Bool :=
  typeUsed r.type && (!flex || r.xp.toList.any (pinNames x))

def inUse (s : State) (h : HeadId) (x : Sys) : Bool := usesSlice (isFlex h) (s.head h).fe.route.cur x

/-- Slices of a head in use, SYS1 first. -/
def usedSlices (s : State) (h : HeadId) : List Sys := [Sys.sys1, Sys.sys2].filter (inUse s h)

/-- The head is in RUN: made into RUN and no route request admitted since. -/
def inRun (s : State) (h : HeadId) : Bool :=
  let r := (s.head h).fe.route
  r.cur.mode == 1 && r.phase != .ramp

def routeBusy (s : State) (h : HeadId) : Bool := (s.head h).fe.route.phase != .steady
def chgBusy (s : State) (h : HeadId) : Bool := (s.head h).xs.chg.isSome

/-- The field die's domain is on and out of reset. -/
def dieUp (s : State) (d : DieId) : Bool := !s.pwr.inReset.getLsbD d.val
def headUp (s : State) (h : HeadId) : Bool := dieUp s (dieOf h)

/-- The device drives its heads: claim won, role input 10, not deposed (R230). -/
def drives (s : State) : Bool := s.zl.claim == .won && s.zl.roleIn == 2 && !s.zl.deposed

/-- A state of the regulator in which the slice's output stage is enabled (R72). -/
def RegState.drives (r : RegState) : Bool := r != .off && r != .listen

/-- The output stage of a slice is sensed enabled: driven, or kept so by a fault; one on a die that is off is
high-impedance (R230, R231). -/
def stageOn (s : State) (h : HeadId) (x : Sys) : Bool :=
  headUp s h && ((drives s && ((s.head h).xs.slice.get x).reg.drives) || s.zl.stuck.contains (h, x))

/-- The transit logic is idle (R155). -/
def trnIdle (s : State) (h : HeadId) : Bool :=
  let t := (s.head h).trn
  (t.st == .idle || t.st == .wait) && t.held.isEmpty

/-- A brake field is recognised on the head (R125). -/
def brakeOn (s : State) (h : HeadId) : Bool := (s.head h).cmp.brakeSince.isSome

/-- A presence comparator of the head is asserted. -/
def anyPresence (s : State) (h : HeadId) : Bool :=
  (s.head h).cmp.slice.one.asserted && inUse s h .sys1 || (s.head h).cmp.slice.two.asserted && inUse s h .sys2

/-- An episode ends when the presence comparators of the slices in use are released. -/
def endEpisode (h : HeadId) (s : State) : State :=
  match (s.head h).cmp.episode with
  | some t0 =>
    if anyPresence s h then s
    else s.modCmp h (fun c => { c with episode := none, judge := c.judge ++ [(t0, s.now)] })
  | none => s

/-- Less than 5 ms since the head's last transit ended. -/
def recentTransit (s : State) (h : HeadId) : Bool :=
  match (s.head h).trn.lastEnd with
  | none => false
  | some e => decide (s.now < e + ms 5)

/-- A hold condition of R72. -/
def holdCond (s : State) (h : HeadId) : Bool := anyPresence s h || !trnIdle s h || recentTransit s h || brakeOn s h

/-! ### Bindings and section items (R169, R172, R183, R245) -/

def boundTo (h : HeadId) (x : Section) : Bool := x.bind.toList.any (fun w => bit w 15 && fld w 0 8 == h.val)

/-- Every section bound to the head. -/
def boundSecs (s : State) (h : HeadId) : List SecId := (allFin 256).filter (fun n => boundTo h (s.sec n))

/-- A section bound to the head and in service is CLEAR or RESTORING (R43). -/
def clearBound (s : State) (h : HeadId) : Bool :=
  (boundSecs s h).any (fun n =>
    let c := (s.sec n).core
    c.service && (c.state == .clear || c.state == .restoring))

/-- Internal time in 100 ns, ties up. -/
def stampOf (at_ : Nat) : Int := (rdiv at_ 100000 : Nat)

/-- The code of R182 that an item's local fail stores (R245). -/
def failCode : ItemKind → Option Nat
  | .transit _ _ => none
  | .reject => some 3
  | .notice r => some r

/-- An item addressed to a section (R172). Out of service it is discarded (R186); a full queue discards it and marks the
overflow. At a device whose role in force is not 10, a reject or a notice is a local fail as well (R245). -/
def pushItem (it : Item) (n : SecId) (s : State) : State :=
  let x := s.sec n
  if !x.core.service then s
  else
    let s :=
      match failCode it.kind with
      | some r => if s.zl.role = 2 then s
                  else flagZl 7 (s.modSec n (fun x => { x with localFail := some { reason := r, epoch := s.epc.seq } }))
      | none => s
    if 64 ≤ x.intake.length + x.queue.length then flagSec n 9 (s.modSec n (fun x => { x with overflow := true }))
    else s.modSec n (fun x => { x with queue := x.queue ++ [it] })

/-- Activity at a bound head restarts the quiet time (R190). -/
def activity (h : HeadId) (s : State) : State :=
  foldOver (boundSecs s h) (fun n s => s.modSec n (fun x => { x with quietEl := 0 })) s

/-- A notice with a reason code of R182 to every section bound to the head (R183). -/
def headNotice (h : HeadId) (reason : Nat) (s : State) : State :=
  let it : Item := { kind := .notice reason, head := h, seq := 0, stamp := stampOf s.now, at_ := s.now }
  foldOver (boundSecs s h) (pushItem it) (activity h s)

/-- Head fault notice: reason HEAD. -/
def faultNotice (h : HeadId) (s : State) : State := headNotice h 6 s

/-- R45: the change notice, reason ROUTE. -/
def changeNotice (h : HeadId) (s : State) : State := headNotice h 7 s

/-! ### Trip lines and latches (R124, R132) -/

def regDrives (r : RegState) : Bool := r != .off && r != .rampDown

/-- The slice's trip line is released. -/
def lineReleased (s : State) (h : HeadId) (x : Sys) : Bool :=
  let c := (s.head h).cmp.slice.get x
  headUp s h && inUse s h x && regDrives ((s.head h).xs.slice.get x).reg &&
    !c.asserted && !c.lowOut && !c.highOut && !c.forced && !c.testHold && !c.railHold

/-- A section's trip latch is set at an instant (R132). -/
def Section.trip (now : Nat) (x : Section) : Section :=
  if x.latch then x else { x with latch := true, latchLog := now :: x.latchLog }

/-- A line in use that is tripped sets the trip latch of every bound section. -/
def setLatches (h : HeadId) (s : State) : State :=
  foldOver (boundSecs s h) (fun n s => s.modSec n (Section.trip s.now)) s

/-- Follow the lines of a head through a change: a release is stamped for R134, a tripped line sets the latches. -/
def withLines (h : HeadId) (f : State → State) (s : State) : State :=
  let s' := f s
  let note (x : Sys) (t : State) : State :=
    if !lineReleased s h x && lineReleased s' h x then
      t.modCmpSlice h x (fun c => { c with releasedAt := s'.now })
    else t
  let t := note .sys2 (note .sys1 s')
  if (usedSlices s' h).all (lineReleased s' h) then t else setLatches h t

/-! ### The synthesiser and the listening loop of a slice (R67, R81) -/

/-- The slice's synthesiser goes on with what is in force now. -/
def anchorSlice (h : HeadId) (x : Sys) (s : State) : State :=
  s.modXsSlice h x (XsSlice.anchor (xclkTicks s))

/-- LOCKED clears, for whatever reason; where it was set, LOCK_LOST is set (R81). -/
def loseLock (h : HeadId) (x : Sys) (s : State) : State :=
  let was := ((s.head h).xs.slice.get x).locked
  let s := s.modXsSlice h x (fun v => { v with locked := false, lockRun := 0 })
  if was then flagHead .xs h (sliceFlag 4 x) s else s

/-! ### Settle counters (R111, R112) -/

/-- What holds a slice's counter at zero. -/
def settleHold (s : State) (h : HeadId) (x : Sys) : Bool :=
  let hd := s.head h
  hd.fe.route.phase != .steady ||
    (match hd.xs.chg with
     | some c => c.mask.get x
     | none => false) ||
    hd.xs.thermHeld || (hd.flt.slice.get x).healthMark.isSome || hd.flt.alignErr ||
    (match (hd.flt.slice.get x).gap with
     | some g => g.unbridged && g.stop.isNone
     | none => false) || !inUse s h x

/-- Hold a counter at zero. -/
def holdSettle (h : HeadId) (x : Sys) (s : State) : State :=
  s.modFltSlice h x (fun f => { f with settleHeld := true, settleCount := 0 })

/-- Restart a counter from zero at the present instant, unless something holds it; EXTRA is taken here (R110), the notch
sections are bypassed and the resampler's position is to be set anew (R105, R107). -/
def restartSettle (h : HeadId) (x : Sys) (s : State) : State :=
  if settleHold s h x then holdSettle h x s
  else
    s.modFltSlice h x (fun f =>
      { f with settleHeld := false, settleCount := 0, settleStart := s.now, extra := fld (s.head h).flt.cfg 24 8,
               dsp := f.dsp.settleStart })

/-- Let a held counter start where nothing holds it any more. -/
def releaseSettle (h : HeadId) (x : Sys) (s : State) : State :=
  if ((s.head h).flt.slice.get x).settleHeld then restartSettle h x s else s

def onBoth (f : Sys → State → State) (s : State) : State := f .sys2 (f .sys1 s)

/-! ### Records that wait for the quiet window (R163, R201) -/

/-- Count a dropped record and set the flag of its head or section (R163, R194). -/
def countDrop (r : StreamRec) (s : State) : State :=
  let k : Fin 4 := Fin.ofNat 4 (r.orbit.val % 4)
  let s := { s with dev := { s.dev with drop := tmod s.dev.drop k (fun v => satNat 32 (v + 1)) } }
  let s := match r.head with
    | some h => flagTrn h 5 s
    | none => s
  match r.sec with
  | some n => flagSec n 10 s
  | none => s

/-- Offer a transit or section record. -/
def offerRec (r : StreamRec) (s : State) : State :=
  let p := offer r.orbit r.bytes s
  if p.2 then p.1 else countDrop r p.1

/-- In the quiet window a record is offered at once; otherwise it waits for the window. -/
def queueRec (r : StreamRec) (s : State) : State :=
  if s.epc.quiet then offerRec r s else { s with epc := { s.epc with recs := s.epc.recs ++ [r] } }

/-! ### Issue of passages (R156 to R163) -/

/-- A passage as issued. `stamp` is on internal time in 100 ns, `ended` the instant at which it ended or was aborted. -/
structure Issued where
  outcome : Nat
  reason  : Nat
  rev     : Bool
  speedOk : Bool
  brake   : Bool
  rocked  : Bool
  bridged : Bool
  noref   : Bool
  sigOk   : Bool
  abort   : Bool
  stamp   : Int
  ended   : Nat
  speed   : Nat
  acc     : Nat
  dt      : Nat
  dur     : Nat
  sig     : List Byte
  peak1   : Nat
  peak2   : Nat
  len1    : Nat
  len2    : Nat
  revs    : Nat
deriving DecidableEq, Repr

/-- FLAGS of the transit record (R162). -/
def Issued.flags (i : Issued) : Nat :=
  b2n i.rev + 2 * b2n i.speedOk + 4 * b2n i.brake + 8 * b2n i.rocked + 16 * b2n i.bridged + 32 * b2n i.noref +
    64 * b2n i.sigOk + 128 * b2n i.abort

/-- Bytes 0 to 3 of a stamp's place in ps. -/
def stampPs (stamp : Int) : Nat := stamp.toNat * 100000

/-- The transit record (R162). -/
def transitBytes (s : State) (h : HeadId) (seq : Nat) (i : Issued) : List Byte :=
  le 1 1 ++ le 1 i.outcome ++ le 1 i.reason ++ le 1 i.flags ++ le 2 h.val ++ le 2 seq ++ le 6 s.epc.seq ++
    le 2 (latchAt s (stampPs i.stamp)).gen.toNat ++ le 8 (tbTimeAt s (stampPs i.stamp)) ++ le 2 i.speed ++ le 2 i.acc ++
    le 4 i.dt ++ le 4 i.dur ++ slice i.sig 0 16 ++ le 1 i.peak1 ++ le 1 i.peak2 ++ le 1 (min 255 (i.len1 / 2)) ++
    le 1 (min 255 (i.len2 / 2)) ++ le 1 i.revs ++ zeros 7

/-- SURVEY data of the head subject (R315): speeds, outcomes, peaks. -/
def surveyPassage (h : HeadId) (i : Issued) (s : State) : State :=
  if fld s.rcd.cfg 0 2 = 2 && bit s.rcd.cfg 3 && fld s.rcd.cfg 8 8 == h.val then
    let v := s.rcd.survey
    let v :=
      if i.outcome = 0 then
        let b := Fin.ofNat 16 (min 15 (max i.peak1 i.peak2 / 16))
        { v with a := satNat 16 (v.a + 1), bins := tmod v.bins b (fun n => satNat 32 (n + 1)),
                 lo := min v.lo i.speed, hi := max v.hi i.speed }
      else if i.outcome = 2 then { v with b := satNat 16 (v.b + 1) } else v
    { s with rcd := { s.rcd with survey := v } }
  else s

/-- The registers, counters and flags of the head at an issue (R162, R167, R168). -/
def countPassage (h : HeadId) (seq : Nat) (i : Issued) (s : State) : State :=
  let s := s.modTrn h (fun t =>
    { t with
      seq := seq
      last := put 16 16 i.speed ||| put 12 4 i.reason ||| put 10 2 i.outcome ||| put 9 1 (b2n i.rev) ||| put 0 8 seq
      cntFwd := if i.outcome = 0 ∧ i.rev = false then (t.cntFwd + 1) % 2 ^ 32 else t.cntFwd
      cntRev := if i.outcome = 0 ∧ i.rev = true then (t.cntRev + 1) % 2 ^ 32 else t.cntRev
      cntInc := if i.outcome = 1 then (t.cntInc + 1) % 65536 else t.cntInc
      cntRej := if i.outcome = 2 then (t.cntRej + 1) % 65536 else t.cntRej
      lastStamp := some i.stamp
      lastAcc := if i.outcome = 0 then some { stamp := i.stamp, rev := i.rev, rocked := i.rocked } else t.lastAcc
      issuedEnds := if i.outcome = 1 then t.issuedEnds else i.ended :: t.issuedEnds })
  if i.outcome = 2 then
    let s := { s with dev := { s.dev with
      rejHead := h.val, rejReason := i.reason, rejCount := satNat 16 (s.dev.rejCount + 1) } }
    flagTrn h 0 (trig 1 h.val (put 0 8 i.reason ||| put 8 16 seq) s)
  else if i.outcome = 1 then flagTrn h 1 s
  else if i.rocked then flagTrn h 2 s
  else s

/-- Hand the outcome to the evaluators of the bound sections; every device keeps its ACCEPTED transits (R157, R247). -/
def deliverPassage (h : HeadId) (seq : Nat) (i : Issued) (s : State) : State :=
  let it (k : ItemKind) : Item := { kind := k, head := h, seq := seq, stamp := i.stamp, at_ := s.now }
  if i.outcome = 0 then
    let item := it (.transit i.rev (slice i.sig 0 16))
    let s := { s with zl := { s.zl with kept := s.zl.kept ++ [{ head := h, epoch := s.epc.seq, item := item }] } }
    foldOver (boundSecs s h) (pushItem item) s
  else if i.outcome = 2 then foldOver (boundSecs s h) (pushItem (it .reject)) s
  else s

/-- The record is offered to the stream of TRN_GEOM (R163). -/
def recordPassage (h : HeadId) (seq : Nat) (i : Issued) (s : State) : State :=
  let g := (s.head h).trn.geom
  let want := if i.outcome = 0 then bit g 18 else if i.outcome = 1 then bit g 19 else true
  if want then
    queueRec { orbit := Fin.ofNat 16 (8 + fld g 16 2), bytes := transitBytes s h seq i, head := some h, sec := none } s
  else s

/-- Issue a passage. -/
def issue (h : HeadId) (i : Issued) (s : State) : State :=
  let seq := ((s.head h).trn.seq + 1) % 65536
  let s := activity h (countPassage h seq i s)
  let s := surveyPassage h i (deliverPassage h seq i s)
  recordPassage h seq i s

/-- A slice in use lacks a valid reference (R148). -/
def noRef (s : State) (h : HeadId) : Bool :=
  (usedSlices s h).any (fun x => !bit ((s.head h).trn.baseref.get x) 31)

/-- Byte 15 of the signature (R160). -/
def sigFlags (p : Passage) (valid : Bool) (qual : Nat) : Byte :=
  BitVec.ofNat 8 (128 * b2n valid + 64 * b2n p.brake + 32 * b2n (decide (0 < p.reversals)) + 16 * b2n p.bridged + qual)

/-- The record of an aborted passage: the passage's flags with ABORT, measurement fields zero, TB time of the event
(R158, R160; assumption log 36). -/
def abortedRecord (s : State) (h : HeadId) (p : Passage) (reason : Nat) : Issued :=
  { outcome := 2, reason := reason, rev := false, speedOk := false, brake := p.brake, rocked := decide (0 < p.reversals),
    bridged := p.bridged, noref := noRef s h, sigOk := false, abort := true, stamp := stampOf s.now, ended := s.now,
    speed := 0, acc := 0, dt := 0, dur := 0, sig := zeros 15 ++ [sigFlags p false 0], peak1 := 0, peak2 := 0, len1 := 0,
    len2 := 0, revs := 0 }

/-- The states in which a passage is in progress. -/
def inPassage (st : TrnState) : Bool := st == .one || st == .both || st == .two || st == .init

/-- An aborting event of R158: the head goes to WAIT, and a passage in progress is issued as REJECTED with ABORT. -/
def abortHead (h : HeadId) (reason : Nat) (s : State) : State :=
  let t := (s.head h).trn
  let s' := s.modTrn h (fun t => { t with st := .wait, pass := none })
  match inPassage t.st, t.pass with
  | true, some p =>
    issue h (abortedRecord s h p reason)
      (s'.modTrn h (fun t => { t with lastEnd := some s.now, idleSince := s.now }))
  | _, _ => s'

/-! ### Wiring faults and the expected-trip window (R47, R63) -/

/-- R63: a health trip outside the expected-trip window. -/
def wiringFault (h : HeadId) (x : Sys) (s : State) : State :=
  let s := flagHead .fe h (sliceFlag 0 x) s
  let s := s.modFltSlice h x (fun f => { f with healthMark := some s.now })
  let s := abortHead h 1 (holdSettle h x s)
  let s := s.modFe h (fun b => { b with imp := b.imp.mod x (fun i =>
    { i with urgent := true, dueSince := some (i.dueSince.getD s.now) }) })
  faultNotice h s

/-- The health window of a slice is out of window. -/
def healthOut (s : State) (h : HeadId) (x : Sys) : Bool :=
  let c := (s.head h).cmp.slice.get x
  c.lowOut || c.highOut

/-- A slice reports settled and has left the forced state, which ends at that instant (R139). -/
def steadySlice (s : State) (h : HeadId) (x : Sys) : Bool := settled s h x && !((s.head h).cmp.slice.get x).forced

/-- The window closes once the request or change has completed and every slice in use is settled; a trip that persists
is a wiring fault from this instant (R47, R63). -/
def closeWindow (h : HeadId) (s : State) : State :=
  if (s.head h).fe.route.window && !routeBusy s h && !chgBusy s h && (usedSlices s h).all (steadySlice s h) then
    let s := s.modFe h (fun b => { b with route := { b.route with window := false } })
    foldOver (usedSlices s h) (fun x s => if healthOut s h x then wiringFault h x s else s) s
  else s

/-! ### Alignment (R109) -/

/-- Set the AUTO delays and ALIGN_ERR of a head; ALIGN_ERR going to 1 aborts (R109, R158). -/
def realign (h : HeadId) (s : State) : State :=
  let l1 := lchainOf s h .sys1
  let l2 := lchainOf s h .sys2
  let d := ratioDiff l1 l2
  let s :=
    if manualAlign (s.head h).flt.cfg then s
    else
      let v := min 2000 (round100 d)
      s.modFlt h (fun f => { f with delay := if ratioLt l1 l2 then put 0 12 v else put 16 12 v })
  let d' := if manualAlign (s.head h).flt.cfg then ratioDiff (latencyOf s h .sys1) (latencyOf s h .sys2) else d
  let err := ratioLt alignLimit d'
  let was := (s.head h).flt.alignErr
  let s := s.modFlt h (fun f => { f with alignErr := err })
  if err && !was then onBoth (holdSettle h) (abortHead h 3 (flagFlt h 8 s)) else s

/-- Start the counters of a head's slices anew, with the delays set first. -/
def restartHead (h : HeadId) (s : State) : State := onBoth (restartSettle h) (realign h s)

/-! ### Bank swaps that end (R98 to R100) -/

/-- ACT takes the targets of a swap. -/
def takeTargets (w : Swap) (f : FltHead) : FltHead :=
  let put (x : Sys) (o : Option Byte) (f : FltHead) : FltHead :=
    match o with
    | some c => { f with slice := f.slice.mod x (fun v => { v with act := c, next := 0xFF, fadeAt := none }) }
    | none => f
  put .sys2 w.two (put .sys1 w.one f)

/-- A swap completes OK: RESULT, SEQ, SWAP_DONE. -/
def swapDone (h : HeadId) (w : Swap) (s : State) : State :=
  let s := s.modFlt h (fun f => { f with result := 0, seq := (f.seq + 1) % 256 })
  completeJob w.job .ok 0 (flagFlt h 10 s)

/-- End any fade and apply any queued swap at once; both complete OK (R100). -/
def endSwaps (h : HeadId) (s : State) : State :=
  let f := (s.head h).flt
  let s := s.modFlt h (fun f => { f with
    fading := none, queue := none, slice := f.slice.both (fun v => { v with queued := 0xFF }) })
  let step (o : Option Swap) (s : State) : State :=
    match o with
    | some w => swapDone h w (s.modFlt h (takeTargets w))
    | none => s
  step f.queue (step f.fading s)

/-! ### Completion of route requests and carrier changes (R42, R79) -/

/-- The slice's regulator has reached regulation, or listens. -/
def regulated (s : State) (h : HeadId) (x : Sys) : Bool :=
  let r := ((s.head h).xs.slice.get x).reg
  r == .track || r == .hold || r == .listen

/-- A route request completes OK: RESULT, SEQ, ROUTE_DONE; the settle counters start (R42). -/
def completeRoute (h : HeadId) (s : State) : State :=
  let job := (s.head h).fe.route.job
  let s := s.modFe h (fun b => { b with
    result := 0, seq := (b.seq + 1) % 256, route := { b.route with phase := .steady, req := none, job := none } })
  let s := completeJob job .ok 0 (flagFe h 10 s)
  closeWindow h (restartHead h s)

/-- A carrier change completes OK: CHG_SEQ, CHG_DONE; the settle counters of the changed slices start, and a counter that
ALIGN_ERR held starts with its end (R79, R109, R112). -/
def completeChange (h : HeadId) (s : State) : State :=
  match (s.head h).xs.chg with
  | none => s
  | some c =>
    let s := s.modXs h (fun b => { b with chg := none, planResult := 0, chgSeq := (b.chgSeq + 1) % 256 })
    let s := completeJob c.job .ok 0 (flagXs h 7 s)
    let s := realign h s
    let s := foldOver [Sys.sys1, Sys.sys2] (fun x s => if c.mask.get x then restartSettle h x s else releaseSettle h x s) s
    closeWindow h s

/-- A slice has been regulated, timed out, or entered LISTEN: what waits for it may complete (R42, R79, R112). A change
counts the slice only after its switch point. -/
def afterRegulated (h : HeadId) (x : Sys) (s : State) : State :=
  let s := s.modXs h (fun b => { b with chg := b.chg.map (fun c =>
    if c.toSwitch.get x then c else { c with toRegulate := c.toRegulate.set x false }) })
  let s :=
    match (s.head h).xs.chg with
    | some c => if c.toSwitch.one || c.toSwitch.two || c.toRegulate.one || c.toRegulate.two then s
                else completeChange h s
    | none => s
  let all := (usedSlices s h).all (regulated s h)
  let s :=
    if (s.head h).xs.thermHeld && all && !(s.die (dieOf h)).thermOff then
      onBoth (releaseSettle h) (s.modXs h (fun b => { b with thermHeld := false }))
    else s
  if (s.head h).fe.route.phase == .make && all then completeRoute h s else s

/-- TRACK, or HOLD if a hold condition exists (R72). -/
def slowLoop (s : State) (h : HeadId) : RegState := if holdCond s h then .hold else .track

/-- The driver of a slice is withdrawn by DEPOSE_N or the role: LISTEN, or OFF on a head not in RUN (R72). -/
def withdrawSlice (h : HeadId) (x : Sys) (s : State) : State :=
  let r := ((s.head h).xs.slice.get x).reg
  if r == .rampUp || r == .acquire || r == .track || r == .hold then
    let next : RegState := if inRun s h then .listen else .off
    afterRegulated h x (anchorSlice h x ((loseLock h x s).modXsSlice h x (fun b =>
      { b with reg := next, since := s.now, drive := 0, driveLog := [], heard := [] })))
  else s

end Sys2Proof.Machine
end

