-- ==== Sys2Proof/Machine/Operands.lean ====
section
/-! DEFINITION. Every operand form: payload fields of the commands, the numbers they name, mask and range tests, byte
enables of register writes, and the ways a command is refused. -/
namespace Sys2Proof.Machine

/-- A head number of two bytes at an offset; above 255 there is none. -/
def headArg (p : List Byte) (i : Nat) : Option HeadId :=
  if h : field p i 2 < 256 then some ⟨field p i 2, h⟩ else none

/-- A section number of two bytes at an offset. -/
def secArg (p : List Byte) (i : Nat) : Option SecId :=
  if h : field p i 2 < 256 then some ⟨field p i 2, h⟩ else none

/-- A die number of one byte. -/
def dieArg (p : List Byte) (i : Nat) : Option DieId :=
  if h : field p i 1 < 8 then some ⟨field p i 1, h⟩ else none

/-- A register word of four bytes. -/
def wordArg (p : List Byte) (i : Nat) : Word := word (field p i 4)

/-- The slices of a mask byte; bits 7 to 2 name nothing. -/
def maskArg (p : List Byte) (i : Nat) : List Sys := slices (field p i 1)

/-- A value clamped to a range. -/
def clamp (lo hi v : Nat) : Nat := max lo (min hi v)

/-- A write with all four byte enables (R4). -/
def allEnables (be : BitVec 4) : Bool := be == 15

/-- Complete at admission with a chapter's result code. -/
def refuse (seq : Nat) (st : Status) (code : Nat) (s : State) : State := complete seq st code [] s

/-- Complete OK at admission. -/
def done (seq : Nat) (s : State) : State := complete seq .ok 0 [] s

/-- Continue with the head a payload names; above 255, or on a die that is off, the command completes CONFLICT with its
chapter's RANGE code (R332). -/
def withHead (p : List Byte) (i : Nat) (rangeCode seq : Nat) (f : HeadId → State → State) (s : State) : State :=
  match headArg p i with
  | none => refuse seq .conflict rangeCode s
  | some h => if headUp s h then f h s else refuse seq .conflict rangeCode s

end Sys2Proof.Machine
end

