-- ==== Sys2Proof/Machine/FrontEnd.lean ====
section
/-! DEFINITION. Head connection and sensor front end (R34 to R66): route requests, bias and leakage, impedance checks and
sweeps, invalid runs and gaps at the receive input. -/
namespace Sys2Proof.Machine

/-! ### Route requests (R42 to R52) -/

/-- Record an FE outcome on its head and complete the command with the same code (R64). -/
def feRefuse (h : HeadId) (seq : Option Nat) (st : Status) (code : Nat) (s : State) : State :=
  completeJob seq st code (s.modFe h (fun b => { b with result := code }))

/-- Pins of a map that carry a function, for a slice where `x` is given. -/
def countPins (xp : Vector Byte 14) (f : Nat) (x : Option Sys) : Nat :=
  (xp.toList.filter (fun b => decide (xpFunc b = f) &&
    match x with
    | some y => decide (xpSlice b = y.idx + 1)
    | none => true)).length

/-- The map rules of R50. -/
def mapOk (r : RouteCfg) : Bool :=
  let used := [Sys.sys1, Sys.sys2].filter (usesSlice true r)
  !used.isEmpty && countPins r.xp 5 none == 1 && countPins r.xp 6 none == 1 &&
    used.all (fun x => countPins r.xp 1 (some x) == 1 && countPins r.xp 2 (some x) == 1 &&
      (if r.type = 1 then countPins r.xp 3 (some x) == 1 && countPins r.xp 4 (some x) == 1
       else countPins r.xp 3 (some x) == 0 && countPins r.xp 4 (some x) == 0)) &&
    r.xp.toList.all (fun b => !decide (1 ≤ xpFunc b ∧ xpFunc b ≤ 4) || decide (xpSlice b = 1 ∨ xpSlice b = 2))

/-- The other flex head of the die. -/
def otherFlex (h : HeadId) : HeadId := if h.val % 2 = 0 then Fin.ofNat 256 (h.val + 1) else Fin.ofNat 256 (h.val - 1)

/-- A map uses a pin. -/
def usesPin (r : RouteCfg) (k : Nat) : Bool := xpFunc ((r.xp.toList[k]?).getD 0) != 0

/-- A flex head owns a crosspoint pin: its own field pins, 0 to 9, at all times, and an AUX pin where its accepted map uses
it, from the admission of its request to the break of a later one (R51). -/
def ownsPin (s : State) (h : HeadId) (k : Nat) : Bool :=
  let r := (s.head h).fe.route
  decide (k < 10) || usesPin r.cur k || (match r.req with
    | some q => usesPin q k
    | none => false)

/-- The admission tests in order: R46, R44, R43, R50, R51. -/
def routeTest (h : HeadId) (r : RouteCfg) (s : State) : Option (Status × Nat) :=
  if routeBusy s h || chgBusy s h then some (.refusedBusy, 4)
  else if r.mode = 1 && !typeUsed r.type then some (.conflict, 10)
  else if clearBound s h then some (.conflict, 1)
  else if r.mode = 1 && isFlex h && !mapOk r then some (.conflict, 2)
  else if isFlex h && [10, 11, 12, 13].any (fun k => usesPin r k && ownsPin s (otherFlex h) k) then some (.conflict, 3)
  else none

/-- The regulator at the admission of a route request (R72). A slice that leaves LISTEN loses its lock; MISMATCH and PHERR
keep their last values (assumption log 66, DESIGN CHOICE). -/
def rampOff (h : HeadId) (x : Sys) (s : State) : State :=
  let r := ((s.head h).xs.slice.get x).reg
  if r == .listen then
    anchorSlice h x ((loseLock h x s).modXsSlice h x (fun b => { b with reg := .off, heard := [] }))
  else if regDrives r then s.modXsSlice h x (fun b => { b with reg := .rampDown, since := s.now })
  else s

/-- Force a slice's comparators (R139). A running occultation timer and an envelope hold go on (R123, R138). -/
def forceSlice (h : HeadId) (x : Sys) (s : State) : State :=
  s.modCmpSlice h x (fun c => { c with forced := true, asserted := true, lowOut := true, highOut := true })

/-- Admission of a route request (R42, R45, R47, R100, R139, R158). It ends a marking of R63, as the window of R47 opens. -/
def admitRoute (h : HeadId) (r : RouteCfg) (job : Option Nat) (s : State) : State :=
  withLines h (fun s =>
    let s := changeNotice h (endSwaps h s)
    let s := abortHead h 3 s
    let s := s.modFe h (fun b => { b with
      imp := b.imp.both (fun i => { i with fresh := false })
      route := { b.route with phase := .ramp, req := some r, job := job, oldMode := b.route.cur.mode, admAt := s.now,
                              window := true } })
    let s := s.modCmp h (fun c => { c with rbB := c.rbB.both (fun w => setFld w 31 1 0) })
    let s := s.modFlt h (fun f => { f with slice := f.slice.both (fun v => { v with healthMark := none }) })
    onBoth (forceSlice h) (onBoth (rampOff h) (onBoth (holdSettle h) s))) s

/-- A route request: refused at admission it writes RESULT only (R42). -/
def routeRequest (h : HeadId) (r : RouteCfg) (job : Option Nat) (s : State) : State :=
  match routeTest h r s with
  | some (st, code) => feRefuse h job st code s
  | none => admitRoute h r job s

/-- MODE 11 is treated as ISOLATED. -/
def modeOf (v : Nat) : BitVec 2 := if v % 4 = 3 then 0 else BitVec.ofNat 2 v

/-- DISCH of 0 is treated as 1. -/
def dischOf (v : Nat) : Nat := if v % 256 = 0 then 1 else v % 256

/-- What FE_ROUTE asks for; on a fixed head the map bytes are ignored. A GAIN byte counts by its low three bits
(assumption log 21, DESIGN CHOICE). -/
def routeCfgOf (h : HeadId) (p : List Byte) (s : State) : RouteCfg :=
  { mode := modeOf (field p 2 1), type := BitVec.ofNat 2 (field p 3 1), gain1 := BitVec.ofNat 3 (field p 4 1),
    gain2 := BitVec.ofNat 3 (field p 5 1), disch := dischOf (field p 6 1),
    level := BitVec.ofNat 8 (fld (s.head h).fe.bias 0 8),
    xp := if isFlex h then tabulate 14 (fun k => BitVec.ofNat 8 (field p (8 + k) 1)) else (s.head h).fe.xp }

/-- The FE_ registers carry the values of an admitted request. -/
def storeRoute (p : List Byte) (r : RouteCfg) (b : FeHead) : FeHead :=
  { b with headCfg := put 8 8 (field p 6 1) ||| put 0 2 r.type.toNat,
           gain := put 4 3 r.gain2.toNat ||| put 0 3 r.gain1.toNat,
           routeCtrl := put 0 2 (field p 2 1), xp := r.xp.map (fun v => v &&& 0x37) }

/-- FE_ROUTE. A head of a die that is off completes with POWER (R332). -/
def feRoute (p : List Byte) (seq : Nat) (s : State) : State :=
  match headArg p 0 with
  | none => refuse seq .conflict 6 s
  | some h =>
    if !headUp s h then refuse seq .conflict 5 s
    else
      let r := routeCfgOf h p s
      match routeTest h r s with
      | some (st, code) => feRefuse h (some seq) st code s
      | none => admitRoute h r (some seq) (s.modFe h (storeRoute p r))

/-- What the registers of a head ask for (R51). -/
def routeCfgRegs (h : HeadId) (s : State) : RouteCfg :=
  let b := (s.head h).fe
  { mode := modeOf (fld b.routeCtrl 0 2), type := BitVec.ofNat 2 (fld b.headCfg 0 2),
    gain1 := BitVec.ofNat 3 (fld b.gain 0 3), gain2 := BitVec.ofNat 3 (fld b.gain 4 3),
    disch := dischOf (fld b.headCfg 8 8), level := BitVec.ofNat 8 (fld b.bias 0 8), xp := b.xp }

/-- Address of a head's register. -/
def headOff (h : HeadId) (o : Nat) : Nat := 0x100000 + h.val * 0x1000 + o

/-- A write to FE_ROUTE_CTRL (R51, R65, R9): MODE is stored before sealing; GO starts a request; where
its tests fail the write changes nothing but RESULT and is counted. -/
def routeCtrlWrite (h : HeadId) (v : Word) (s : State) : State :=
  let off := headOff h 8
  if s.hp.isSealed then
    if bit v 31 || decide (fld v 0 2 ≠ fld (s.head h).fe.routeCtrl 0 2) then hpErr 2 false off v s else s
  else if !headUp s h then hpErr 4 false off v s
  else
    let t := s.modFe h (fun b => { b with routeCtrl := put 0 2 (fld v 0 2) })
    if bit v 31 then
      match routeTest h (routeCfgRegs h t) t with
      | some (_, code) => hpErr 4 false off v (s.modFe h (fun b => { b with result := code }))
      | none => admitRoute h (routeCfgRegs h t) none t
    else t

/-- Leakage thresholds in force; a LEAK_FAULT of 0 is 4,095 (R53). -/
def leakFaultOf (w : Word) : Nat := if fld w 20 12 = 0 then 4095 else fld w 20 12
def leakWarnOf (w : Word) : Nat := fld w 8 12

/-- Evaluate the leakage of a head after the value or the thresholds changed; `was` says whether the warning stood
(R53). -/
def leakEval (h : HeadId) (was : Bool) (s : State) : State :=
  let b := (s.head h).fe
  let s := if decide (leakWarnOf b.bias ≤ b.leak) && !was then flagFe h 7 s else s
  if leakFaultOf b.bias ≤ b.leak then
    s.modFe h (fun b => { b with leakSince := some (b.leakSince.getD s.now) })
  else s.modFe h (fun b => { b with leakSince := none, leakFault := false })

/-- FE_BIAS_SET: a change of LEVEL runs as a route request with what is in force; thresholds alone complete at
admission (R52, R64). -/
def feBiasSet (p : List Byte) (seq : Nat) (s : State) : State :=
  withHead p 0 6 seq (fun h s =>
    let warn := field p 4 2
    let fault := field p 6 2
    let level := field p 2 1
    let b := (s.head h).fe
    if 4095 < warn ∨ 4095 < fault then feRefuse h (some seq) .conflict 6 s
    else
      let was := decide (leakWarnOf b.bias ≤ b.leak)
      let store (s : State) : State := leakEval h was (s.modFe h (fun b =>
        { b with bias := put 20 12 fault ||| put 8 12 warn ||| put 0 8 level }))
      if level = b.route.cur.level.toNat then
        done seq ((store s).modFe h (fun b => { b with result := 0 }))
      else
        let r := { b.route.cur with level := BitVec.ofNat 8 level, disch := dischOf (fld b.headCfg 8 8) }
        match routeTest h r s with
        | some (st, code) => feRefuse h (some seq) st code s
        | none => admitRoute h r (some seq) (store s)) s

/-- Drivers at zero, 100 us after admission: the switches open, and TYPE and map change at the break (R42, R50, R51). -/
def routeBreak (h : HeadId) (s : State) : State :=
  let r := (s.head h).fe.route
  match r.req with
  | some q =>
    if r.phase == .ramp && decide (r.admAt + us 100 ≤ s.now) then
      withLines h (fun s =>
        let s := onBoth (fun x s => s.modXsSlice h x (fun b => if b.reg == .rampDown then { b with reg := .off, drive := 0, driveLog := [] } else b)) s
        endEpisode h (s.modFe h (fun b => { b with route := { b.route with
          phase := .break1, breakAt := s.now, cur := { q with mode := 0 } } }))) s
    else s
  | none => s

/-- ENVBW of a slice as R118 takes it: 11 is 01. -/
def envbwOf (cfg : Word) (x : Sys) : Nat := if fld cfg (16 + 2 * x.idx) 2 = 3 then 1 else fld cfg (16 + 2 * x.idx) 2

/-- R120: a carrier below 40 kHz lowers ENVBW 10 in force to 01. -/
def lowerEnvbw (h : HeadId) (x : Sys) (s : State) : State :=
  if envbwOf (s.head h).cmp.force.cfg x = 2 && decide (s.freqOf h x < 40000) then
    flagCmp h 6 (s.modCmp h (fun c => { c with force := { c.force with cfg := setFld c.force.cfg (16 + 2 * x.idx) 2 1 } }))
  else s

/-- R96: after a change of F_fir a RAM bank whose classes do not include it is replaced by the ROM bank of its KIND. -/
def bankFollow (h : HeadId) (x : Sys) (s : State) : State :=
  let code := ((s.head h).flt.slice.get x).act
  if code.toNat < 128 then
    let b := tget (s.die (dieOf h)).slots (Fin.ofNat 128 code.toNat)
    let c := rateClass (s.firOf h x)
    if c < b.cmin ∨ b.cmax < c then
      flagHead .flt h (sliceFlag 6 x) (s.modFltSlice h x (fun f => { f with act := if b.kind then 0x81 else 0x80 }))
    else s
  else s

/-- R103: single notches that no longer meet their range are turned off. -/
def dropNotches (h : HeadId) (x : Sys) (s : State) : State :=
  let v := (s.head h).flt.notch.get x
  let bad (w : Word) : Bool := fld w 30 2 == 2 && !notchInRange w (s.freqOf h x)
  if v.toList.any bad then
    flagFlt h 11 (s.modFlt h (fun f => { f with notch := f.notch.set x (v.map (fun w => if bad w then setFld w 30 2 0 else w)) }))
  else s

/-- The new carrier of a slice is in force: increment, setpoint, phase, the carrier's phase going on (R68); filter chain and
comparators retuned (R79, R96, R103, R120). -/
def retune (h : HeadId) (x : Sys) (s : State) : State :=
  let b := (s.head h).xs
  let s := s.modXsSlice h x (fun v => XsSlice.anchor (xclkTicks s)
    { v with freq := fld (b.freq.get x) 0 17, amp := max 10 (fld b.amp (16 * x.idx) 11),
             phase := fld b.phase (16 * x.idx) 16 })
  lowerEnvbw h x (dropNotches h x (bankFollow h x s))

/-- A slice is made into RUN (R68, R72): accumulator loaded; LISTEN on a device that does not drive the head, else RAMP_UP,
or OFF while THERM_OFF keeps the drivers of its die off. -/
def makeSlice (h : HeadId) (x : Sys) (s : State) : State :=
  let s := loseLock h x (retune h x s)
  s.modXsSlice h x (fun v => XsSlice.load (xclkTicks s)
    { v with trim := 0, since := s.now, mismatch := false, drive := 0, driveLog := [], heard := [],
             preset := if v.preset = 0 then Config.presetDrive v.amp else v.preset,
             reg := if !drives s then .listen else if (s.die (dieOf h)).thermOff then .off else .rampUp })

/-- The make: switches for the new mode, type and map closed (R42). -/
def routeMake (h : HeadId) (s : State) : State :=
  match (s.head h).fe.route.req with
  | none => s
  | some q =>
    let s := s.modFe h (fun b => { b with route := { b.route with phase := .make, cur := q } })
    if q.mode = 1 then
      let s := foldOver (usedSlices s h) (makeSlice h) s
      if (usedSlices s h).all (regulated s h) then completeRoute h s else s
    else completeRoute h s

/-- The test of a slice loads its staged values, and those that both slices share (R127). -/
def loadStaged (x : Sys) (c : CmpHead) : CmpHead :=
  let cp (lo n : Nat) (w : Word) : Word := setFld w lo n (fld c.staged.cfg lo n)
  { c with force :=
      { pres := c.force.pres.set x (c.staged.pres.get x), health := c.force.health.set x (c.staged.health.get x)
        cfg := cp 24 5 (cp (16 + 2 * x.idx) 2 (cp (8 * x.idx) 8 c.force.cfg)), brake := c.staged.brake } }

/-- The comparator test starts on the slices in use (R128). -/
def startTest (h : HeadId) (s : State) : State :=
  let s := s.modFe h (fun b => { b with route := { b.route with testEnd := s.now + us 120 } })
  foldOver (usedSlices s h) (fun x s =>
    (s.modCmp h (loadStaged x)).modCmpSlice h x (fun c => { c with testing := true })) s

/-- A comparator test of the head has not ended. -/
def testRunning (s : State) (h : HeadId) : Bool :=
  (s.head h).cmp.slice.one.testing || (s.head h).cmp.slice.two.testing

/-- 2 us after the break: the discharge closes, or the make where both modes are ISOLATED (R42, R48). -/
def routeAfterBreak (h : HeadId) (s : State) : State :=
  let r := (s.head h).fe.route
  match r.req with
  | some q =>
    if r.phase == .break1 && decide (r.breakAt + us 2 ≤ s.now) then
      withLines h (fun s =>
        let s := if q.mode = 1 then startTest h s else s
        if r.oldMode = 0 && q.mode = 0 then routeMake h s
        else
          let s := s.modFe h (fun b => { b with route := { b.route with phase := .disch, dischAt := s.now } })
          if q.mode = 2 then
            completeRoute h (s.modFe h (fun b => { b with route := { b.route with cur := q } }))
          else s) s
    else s
  | none => s

/-- The discharge path opens after DISCH (R42). -/
def routeDischargeEnd (h : HeadId) (s : State) : State :=
  let r := (s.head h).fe.route
  match r.req with
  | some q =>
    if r.phase == .disch && decide (r.dischAt + us 10 * q.disch ≤ s.now) then
      s.modFe h (fun b => { b with route := { b.route with phase := .break2, dischAt := s.now } })
    else s
  | none => s

/-- 2 us after the discharge opens, and not before the comparator test has ended, the make (R42). -/
def routeAfterBreak2 (h : HeadId) (s : State) : State :=
  let r := (s.head h).fe.route
  if r.phase == .break2 && decide (r.dischAt + us 2 ≤ s.now) && !testRunning s h then withLines h (routeMake h) s else s

/-! ### Impedance checks (R54 to R62) -/

def impInterval (s : State) (h : HeadId) : Nat := fld (s.head h).fe.impCfg 0 16 * 10 ^ 12
def impTone (s : State) (h : HeadId) : Nat := fld (s.head h).fe.impCfg 16 14

/-- FE_IMP_TOL of three tolerances, each clamped (R65). -/
def impTolOf (z ph k : Nat) : Word := put 16 6 (clamp 5 50 k) ||| put 8 6 (clamp 2 45 ph) ||| put 0 6 (clamp 5 50 z)

/-- FE_IMP_SET. -/
def feImpSet (p : List Byte) (seq : Nat) (s : State) : State :=
  withHead p 0 6 seq (fun h s =>
    let tone := field p 4 2
    if tone < 2000 ∨ 12000 < tone then feRefuse h (some seq) .conflict 6 s
    else done seq (s.modFe h (fun b => { b with
      impCfg := put 16 14 tone ||| put 0 16 (field p 2 2)
      impTol := impTolOf (field p 6 1) (field p 7 1) (field p 8 1)
      result := 0 }))) s

/-- A slice becomes due, unless it is due already. -/
def makeDue (h : HeadId) (x : Sys) (s : State) : State :=
  s.modFe h (fun b => { b with imp := b.imp.mod x (fun i => { i with dueSince := some (i.dueSince.getD s.now) }) })

/-- FE_IMP_RUN. -/
def feImpRun (p : List Byte) (seq : Nat) (s : State) : State :=
  withHead p 0 6 seq (fun h s =>
    done seq ((foldOver (maskArg p 2) (makeDue h) s).modFe h (fun b => { b with result := 0 }))) s

/-- A class that fails sections: OPEN, SHORT or LEAKAGE (R60). -/
def classFails (c : ImpClass) : Bool := c == 5 || c == 4 || c == 3

/-- The slice has a result that may become its reference (R61). -/
def mayRef (s : State) (h : HeadId) (x : Sys) : Bool :=
  let b := (s.head h).fe
  (b.imp.get x).fresh && bit (b.impRes.get x) 31 && !classFails (b.imp.get x).cls

/-- FE_IMP_SETREF; K belongs to the reference on TYPE 01 only (R59). -/
def feImpSetref (p : List Byte) (seq : Nat) (s : State) : State :=
  withHead p 0 6 seq (fun h s =>
    if (maskArg p 2).all (mayRef s h) then
      let copy (x : Sys) (s : State) : State := s.modFe h (fun b =>
        { b with impRef := b.impRef.set x (b.impRes.get x),
                 kref := if b.route.cur.type = 1 then setFld b.kref (16 * x.idx) 16 (fld b.kres (16 * x.idx) 16)
                         else b.kref })
      done seq ((foldOver (maskArg p 2) copy s).modFe h (fun b => { b with result := 0 }))
    else feRefuse h (some seq) .conflict 7 s) s

def State.modTone (s : State) (d : DieId) (g : Fin 4) (f : Tone → Tone) : State :=
  s.modDie d (fun v => { v with tg := tmod v.tg g f })
def State.tone (s : State) (d : DieId) (g : Fin 4) : Tone := tget (s.die d).tg g

/-- FE_IMP_SWEEP takes its generator (R62, R64). -/
def feImpSweep (p : List Byte) (seq : Nat) (s : State) : State :=
  withHead p 2 6 seq (fun h s =>
    let sl := field p 4 1
    let n := field p 5 1
    if field p 0 1 ≠ (dieOf h).val ∨ 3 < field p 1 1 ∨ sl = 0 ∨ 2 < sl ∨ n = 0 ∨ 16 < n then
      feRefuse h (some seq) .conflict 6 s
    else
      let g := Fin.ofNat 4 (field p 1 1)
      if (s.tone (dieOf h) g).sweep.isSome then feRefuse h (some seq) .conflict 8 s
      else
        let w : Sweep := { head := h, sys := if sl = 1 then .sys1 else .sys2, points := n, freq0 := field p 6 4,
                           step := field p 10 2, done := [], since := s.now, job := some seq }
        s.modTone (dieOf h) g (fun v => { v with sweep := some w })) s

/-- A tone is allowed under a carrier (R55). -/
def toneOk (tone freq : Nat) : Bool := decide (2000 ≤ tone ∧ tone ≤ 12000 ∧ tone + 8000 ≤ freq)

/-- A slice handled under R63 whose health window is tripped, outside the expected-trip window of R47, is exempt from
deferral and abort (R57). The exemption ends with the marking (assumption log 67, DESIGN CHOICE). -/
def impExempt (s : State) (h : HeadId) (x : Sys) : Bool :=
  ((s.head h).flt.slice.get x).healthMark.isSome && !(s.head h).fe.route.window

/-- A deferral condition of R57. A settle counter below its target is running, held or not (assumption log 67, DESIGN
CHOICE). -/
def deferral (s : State) (h : HeadId) : Bool :=
  anyPresence s h || !trnIdle s h || recentTransit s h || !(usedSlices s h).all (settled s h) || brakeOn s h ||
    routeBusy s h || chgBusy s h

/-- Another slice of the head is under tone on its die. -/
def headUnderTone (s : State) (h : HeadId) : Bool :=
  (s.die (dieOf h)).tg.toList.any (fun v =>
    match v.slot with
    | some w => decide (w.head = h)
    | none => false)

/-- The slice may start a check of the scheduler now (R55 to R57): on a head in RUN, whose driver or listening carrier the
tone is superposed on (assumption log 68, DESIGN CHOICE). -/
def mayStart (s : State) (h : HeadId) (x : Sys) : Bool :=
  ((s.head h).fe.imp.get x).dueSince.isSome && inRun s h && inUse s h x && !headUnderTone s h &&
    toneOk (impTone s h) (s.freqOf h x) && (!deferral s h || impExempt s h x)

/-- The slices of a die, in order of head and system. -/
def dieSlices (d : DieId) : List (HeadId × Sys) :=
  (List.range 32).flatMap (fun i => [(Fin.ofNat 256 (32 * d.val + i), Sys.sys1), (Fin.ofNat 256 (32 * d.val + i), Sys.sys2)])

/-- A goes before B: queued under R63 first, then the longer due (R56). -/
def goesBefore (s : State) (a b : HeadId × Sys) : Bool :=
  let ia := (s.head a.1).fe.imp.get a.2
  let ib := (s.head b.1).fe.imp.get b.2
  if ia.urgent != ib.urgent then ia.urgent else decide (ia.dueSince.getD 0 < ib.dueSince.getD 0)

/-- The slice that the scheduler serves next: of equals, the first in order. -/
def nextDue (s : State) (d : DieId) : Option (HeadId × Sys) :=
  ((dieSlices d).filter (fun a => mayStart s a.1 a.2)).foldl (fun best a =>
    match best with
    | none => some a
    | some b => if goesBefore s a b then some a else some b) none

/-- Frequency of the sweep's next point. -/
def Sweep.nextFreq (w : Sweep) : Nat := w.freq0 + w.done.length * w.step

/-- The response of a sweep: points in order, those not measured invalid. -/
def sweepBytes (w : Sweep) : List Byte :=
  (w.done.reverse ++ List.replicate (w.points - w.done.length) (0, 0)).flatMap (fun r : Word × Word => leWord r.1 ++ leWord r.2)

/-- The sweep ends: the generator returns to the scheduler and the command completes OK with a result code (R62). -/
def endSweep (d : DieId) (g : Fin 4) (w : Sweep) (code : Nat) (s : State) : State :=
  let s := s.modTone d g (fun v => { v with sweep := none, slot := v.slot.bind (fun t => if t.sweep then none else some t) })
  let s := s.modFe w.head (fun b => { b with result := code })
  match w.job with
  | some seq => complete seq .ok code (sweepBytes w) s
  | none => s

/-- A point of a sweep is measured or marked invalid; the last one ends the sweep. -/
def sweepPoint (d : DieId) (g : Fin 4) (w : Sweep) (r : Word × Word) (s : State) : State :=
  let w := { w with done := r :: w.done }
  if w.points ≤ w.done.length then endSweep d g w 0 s else s.modTone d g (fun v => { v with sweep := some w })

/-- A generator starts a slot: the next point of its sweep, or the next due slice (R56, R62). A sweep point whose
frequency breaks R55 is marked invalid. A sweep asks for no mode of the head (assumption log 68, DESIGN CHOICE). -/
def slotStart (d : DieId) (g : Fin 4) (s : State) : State :=
  let v := s.tone d g
  if v.slot.isSome then s
  else
    match v.sweep with
    | some w =>
      if !toneOk w.nextFreq (s.freqOf w.head w.sys) then sweepPoint d g w (0, 0) s
      else if headUnderTone s w.head || deferral s w.head && !impExempt s w.head w.sys then s
      else s.modTone d g (fun v => { v with slot := some { head := w.head, sys := w.sys, start := s.now, sweep := true } })
    | none =>
      match nextDue s d with
      | some a => s.modTone d g (fun v => { v with slot := some { head := a.1, sys := a.2, start := s.now, sweep := false } })
      | none => s

/-- Classification of a completed check (R59), the first row that matches. -/
def classify (b : FeHead) (x : Sys) (type01 : Bool) (m : ImpMeasure) : ImpClass :=
  let ref := b.impRef.get x
  let zref := fld ref 0 16
  let kref := fld b.kref (16 * x.idx) 16
  let leaks := decide (leakFaultOf b.bias ≤ b.leak)
  if bit ref 31 then
    if m.current * zref < 40000 || type01 && decide (10 * m.k < kref) then 5
    else if 4 * m.zmag < zref then 4
    else if leaks then 3
    else if fld b.impTol 0 6 * zref < (max m.zmag zref - min m.zmag zref) * 100 ||
        decide (2 * fld b.impTol 8 6 < (m.zph - sext 9 (fld ref 16 9)).natAbs) ||
        type01 && decide (fld b.impTol 16 6 * kref < (max m.k kref - min m.k kref) * 100) then 2
    else 1
  else if m.current < 500 then 5
  else if m.zmag < 50 then 4
  else if leaks then 3
  else 6

/-- A result as FE_IMP_RESn holds it. -/
def impWord (m : ImpMeasure) : Word := put 31 1 1 ||| put 16 9 (twos 9 m.zph) ||| put 0 16 (satNat 16 m.zmag)

/-- The IMPEDANCE record of a completed check (R277). -/
def impRecord (h : HeadId) (x : Sys) (old cls : ImpClass) (type01 : Bool) (s : State) : State :=
  if bit s.hp.diagCfg 0 then
    let b := (s.head h).fe
    (offer 14 (diagBytes ([0x10, BitVec.ofNat 8 (cls.toNat + 16 * old.toNat), BitVec.ofNat 8 (x.idx + 1), 0] ++
      le 2 h.val ++ le 2 (impTone s h)) (leWord (b.impRes.get x) ++
      le 2 (if type01 then fld b.kres (16 * x.idx) 16 else 0) ++ le 2 b.leak) s) s).1
  else s

/-- The effects of a class (R60). -/
def classEffects (h : HeadId) (x : Sys) (old cls : ImpClass) (s : State) : State :=
  let s := if cls = old then s
    else trig 2 h.val (put 0 3 cls.toNat ||| put 4 3 old.toNat ||| put 8 1 x.idx) s
  if classFails cls then faultNotice h (flagFe h 8 s) else if cls = 2 then flagFe h 9 s else s

/-- A check of the scheduler completes: results, class, records (R54, R59, R60, R277). -/
def checkDone (d : DieId) (h : HeadId) (x : Sys) (m : ImpMeasure) (s : State) : State :=
  let b := (s.head h).fe
  let type01 := b.route.cur.type == 1
  let old := (b.imp.get x).cls
  let cls := classify b x type01 m
  let s := s.modFe h (fun b => { b with
    impRes := b.impRes.set x (impWord m)
    kres := if type01 then setFld b.kres (16 * x.idx) 16 (satNat 16 m.k) else b.kres
    imp := b.imp.set x { lastDone := s.now, dueSince := none, urgent := false, overdue := false, cls := cls, fresh := true } })
  let s := s.modDie d (fun v => { v with checks := (v.checks + 1) % 65536 })
  impRecord h x old cls type01 (classEffects h x old cls s)

/-- The end of a slot, 2.2 ms after its start (R54, R58, R62). -/
def slotEnd (d : DieId) (g : Fin 4) (m : ImpMeasure) (s : State) : State :=
  let v := s.tone d g
  match v.slot with
  | none => s
  | some w =>
    if s.now < w.start + us 2200 then s
    else
      let s := s.modTone d g (fun v => { v with slot := none })
      let bad := decide (50 < m.residual)
      let s := if bad then s.modFe w.head (fun b => { b with interf := satNat 8 (b.interf + 1) }) else s
      if w.sweep then
        match v.sweep with
        | some sw =>
          let type01 := (s.head w.head).fe.route.cur.type == 1
          sweepPoint d g sw (if bad then (0, 0) else (impWord m, put 0 16 (if type01 then satNat 16 m.k else 0))) s
        | none => s
      else if bad then s
      else checkDone d w.head w.sys m s

/-- A deferral condition during a slot: the measurement is discarded; a sweep point is marked invalid (R57, R62). -/
def slotAbort (d : DieId) (g : Fin 4) (s : State) : State :=
  let v := s.tone d g
  match v.slot with
  | none => s
  | some w =>
    if deferral s w.head && !impExempt s w.head w.sys then
      let s := s.modTone d g (fun v => { v with slot := none })
      let s := s.modFe w.head (fun b => { b with aborts := satNat 8 (b.aborts + 1) })
      match w.sweep, v.sweep with
      | true, some sw => sweepPoint d g sw (0, 0) s
      | _, _ => s
    else s

/-- A periodic check becomes due (R56). -/
def checkDue (h : HeadId) (x : Sys) (s : State) : State :=
  let i := (s.head h).fe.imp.get x
  if inUse s h x && i.dueSince.isNone && decide (0 < impInterval s h) &&
      decide (i.lastDone + impInterval s h ≤ s.now) then makeDue h x s else s

/-- A check still due one further INTERVAL (R58). -/
def checkOverdue (h : HeadId) (x : Sys) (s : State) : State :=
  let i := (s.head h).fe.imp.get x
  match i.dueSince with
  | some d =>
    if !i.overdue && decide (0 < impInterval s h) && decide (d + impInterval s h ≤ s.now) then
      flagFe h 11 (s.modFe h (fun b => { b with imp := b.imp.mod x (fun i => { i with overdue := true }) }))
    else s
  | none => s

/-- A sweep not finished after 45 ms stops and completes PARTIAL (R62). -/
def sweepTimeout (d : DieId) (g : Fin 4) (s : State) : State :=
  match (s.tone d g).sweep with
  | some w => if w.since + ms 45 ≤ s.now then endSweep d g w 9 s else s
  | none => s

/-- Leakage at or above LEAK_FAULT for 200 ms (R53). -/
def leakTimer (h : HeadId) (s : State) : State :=
  match (s.head h).fe.leakSince with
  | some t =>
    if decide (t + ms 200 ≤ s.now) && !(s.head h).fe.leakFault then
      faultNotice h (flagFe h 6 (s.modFe h (fun b => { b with leakFault := true })))
    else s
  | none => s

/-! ### Gaps and invalid runs (R41, R113, R114) -/

/-- A gap becomes unbridged (R113, R114). -/
def unbridge (h : HeadId) (x : Sys) (s : State) : State :=
  match ((s.head h).flt.slice.get x).gap with
  | some g =>
    if !g.unbridged && g.stop.isNone && decide (g.start + us 8 < s.now) then
      let s := s.modFltSlice h x (fun f => { f with gap := some { g with unbridged := true } })
      let s := abortHead h 2 (holdSettle h x (flagHead .flt h (sliceFlag 2 x) s))
      if g.settled then faultNotice h s else s
    else s
  | none => s

/-- A gap of the slice begins at an instant: a new one, or one merged with the gap that runs or ended at most 50 us before.
The gap's start is its first marked bit, which a hand-over mark may put before the present start (R113). -/
def openGap (from_ : Nat) (ok : Bool) (f : FltSlice) : FltSlice :=
  let new : Gap := { start := from_, stop := none, unbridged := false, settled := ok }
  match f.gap with
  | some g =>
    match g.stop with
    | none => { f with gap := some { g with start := min g.start from_ } }
    | some e =>
      if from_ ≤ e + us 50 then { f with gap := some { g with start := min g.start from_, stop := none } }
      else { f with gap := some new }
  | none => { f with gap := some new }

/-- A gap begins. A merged gap that is unbridged holds the counter again; one that a merge makes longer than 8.000 us
becomes unbridged at once (R112, R113). -/
def beginGap (h : HeadId) (x : Sys) (from_ : Nat) (s : State) : State :=
  let s := s.modFltSlice h x (openGap from_ (settled s h x))
  match ((s.head h).flt.slice.get x).gap with
  | some g => if g.unbridged && g.stop.isNone then holdSettle h x s else unbridge h x s
  | none => s

/-- A gap ends: bridged within 8.000 us; otherwise the counter restarts from here (R112, R114). -/
def endGap (h : HeadId) (x : Sys) (s : State) : State :=
  let s := unbridge h x s
  match ((s.head h).flt.slice.get x).gap with
  | some g =>
    if g.stop.isSome then s
    else
      let s := s.modFltSlice h x (fun f =>
        { f with gap := some { g with stop := some s.now }, gapLast := satNat 8 ((s.now - g.start) / 100000) })
      if g.unbridged then
        releaseSettle h x (s.modFltSlice h x (fun f => { f with badSpans := (g.start, s.now) :: f.badSpans }))
      else
        flagHead .flt h (sliceFlag 0 x) (s.modFltSlice h x (fun f =>
          { f with bridgeSpans := (g.start, s.now) :: f.bridgeSpans, gapBridged := (f.gapBridged + 1) % 65536 }))
  | none => s

/-- The flags of an invalid run of 10 us or more. -/
def invFlags (x : Sys) (ovr cm : Bool) : Word :=
  (if ovr then sliceFlag 2 x else 0) ||| (if cm then sliceFlag 4 x else 0)

/-- Overrange or common-mode alarm: an invalid run begins, or goes on under the conditions that now hold (R41). -/
def invalidStart (h : HeadId) (x : Sys) (ovr cm : Bool) (s : State) : State :=
  if !(inRun s h && inUse s h x && (ovr || cm)) then s
  else
    match ((s.head h).flt.slice.get x).inv with
    | some r =>
      let s := s.modFltSlice h x (fun f => { f with
        inv := some { r with ovr := r.ovr || ovr, cm := r.cm || cm, ovrNow := ovr, cmNow := cm } })
      if r.long then flagHead .fe h (invFlags x ovr cm) s else s
    | none =>
      beginGap h x s.now (s.modFltSlice h x (fun f =>
        { f with inv := some { start := s.now, ovr := ovr, cm := cm, ovrNow := ovr, cmNow := cm, long := false } }))

/-- The run reaches 10 us (R41). -/
def invalidLong (h : HeadId) (x : Sys) (ovr cm : Bool) (s : State) : State :=
  match ((s.head h).flt.slice.get x).inv with
  | some r =>
    if !r.long && decide (r.start + us 10 ≤ s.now) then
      let r := { r with ovr := r.ovr || ovr, cm := r.cm || cm, ovrNow := ovr, cmNow := cm, long := true }
      let s := s.modFltSlice h x (fun f => { f with inv := some r })
      faultNotice h (flagHead .fe h (invFlags x r.ovr r.cm) s)
    else s
  | none => s

/-- The invalid run ends; the gap ends with it unless a hand-over mark goes on. -/
def invalidEnd (h : HeadId) (x : Sys) (s : State) : State :=
  let f := (s.head h).flt.slice.get x
  if f.inv.isSome then
    let s := s.modFltSlice h x (fun f => { f with inv := none })
    if f.mark.isSome then s else endGap h x s
  else s

/-- A gap of an invalid run ends within 8.000 us (R114). -/
def gapBridged (h : HeadId) (x : Sys) (s : State) : State :=
  match ((s.head h).flt.slice.get x).gap with
  | some g => if g.stop.isNone && !g.unbridged && decide (s.now ≤ g.start + us 8) then invalidEnd h x s else s
  | none => s

/-! ### The meanings -/

def execFeRoute (t : Nat) (c : Cmd) (s : State) : Host.Outcome State Fault Refusal :=
  .next (command 0x0210 true 24 0 c (feRoute c.payload) (s.advance t))

def execFeRouteCtrlGo (t : Nat) (h : HeadId) (v : Word) (be : BitVec 4) (s : State) :
    Host.Outcome State Fault Refusal :=
  .next (whenHost (fun s => if allEnables be then routeCtrlWrite h v s else hpErr 1 false (headOff h 8) v s)
    (s.advance t))

def execFeBiasSet (t : Nat) (c : Cmd) (s : State) : Host.Outcome State Fault Refusal :=
  .next (command 0x0211 true 8 0 c (feBiasSet c.payload) (s.advance t))

def execFeImpSet (t : Nat) (c : Cmd) (s : State) : Host.Outcome State Fault Refusal :=
  .next (command 0x0212 false 12 0 c (feImpSet c.payload) (s.advance t))

def execFeImpRun (t : Nat) (c : Cmd) (s : State) : Host.Outcome State Fault Refusal :=
  .next (command 0x0213 false 3 0 c (feImpRun c.payload) (s.advance t))

def execFeImpSetref (t : Nat) (c : Cmd) (s : State) : Host.Outcome State Fault Refusal :=
  .next (command 0x0214 false 3 0 c (feImpSetref c.payload) (s.advance t))

def execFeImpSweep (t : Nat) (c : Cmd) (s : State) : Host.Outcome State Fault Refusal :=
  .next (command 0x0215 true 12 (8 * field c.payload 5 1) c (feImpSweep c.payload) (s.advance t))

def execRouteRampDownDone (t : Nat) (h : HeadId) (s : State) : Host.Outcome State Fault Refusal :=
  .next (whenAwake (routeBreak h) (s.advance t))

def execRouteBreakExpiry (t : Nat) (h : HeadId) (s : State) : Host.Outcome State Fault Refusal :=
  .next (whenAwake (routeAfterBreak h) (s.advance t))

def execRouteDischargeExpiry (t : Nat) (h : HeadId) (s : State) : Host.Outcome State Fault Refusal :=
  .next (whenAwake (routeDischargeEnd h) (s.advance t))

def execRouteBreak2Expiry (t : Nat) (h : HeadId) (s : State) : Host.Outcome State Fault Refusal :=
  .next (whenAwake (routeAfterBreak2 h) (s.advance t))

def execLeakFaultTimer (t : Nat) (h : HeadId) (s : State) : Host.Outcome State Fault Refusal :=
  .next (whenAwake (leakTimer h) (s.advance t))

def execImpCheckDue (t : Nat) (h : HeadId) (x : Sys) (s : State) : Host.Outcome State Fault Refusal :=
  .next (whenAwake (checkDue h x) (s.advance t))

def execImpSlotStart (t : Nat) (d : DieId) (g : Fin 4) (s : State) : Host.Outcome State Fault Refusal :=
  .next (whenAwake (slotStart d g) (s.advance t))

def execImpSlotEnd (t : Nat) (d : DieId) (g : Fin 4) (m : ImpMeasure) (s : State) : Host.Outcome State Fault Refusal :=
  .next (whenAwake (slotEnd d g m) (s.advance t))

def execImpSlotAbort (t : Nat) (d : DieId) (g : Fin 4) (s : State) : Host.Outcome State Fault Refusal :=
  .next (whenAwake (slotAbort d g) (s.advance t))

def execImpOverdue (t : Nat) (h : HeadId) (x : Sys) (s : State) : Host.Outcome State Fault Refusal :=
  .next (whenAwake (checkOverdue h x) (s.advance t))

def execSweepTimeout (t : Nat) (d : DieId) (g : Fin 4) (s : State) : Host.Outcome State Fault Refusal :=
  .next (whenAwake (sweepTimeout d g) (s.advance t))

def execInvalidRunStart (t : Nat) (h : HeadId) (x : Sys) (ovr cm : Bool) (s : State) :
    Host.Outcome State Fault Refusal :=
  .next (whenAwake (invalidStart h x ovr cm) (s.advance t))

def execInvalidRunLong (t : Nat) (h : HeadId) (x : Sys) (ovr cm : Bool) (s : State) :
    Host.Outcome State Fault Refusal :=
  .next (whenAwake (invalidLong h x ovr cm) (s.advance t))

def execInvalidRunEnd (t : Nat) (h : HeadId) (x : Sys) (s : State) : Host.Outcome State Fault Refusal :=
  .next (whenAwake (invalidEnd h x) (s.advance t))

def execGapUnbridged (t : Nat) (h : HeadId) (x : Sys) (s : State) : Host.Outcome State Fault Refusal :=
  .next (whenAwake (unbridge h x) (s.advance t))

def execGapBridged (t : Nat) (h : HeadId) (x : Sys) (s : State) : Host.Outcome State Fault Refusal :=
  .next (whenAwake (gapBridged h x) (s.advance t))

end Sys2Proof.Machine
end

