-- ==== Sys2Proof/Machine/Excite.lean ====
section
/-! DEFINITION. Excitation and carrier planning (R67 to R85): the station frequency plan, carrier changes, the
regulator's events, listening, and the thermal behaviour of a field die. -/
namespace Sys2Proof.Machine

/-! ### The station frequency plan (R75 to R77) -/

def ndiff (a b : Nat) : Nat := max a b - min a b

/-- The two carriers the plan holds for a head. -/
def carriers (s : State) (h : HeadId) : List Nat :=
  [fld (s.head h).xs.freq.one 0 17, fld (s.head h).xs.freq.two 0 17]

/-- A head lists another in its XS_ADJ words. -/
def adjLists (adj : Vector Word 4) (g : HeadId) : Bool :=
  adj.toList.any (fun w => bit w 15 && fld w 0 8 == g.val || bit w 31 && fld w 16 8 == g.val)

/-- The heads adjacent to a head: either lists the other. -/
def neighbours (s : State) (h : HeadId) : List HeadId :=
  (allFin 256).filter (fun g => g != h && (adjLists (s.head h).xs.adj g || adjLists (s.head g).xs.adj h))

/-- Built-in band sets in Hz (R76). -/
def builtinBands : Nat → List (Nat × Nat)
  | 0 => [(21000, 22500), (42000, 45000), (63500, 66500)]
  | 1 => [(26000, 27500), (52000, 55000), (77500, 80000)]
  | 2 => [(31500, 33000), (47000, 49500)]
  | 3 => [(36000, 38500), (58000, 61000), (72000, 74000)]
  | _ => []

/-- Bands of a set: built in, or the valid user bands whose SET names it (R77). -/
def bandSet (d : Dev) (k : Nat) : List (Nat × Nat) :=
  builtinBands k ++ (d.uband.toList.filter (fun w => bit w 29 && decide (4 + fld w 30 2 = k))).map
    (fun w => (10 * fld w 0 13, 10 * fld w 16 13))

/-- Bands that apply to a head (XS_BANDS). -/
def headBands (s : State) (h : HeadId) : List (Nat × Nat) :=
  (List.range 8).flatMap (fun k => if bit (s.head h).xs.bands k then bandSet s.dev k else [])

def sepHead (s : State) : Nat := fld s.dev.plan 0 12
def sepAdj (s : State) : Nat := fld s.dev.plan 12 12
def guardHz (s : State) : Nat := 10 * fld s.dev.plan 24 8

/-- A pair of carriers of one head, or of two adjacent heads, with each harmonic difference. -/
def harmonicsApart (sep a b : Nat) : Bool := decide (sep ≤ ndiff a (2 * b)) && decide (sep ≤ ndiff b (2 * a))

/-- The first plan rule that a head breaks in this plan; 0 where it breaks none (R75). -/
def planBreach (s : State) (h : HeadId) : Nat :=
  let fs := carriers s h
  let ns := neighbours s h
  let f1 := fs.headD 0
  let f2 := fs.getLastD 0
  if fs.any (fun f => decide (f < 20000 ∨ 80000 < f)) || adjLists (s.head h).xs.adj h then 1
  else if !(decide (sepHead s ≤ ndiff f1 f2) && harmonicsApart (sepHead s) f1 f2) then 2
  else if ns.any (fun g => fs.any (fun a => (carriers s g).any (fun b => decide (ndiff a b < sepAdj s)))) then 3
  else if ns.any (fun g => fs.any (fun a => (carriers s g).any (fun b => !harmonicsApart (sepAdj s) a b))) then 4
  else if fs.any (fun f => (headBands s h).any (fun b => decide (b.1 ≤ f + guardHz s ∧ f ≤ b.2 + guardHz s))) then 5
  else 0

/-- The first head that breaks a rule in this plan, with the rule. -/
def planFirst (s : State) : Option (HeadId × Nat) :=
  ((allFin 256).find? (fun h => planBreach s h != 0)).map (fun h => (h, planBreach s h))

/-! ### Requests for a head (R79, R83) -/

/-- What a request makes of the carrier values of a head. -/
structure XsReq where
  freq  : Pair Nat
  amp   : Pair Nat
  phase : Pair Nat
  ilim  : Pair Nat
  tau   : Nat
deriving DecidableEq, Repr

/-- The values a head holds. -/
def xsHeld (b : XsHead) : XsReq :=
  { freq := b.freq.both (fun w => fld w 0 17), amp := ⟨fld b.amp 0 11, fld b.amp 16 11⟩,
    phase := ⟨fld b.phase 0 16, fld b.phase 16 16⟩, ilim := ⟨fld b.ilim 0 6, fld b.ilim 8 6⟩, tau := fld b.reg 0 8 }

/-- A carrier change of the slice: FREQ, AMP or PHASE differ (R79). -/
def xsChanges (b : XsHead) (r : XsReq) (x : Sys) : Bool :=
  let o := xsHeld b
  r.freq.get x != o.freq.get x || r.amp.get x != o.amp.get x || r.phase.get x != o.phase.get x

/-- Store the values; ILIM and TAU clamped. -/
def xsStore (r : XsReq) (b : XsHead) : XsHead :=
  { b with freq := r.freq.both (fun v => put 0 17 v), amp := put 16 11 r.amp.two ||| put 0 11 r.amp.one,
           phase := put 16 16 r.phase.two ||| put 0 16 r.phase.one,
           ilim := put 8 6 (clamp 5 40 r.ilim.two) ||| put 0 6 (clamp 5 40 r.ilim.one),
           reg := put 0 8 (clamp 10 200 r.tau) }

/-- The admission tests of R79, in order. A change of ILIM or TAU alone passes without them. -/
def xsTest (h : HeadId) (r : XsReq) (s : State) : Option (Status × Nat) :=
  let b := (s.head h).xs
  if !(xsChanges b r .sys1 || xsChanges b r .sys2) then none
  else
    let bad (x : Sys) : Bool := decide (r.freq.get x < 20000 ∨ 80000 < r.freq.get x ∨ 1200 < r.amp.get x)
    let breach := planBreach (s.modXs h (xsStore r)) h
    if bad .sys1 || bad .sys2 then some (.conflict, 1)
    else if routeBusy s h || chgBusy s h then some (.refusedBusy, 7)
    else if clearBound s h then some (.conflict, 6)
    else if (s.die (dieOf h)).thermOff then some (.conflict, 8)
    else if breach != 0 then some (.conflict, breach)
    else none

/-- The switch point of a slice: new increment, phase and setpoint; chain retuned; regulator to ACQUIRE. A slice in LISTEN
loses lock (R72, R79). -/
def switchPoint (h : HeadId) (x : Sys) (s : State) : State :=
  let s := retune h x s
  let s := s.modXs h (fun b => { b with chg := b.chg.map (fun c => { c with toSwitch := c.toSwitch.set x false }) })
  let r := ((s.head h).xs.slice.get x).reg
  if r == .listen then afterRegulated h x (loseLock h x s)
  else if r == .track || r == .hold || r == .acquire then
    s.modXsSlice h x (fun v => { v with reg := .acquire, since := s.now })
  else s

/-- Admission of a carrier change (R79): what a change of the head brings (R45, R47, R100, R158), and the change of the
slices of a head in RUN; on any other head it completes at once. -/
def admitChange (h : HeadId) (r : XsReq) (job : Option Nat) (s : State) : State :=
  let m (x : Sys) : Bool := xsChanges (s.head h).xs r x && inRun s h && inUse s h x
  let mask : Pair Bool := ⟨m .sys1, m .sys2⟩
  let s := changeNotice h (endSwaps h (s.modXs h (xsStore r)))
  let s := abortHead h 3 s
  let s := s.modFe h (fun b => { b with route := { b.route with window := true } })
  let s := s.modXs h (fun b => { b with chg := some { mask := mask, toSwitch := mask, toRegulate := mask, job := job } })
  if mask.one || mask.two then
    let live := [Sys.sys1, Sys.sys2].filter mask.get
    let s := foldOver live (holdSettle h) s
    foldOver live (fun x s => if ((s.head h).xs.slice.get x).reg == .listen then switchPoint h x s else s) s
  else completeChange h s

/-- Admit a request that passed its tests. -/
def xsAdmit (h : HeadId) (r : XsReq) (job : Option Nat) (s : State) : State :=
  let b := (s.head h).xs
  if xsChanges b r .sys1 || xsChanges b r .sys2 then admitChange h r job s
  else completeJob job .ok 0 (s.modXs h (fun b => { xsStore r b with planResult := 0 }))

/-- Record a refusal of a head request in XS_STAT.PLAN_RESULT. -/
def xsRefuse (h : HeadId) (job : Option Nat) (st : Status) (code : Nat) (s : State) : State :=
  completeJob job st code (s.modXs h (fun b => { b with planResult := code }))

/-- XS_SET (R83). -/
def xsSet (p : List Byte) (seq : Nat) (s : State) : State :=
  match headArg p 0 with
  | none => refuse seq .conflict 1 s
  | some h =>
    let o := xsHeld (s.head h).xs
    let pick (x : Sys) (new old : Nat) : Nat := if (maskArg p 2).contains x then new else old
    let two (q : Pair Nat) (a b : Nat) : Pair Nat := ⟨pick .sys1 a q.one, pick .sys2 b q.two⟩
    let r : XsReq :=
      { freq := two o.freq (field p 4 4) (field p 8 4), amp := two o.amp (field p 12 2) (field p 14 2),
        phase := two o.phase (field p 16 2) (field p 18 2), ilim := two o.ilim (field p 20 1) (field p 21 1),
        tau := field p 22 1 }
    match xsTest h r s with
    | some (st, code) => xsRefuse h (some seq) st code s
    | none => xsAdmit h r (some seq) s

/-- A change of a head's plan words that is checked by R75 and otherwise takes effect at once. -/
def headPlan (h : HeadId) (f : XsHead → XsHead) (job : Option Nat) (s : State) : State :=
  let code := planBreach (s.modXs h f) h
  if code != 0 then xsRefuse h job .conflict code s
  else completeJob job .ok 0 (s.modXs h (fun b => { f b with planResult := 0 }))

/-- Defined bits of an XS_ADJ word. -/
def adjMask : Word := 0x80FF80FF

/-- XS_ADJ_SET (R83): eight entries, two to a word. -/
def xsAdjSet (p : List Byte) (seq : Nat) (s : State) : State :=
  match headArg p 0 with
  | none => refuse seq .conflict 1 s
  | some h => headPlan h (fun b => { b with adj := tabulate 4 (fun k => wordArg p (2 + 4 * k) &&& adjMask) }) (some seq) s

/-- XS_BANDS_SET (R83). -/
def xsBandsSet (p : List Byte) (seq : Nat) (s : State) : State :=
  match headArg p 0 with
  | none => refuse seq .conflict 1 s
  | some h => headPlan h (fun b => { b with bands := put 0 8 (field p 2 1) }) (some seq) s

/-- XS_LISTEN_RESET (R83): TRIM to 0, and acquisition anew. -/
def xsListenReset (p : List Byte) (seq : Nat) (s : State) : State :=
  withHead p 0 1 seq (fun h s =>
    let one (x : Sys) (s : State) : State :=
      if ((s.head h).xs.slice.get x).reg == .listen then
        anchorSlice h x ((loseLock h x s).modXsSlice h x (fun v => { v with trim := 0 }))
      else s
    done seq (foldOver (maskArg p 2) one s)) s

/-! ### Device-level requests (R77, R83) -/

/-- A change of device-level plan values, checked against every head; the outcome goes to XS_PLAN_STAT. -/
def devPlan (f : Dev → Dev) (job : Option Nat) (s : State) : State :=
  let s' := { s with dev := f s.dev }
  match planFirst s' with
  | some (h, code) =>
    completeJob job .conflict code { s with dev := { s.dev with planStat := put 16 8 h.val ||| put 0 4 code } }
  | none => completeJob job .ok 0 { s' with dev := { s'.dev with planStat := setFld s'.dev.planStat 0 4 0 } }

/-- A device-level request out of range. It breaks no head's carrier, and XS_PLAN_STAT.HEAD keeps its value (assumption
log 69, DESIGN CHOICE). -/
def devRange (job : Option Nat) (s : State) : State :=
  completeJob job .conflict 1 { s with dev := { s.dev with planStat := setFld s.dev.planStat 0 4 1 } }

/-- XS_PLAN with SEP_ADJ and SEP_HEAD clamped. -/
def planWord (w : Word) : Word :=
  put 24 8 (fld w 24 8) ||| put 12 12 (clamp 500 4095 (fld w 12 12)) ||| put 0 12 (clamp 1000 4095 (fld w 0 12))

/-- Defined bits of an XS_UBAND word. -/
def ubandMask : Word := 0xFFFF1FFF

/-- A request for a user band (R77). -/
def ubandRequest (k : Fin 16) (w : Word) (job : Option Nat) (s : State) : State :=
  if fld w 16 13 < fld w 0 13 then devRange job s
  else devPlan (fun d => { d with uband := tset d.uband k (w &&& ubandMask) }) job s

/-- XS_UBAND_SET (R83). -/
def xsUbandSet (p : List Byte) (seq : Nat) (s : State) : State :=
  if field p 0 1 < 16 then ubandRequest (Fin.ofNat 16 (field p 0 1)) (wordArg p 4) (some seq) s
  else devRange (some seq) s

/-- XS_PLAN_SET (R83). -/
def xsPlanSet (p : List Byte) (seq : Nat) (s : State) : State :=
  devPlan (fun d => { d with plan := planWord (wordArg p 0) }) (some seq) s

/-! ### Writes before sealing (R83) -/

/-- A pre-seal write handled as a head request: a refusal is counted as an error. -/
def xsWrite (h : HeadId) (o : Nat) (v : Word) (r : XsReq) (s : State) : State :=
  match xsTest h r s with
  | some (st, code) => hpErr 4 false (headOff h o) v (xsRefuse h none st code s)
  | none => xsAdmit h r none s

/-- A pre-seal write of XS_FREQn, XS_AMP or XS_PHASE, of ILIM or TAU, of XS_BANDS or an XS_ADJ word. -/
def xsPreSeal (h : HeadId) (o : Nat) (v : Word) (s : State) : State :=
  let b := (s.head h).xs
  let r := xsHeld b
  let plan (f : XsHead → XsHead) : State :=
    if planBreach (s.modXs h f) h != 0 then hpErr 4 false (headOff h o) v (headPlan h f none s) else headPlan h f none s
  if o = 0x100 then xsWrite h o v { r with freq := r.freq.set .sys1 (fld v 0 17) } s
  else if o = 0x104 then xsWrite h o v { r with freq := r.freq.set .sys2 (fld v 0 17) } s
  else if o = 0x108 then xsWrite h o v { r with amp := ⟨fld v 0 11, fld v 16 11⟩ } s
  else if o = 0x10C then xsWrite h o v { r with ilim := ⟨fld v 0 6, fld v 8 6⟩ } s
  else if o = 0x110 then xsWrite h o v { r with phase := ⟨fld v 0 16, fld v 16 16⟩ } s
  else if o = 0x114 then xsWrite h o v { r with tau := fld v 0 8 } s
  else if o = 0x118 then plan (fun b => { b with bands := put 0 8 (fld v 0 8) })
  else if 0x120 ≤ o ∧ o < 0x130 then
    plan (fun b => { b with adj := tset b.adj (Fin.ofNat 4 ((o - 0x120) / 4)) (v &&& adjMask) })
  else s

/-- A pre-seal write of XS_PLAN or a user band, checked like its command (R75). -/
def xsDevPreSeal (off : Nat) (v : Word) (s : State) : State :=
  let s' := if off = 0x41000 then devPlan (fun d => { d with plan := planWord v }) none s
            else ubandRequest (Fin.ofNat 16 ((off - 0x41010) / 4)) v none s
  if fld s'.dev.planStat 0 4 = 0 then s' else hpErr 4 false off v s'

/-! ### The regulator's events (R70, R72) -/

/-- The ramp ends at the preset drive. -/
def rampUpDone (h : HeadId) (x : Sys) (s : State) : State :=
  if ((s.head h).xs.slice.get x).reg == .rampUp then
    s.modXsSlice h x (fun v => { v with reg := .acquire, drive := v.preset, driveLog := [(s.now, v.preset)] })
  else s

def acquireDone (h : HeadId) (x : Sys) (s : State) : State :=
  if ((s.head h).xs.slice.get x).reg == .acquire then
    afterRegulated h x (s.modXsSlice h x (fun v => { v with reg := slowLoop s h }))
  else s

/-- ACQUIRE has run for 100 us since the ramp or the switch point began. -/
def acquireTimeout (h : HeadId) (x : Sys) (s : State) : State :=
  let v := (s.head h).xs.slice.get x
  if v.reg == .acquire && decide (v.since + us 100 ≤ s.now) then
    let s := s.modXsSlice h x (fun v => { v with reg := slowLoop s h })
    afterRegulated h x (faultNotice h (flagHead .xs h (sliceFlag 0 x) s))
  else s

def holdBegin (h : HeadId) (x : Sys) (s : State) : State :=
  if ((s.head h).xs.slice.get x).reg == .track && holdCond s h then
    s.modXsSlice h x (fun v => { v with reg := .hold })
  else s

def holdEnd (h : HeadId) (x : Sys) (s : State) : State :=
  if ((s.head h).xs.slice.get x).reg == .hold && !holdCond s h then
    s.modXsSlice h x (fun v => { v with reg := .track })
  else s

/-- More than 10 % off the setpoint for 20 ms in TRACK. -/
def regulationFault (h : HeadId) (x : Sys) (s : State) : State :=
  if ((s.head h).xs.slice.get x).reg == .track then faultNotice h (flagHead .xs h (sliceFlag 0 x) s) else s

/-- A driver that drives has clipped for 1 ms; the section state does not change (R70). -/
def clipFault (h : HeadId) (x : Sys) (s : State) : State :=
  let r := ((s.head h).xs.slice.get x).reg
  if regDrives r && r != .listen then
    flagHead .xs h (sliceFlag 2 x) (s.modXsSlice h x (fun v => { v with clip := true }))
  else s

/-- A driver that ramped down outside a route request reaches zero. -/
def rampDownDone (h : HeadId) (x : Sys) (s : State) : State :=
  if ((s.head h).xs.slice.get x).reg == .rampDown then
    withLines h (fun s => s.modXsSlice h x (fun v => { v with reg := .off, drive := 0, driveLog := [] })) s
  else s

/-- A carrier change reaches the switch point of a slice. -/
def carrierSwitch (h : HeadId) (x : Sys) (s : State) : State :=
  match (s.head h).xs.chg with
  | some c => if c.toSwitch.get x then withLines h (switchPoint h x) s else s
  | none => s

/-! ### The drive (R72, R84) -/

/-- The drives that a drive may follow: within 1 % of every drive of the last 10 ms; none where those leave no room. -/
def driveBounds (log : List (Nat × Nat)) (d : Nat) : Nat × Nat :=
  let lo := log.foldl (fun a e => max a ((99 * e.2 + 99) / 100)) 0
  let hi := log.foldl (fun a e => min a (101 * e.2 / 100)) (101 * d / 100)
  if lo ≤ hi then (lo, hi) else (d, d)

/-- The drive of the next epoch: the fast loop in ACQUIRE; in TRACK the slow loop of TAU, at most 1 % in any 10 ms; frozen
in HOLD; elsewhere as it is. -/
def nextDrive (tau : Nat) (vsns : Nat) (v : XsSlice) : Nat :=
  match v.reg with
  | .acquire => Config.regulator true tau v.amp vsns v.drive
  | .track =>
    let b := driveBounds v.driveLog v.drive
    max b.1 (min b.2 (Config.regulator false tau v.amp vsns v.drive))
  | _ => v.drive

/-- What an epoch measures of a slice's driver: XS_MEASn, the clip level, and the regulator's next drive. -/
def driveEpoch (a : DriveSample) (s : State) : State :=
  let tau := fld (s.head a.head).xs.reg 0 8
  s.modXsSlice a.head a.sys (fun v =>
    let d := nextDrive tau a.vsns v
    { v with meas := put 22 10 a.ipk ||| put 11 11 a.vdrv ||| put 0 11 a.vsns, clip := a.clip, drive := d
             driveLog := (s.now, d) :: v.driveLog.filter (fun e => decide (s.now ≤ e.1 + ms 10)) })

/-! ### Listening (R81, R82) -/

/-- The mean of the amplitudes heard in the last 1 ms, ten epochs. -/
def heardMean (l : List Nat) : Nat := if l.isEmpty then 0 else l.foldl (· + ·) 0 / l.length

/-- What an epoch hears of a slice in LISTEN: the loop steers the accumulator through TRIM, and the preset follows the mean
of the amplitudes heard. -/
def listenEpoch (l : ListenSample) (s : State) : State :=
  let v := (s.head l.head).xs.slice.get l.sys
  if v.reg == .listen then
    let mis := decide (20 < l.offHz.natAbs ∨ l.sensePct < 50 ∨ 150 < l.sensePct)
    let heard := (l.heard :: v.heard).take 10
    let preset := heardMean heard
    let dev := ndiff preset l.heard
    let good := decide (l.phErr.natAbs ≤ 20 ∧ 50 * dev ≤ l.heard) && !mis
    let s := anchorSlice l.head l.sys (s.modXsSlice l.head l.sys (fun v =>
      { v with trim := max (-1310720) (min 1310720 (Config.loopTrim v.trim l.phErr)), phErr := satInt 8 l.phErr,
               mismatch := mis, heard := heard, preset := preset, lockRun := if good then v.lockRun + 1 else 0 }))
    if decide (40 < l.phErr.natAbs ∨ l.heard < 25 * dev) then loseLock l.head l.sys s else s
  else s

/-- 100 consecutive epochs within the limits. -/
def listenLocked (h : HeadId) (x : Sys) (s : State) : State :=
  let v := (s.head h).xs.slice.get x
  if v.reg == .listen && !v.mismatch && decide (100 ≤ v.lockRun) then
    s.modXsSlice h x (fun v => { v with locked := true })
  else s

/-! ### Temperature (R71); `tj` is in units of 0.5 °C -/

/-- The heads of a die. -/
def dieHeads (d : DieId) : List HeadId := (List.range 32).map (fun i => Fin.ofNat 256 (32 * d.val + i))

/-- XS_DIEn. -/
def xsDie (d : DieId) (s : State) : Word :=
  let v := s.die d
  put 31 1 (b2n v.thermOff) ||| put 30 1 (b2n (decide (220 ≤ v.tj))) ||| put 16 10 (twos 10 v.tj) ||| put 0 16 v.pdrv

/-- The thermal flags of a die rise: source 4, trigger class 11 (R286, R312). -/
def thermRaise (d : DieId) (s : State) : State := trig 11 d.val (xsDie d s) (raise 4 s)

/-- The die reports its temperature: THERM_WARN stands while TJ is 110 °C or more, and THERM_OFF is given. -/
def thermStore (d : DieId) (off : Bool) (tj : Int) (s : State) : State :=
  s.modDie d (fun v => { v with thermWarn := decide (220 ≤ tj), thermOff := off, tj := tj })

/-- A flag of the die has risen from what it was. -/
def thermTell (d : DieId) (was : Die) (s : State) : State :=
  let v := s.die d
  if (v.thermWarn && !was.thermWarn) || (v.thermOff && !was.thermOff) then thermRaise d s else s

def thermSet (d : DieId) (off : Bool) (tj : Int) (s : State) : State := thermTell d (s.die d) (thermStore d off tj s)

def thermWarn (d : DieId) (tj : Int) (s : State) : State :=
  if dieUp s d && decide (220 ≤ tj) then thermSet d (s.die d).thermOff tj s else s

/-- THERM_OFF on one head: drivers ramp to zero, the passage aborts, and a head in RUN fails its sections. -/
def thermHead (h : HeadId) (s : State) : State :=
  withLines h (fun s =>
    let ramp (x : Sys) (s : State) : State := s.modXsSlice h x (fun b =>
      if regDrives b.reg && b.reg != .listen then { b with reg := .rampDown, since := s.now } else b)
    let run := inRun s h
    let s := abortHead h 15 (onBoth ramp s)
    if run then
      let s := onBoth (holdSettle h) (s.modXs h (fun b => { b with thermHeld := true }))
      faultNotice h (flagXs h 6 s)
    else s) s

/-- THERM_OFF. The flags of the heads come before the die's, for a happening of two trigger classes raises them in
ascending order (R312). -/
def thermOff (d : DieId) (tj : Int) (s : State) : State :=
  if dieUp s d && decide (250 ≤ tj) && !(s.die d).thermOff then
    thermTell d (s.die d) (foldOver (dieHeads d) thermHead (thermStore d true tj s))
  else s

/-- A head in RUN ramps up again as after a make; what waits for a head that listens may go
on (R71, R112). -/
def thermBack (h : HeadId) (s : State) : State :=
  if inRun s h then
    withLines h (fun s =>
      let up (x : Sys) (s : State) : State :=
        let r := ((s.head h).xs.slice.get x).reg
        if r == .off || r == .rampDown then makeSlice h x s else s
      let s := foldOver (usedSlices s h) up s
      foldOver (usedSlices s h) (fun x s =>
        if ((s.head h).xs.slice.get x).reg == .listen then afterRegulated h x s else s) s) s
  else s.modXs h (fun b => { b with thermHeld := false })

def thermOffClear (d : DieId) (tj : Int) (s : State) : State :=
  if dieUp s d && decide (tj < 210) then
    let was := (s.die d).thermOff
    let s := thermSet d false tj s
    if was then foldOver (dieHeads d) thermBack s else s
  else s

/-- What a boundary samples of a die: its dissipation, and its temperature with the effects it has (R71). -/
def dieReport (a : DieSample) (s : State) : State :=
  if dieUp s a.die then
    let s := s.modDie a.die (fun v => { v with pdrv := a.pdrv })
    if decide (250 ≤ a.tj) && !(s.die a.die).thermOff then thermOff a.die a.tj s
    else if decide (a.tj < 210) then thermOffClear a.die a.tj s
    else thermSet a.die (s.die a.die).thermOff a.tj s
  else s

/-! ### The meanings -/

def execXsSet (t : Nat) (c : Cmd) (s : State) : Host.Outcome State Fault Refusal :=
  .next (command 0x0220 false 24 0 c (xsSet c.payload) (s.advance t))

def execXsAdjSet (t : Nat) (c : Cmd) (s : State) : Host.Outcome State Fault Refusal :=
  .next (command 0x0221 false 18 0 c (xsAdjSet c.payload) (s.advance t))

def execXsBandsSet (t : Nat) (c : Cmd) (s : State) : Host.Outcome State Fault Refusal :=
  .next (command 0x0222 false 3 0 c (xsBandsSet c.payload) (s.advance t))

def execXsUbandSet (t : Nat) (c : Cmd) (s : State) : Host.Outcome State Fault Refusal :=
  .next (command 0x0223 false 8 0 c (xsUbandSet c.payload) (s.advance t))

def execXsPlanSet (t : Nat) (c : Cmd) (s : State) : Host.Outcome State Fault Refusal :=
  .next (command 0x0224 false 4 0 c (xsPlanSet c.payload) (s.advance t))

def execXsListenReset (t : Nat) (c : Cmd) (s : State) : Host.Outcome State Fault Refusal :=
  .next (command 0x0225 false 3 0 c (xsListenReset c.payload) (s.advance t))

def execCarrierSwitchPoint (t : Nat) (h : HeadId) (x : Sys) (s : State) : Host.Outcome State Fault Refusal :=
  .next (whenAwake (carrierSwitch h x) (s.advance t))

def execRegulatorRampUpDone (t : Nat) (h : HeadId) (x : Sys) (s : State) : Host.Outcome State Fault Refusal :=
  .next (whenAwake (rampUpDone h x) (s.advance t))

def execRegulatorAcquireDone (t : Nat) (h : HeadId) (x : Sys) (s : State) : Host.Outcome State Fault Refusal :=
  .next (whenAwake (acquireDone h x) (s.advance t))

def execRegulatorAcquireTimeout (t : Nat) (h : HeadId) (x : Sys) (s : State) : Host.Outcome State Fault Refusal :=
  .next (whenAwake (acquireTimeout h x) (s.advance t))

def execRegulatorHoldBegin (t : Nat) (h : HeadId) (x : Sys) (s : State) : Host.Outcome State Fault Refusal :=
  .next (whenAwake (holdBegin h x) (s.advance t))

def execRegulatorHoldEnd (t : Nat) (h : HeadId) (x : Sys) (s : State) : Host.Outcome State Fault Refusal :=
  .next (whenAwake (holdEnd h x) (s.advance t))

def execRegulationFault (t : Nat) (h : HeadId) (x : Sys) (s : State) : Host.Outcome State Fault Refusal :=
  .next (whenAwake (regulationFault h x) (s.advance t))

def execDriverClipFault (t : Nat) (h : HeadId) (x : Sys) (s : State) : Host.Outcome State Fault Refusal :=
  .next (whenAwake (clipFault h x) (s.advance t))

def execRegulatorRampDownDone (t : Nat) (h : HeadId) (x : Sys) (s : State) : Host.Outcome State Fault Refusal :=
  .next (whenAwake (rampDownDone h x) (s.advance t))

def execListenLocked (t : Nat) (h : HeadId) (x : Sys) (s : State) : Host.Outcome State Fault Refusal :=
  .next (whenAwake (listenLocked h x) (s.advance t))

def execThermWarn (t : Nat) (d : DieId) (tj : Int) (s : State) : Host.Outcome State Fault Refusal :=
  .next (whenAwake (thermWarn d tj) (s.advance t))

def execThermOff (t : Nat) (d : DieId) (tj : Int) (s : State) : Host.Outcome State Fault Refusal :=
  .next (whenAwake (thermOff d tj) (s.advance t))

def execThermOffClear (t : Nat) (d : DieId) (tj : Int) (s : State) : Host.Outcome State Fault Refusal :=
  .next (whenAwake (thermOffClear d tj) (s.advance t))

end Sys2Proof.Machine
end

