-- ==== Sys2Proof/Machine/Filter.lean ====
section
/-! DEFINITION. Conversion and filter chain (R86 to R117): filter changes, notches, bank swaps and cross-fades,
coefficient-bank slots, the track sample, and samples that come late. -/
namespace Sys2Proof.Machine

/-- Record an FLT outcome on its head and complete the command with the same code. -/
def fltRefuse (h : HeadId) (job : Option Nat) (st : Status) (code : Nat) (s : State) : State :=
  completeJob job st code (s.modFlt h (fun f => { f with result := code }))

/-! ### Filter changes (R110) -/

/-- Tests 2 and 3 of R110. -/
def fltBusyTest (h : HeadId) (s : State) : Option (Status × Nat) :=
  if routeBusy s h || chgBusy s h then some (.refusedBusy, 5)
  else if clearBound s h then some (.conflict, 4)
  else none

/-- An admitted filter change: R45, R158; values in force; the stages from FIR onwards cleared: decimation accumulator,
averages, FIR output, notch states, median window, resampler; delays; settle counters; OK at once. -/
def filterChange (h : HeadId) (f : FltHead → FltHead) (job : Option Nat) (s : State) : State :=
  let s := abortHead h 3 (changeNotice h s)
  let s := s.modFlt h (fun b => { f b with
    result := 0, seq := (b.seq + 1) % 256
    slice := (f b).slice.both (fun v => { v with dacc := 0, dsp := { Dsp.reset with iq := v.dsp.iq, held := v.dsp.held } }) })
  completeJob job .ok 0 (restartHead h s)

/-- What an FLT_SET asks for: slices named, and the values. -/
structure FltReq where
  mask   : List Sys
  med    : Pair Nat
  manual : Nat
  extra  : Nat
  delay  : Pair Nat
deriving DecidableEq, Repr

/-- FLT_CFG and FLT_DELAY with the request's values. -/
def fltStore (r : FltReq) (b : FltHead) : FltHead :=
  let med (x : Sys) : Nat := if r.mask.contains x then r.med.get x else fld b.cfg (8 * x.idx) 2
  let del (x : Sys) : Nat :=
    if r.manual = 1 ∧ r.mask.contains x = true then r.delay.get x else delayOf b.delay x
  { b with
    cfg := put 24 8 r.extra ||| put 16 1 r.manual ||| put 8 2 (med .sys2) ||| put 0 2 (med .sys1)
    delay := put 16 12 (del .sys2) ||| put 0 12 (del .sys1) }

/-- The request is a change of EXTRA alone: for every slice it names, MEDIAN, ALIGN and in MANUAL the DELAY equal the
values in force (R110). -/
def extraAlone (b : FltHead) (r : FltReq) : Bool :=
  let now := b.cfg
  let then_ := (fltStore r b).cfg
  r.mask.all (fun x =>
    medianOf now x == medianOf then_ x && decide (r.manual = b2n (manualAlign now)) &&
      (r.manual == 0 || r.delay.get x == delayOf b.delay x))

/-- The values are in range (R110 test 1). -/
def fltInRange (r : FltReq) : Bool :=
  decide (r.manual ≤ 1) && (r.manual == 0 || r.mask.all (fun x => decide (r.delay.get x ≤ 2000)))

/-- The outcome of the tests for a request. -/
def fltTest (h : HeadId) (r : FltReq) (s : State) : Option (Status × Nat) :=
  if extraAlone (s.head h).flt r then none
  else if !fltInRange r then some (.conflict, 1)
  else fltBusyTest h s

/-- Admit a request that passed. -/
def fltAdmit (h : HeadId) (r : FltReq) (job : Option Nat) (s : State) : State :=
  if extraAlone (s.head h).flt r then
    completeJob job .ok 0 (s.modFlt h (fun b => { b with cfg := setFld b.cfg 24 8 r.extra, result := 0 }))
  else filterChange h (fltStore r) job s

/-- FLT_SET (R115). -/
def fltSet (p : List Byte) (seq : Nat) (s : State) : State :=
  withHead p 0 1 seq (fun h s =>
    let r : FltReq :=
      { mask := maskArg p 2, med := ⟨field p 3 1 % 4, field p 3 1 / 4 % 4⟩, manual := field p 4 1,
        extra := field p 5 1, delay := ⟨field p 6 2, field p 8 2⟩ }
    match fltTest h r s with
    | some (st, code) => fltRefuse h (some seq) st code s
    | none => fltAdmit h r (some seq) s) s

/-- Notch sections for the named slices, with their test (R102, R110). -/
def notchRequest (h : HeadId) (mask : List Sys) (v : Pair (Vector Word 4)) (s : State) : Option (Status × Nat) :=
  if mask.all (fun x => notchesOk (v.get x) (s.freqOf h x)) then fltBusyTest h s else some (.conflict, 1)

/-- Store notch sections of the named slices. -/
def notchStore (mask : List Sys) (v : Pair (Vector Word 4)) (b : FltHead) : FltHead :=
  { b with notch := ⟨if mask.contains .sys1 then v.one else b.notch.one,
                     if mask.contains .sys2 then v.two else b.notch.two⟩ }

/-- FLT_NOTCH_SET (R104, R115). -/
def fltNotchSet (p : List Byte) (seq : Nat) (s : State) : State :=
  withHead p 0 1 seq (fun h s =>
    let n := field p 3 1
    let v : Pair (Vector Word 4) :=
      if n = 0xFF then ⟨tabulate 4 (fun k => wordArg p (4 + 4 * k)), tabulate 4 (fun k => wordArg p (20 + 4 * k))⟩
      else ⟨notchPreset n, notchPreset n⟩
    if 3 < n ∧ n ≠ 0xFF then fltRefuse h (some seq) .conflict 1 s
    else
      match notchRequest h (maskArg p 2) v s with
      | some (st, code) => fltRefuse h (some seq) st code s
      | none => filterChange h (notchStore (maskArg p 2) v) (some seq) s) s

/-! ### Bank swaps (R97 to R101) -/

/-- The targets of a swap, with the slices they are for. -/
def swapTargets (w : Swap) : List (Sys × Byte) :=
  (match w.one with
   | some c => [(Sys.sys1, c)]
   | none => []) ++
  (match w.two with
   | some c => [(Sys.sys2, c)]
   | none => [])

/-- The slot of a RAM bank code. -/
def slotOf (s : State) (h : HeadId) (code : Byte) : BankSlot := tget (s.die (dieOf h)).slots (Fin.ofNat 128 code.toNat)

/-- A slot is owned by a slice of its die. -/
def ownedBy (b : BankSlot) (h : HeadId) (x : Sys) : Bool := b.owned && b.sys == x && b.head == h.val % 32

/-- A target's GD equals that of the bank it replaces. -/
def neutral (s : State) (h : HeadId) (t : Sys × Byte) : Bool :=
  let d := s.die (dieOf h)
  gdOf d t.2 == gdOf d ((s.head h).flt.slice.get t.1).act

/-- Tests 4 and 5 of R97. -/
def swapLateTest (h : HeadId) (w : Swap) (s : State) : Option (Status × Nat) :=
  if routeBusy s h || chgBusy s h then some (.refusedBusy, 5)
  else if clearBound s h && !(swapTargets w).all (neutral s h) then some (.conflict, 4)
  else none

/-- The tests of R97 in order. -/
def swapTest (h : HeadId) (w : Swap) (s : State) : Option (Status × Nat) :=
  let ts := swapTargets w
  if ts.any (fun t => decide (0x81 < t.2.toNat)) || decide (w.fade < 16 ∨ 1024 < w.fade) then some (.conflict, 1)
  else if ts.any (fun t => decide (t.2.toNat < 128) && !ownedBy (slotOf s h t.2) h t.1) then some (.conflict, 2)
  else if ts.any (fun t =>
      let c := rateClass (s.firOf h t.1)
      decide (t.2.toNat < 128) && !decide ((slotOf s h t.2).cmin ≤ c ∧ c ≤ (slotOf s h t.2).cmax)) then
    some (.conflict, 3)
  else swapLateTest h w s

/-- Begin a swap that passed its tests: a timing swap applies at once; a timing-neutral one sets NEXT, and a slice whose
settle counter is running takes its target at once. -/
def startSwap (h : HeadId) (w : Swap) (s : State) : State :=
  if (swapTargets w).all (neutral s h) then
    let one (t : Sys × Byte) (s : State) : State :=
      s.modFltSlice h t.1 (fun v =>
        if settled s h t.1 then { v with next := t.2, fadeAt := none } else { v with act := t.2, next := 0xFF })
    let s := foldOver (swapTargets w) one s
    let f := (s.head h).flt
    if f.slice.one.next == 0xFF && f.slice.two.next == 0xFF then swapDone h w s
    else s.modFlt h (fun f => { f with fading := some w })
  else
    let s := abortHead h 3 (changeNotice h s)
    swapDone h w (restartHead h (s.modFlt h (takeTargets w)))

/-- Show a swap in QUEUED. -/
def showQueued (w : Swap) (f : FltHead) : FltHead :=
  { f with slice := ⟨{ f.slice.one with queued := w.one.getD 0xFF }, { f.slice.two with queued := w.two.getD 0xFF }⟩ }

/-- Admit a swap: start it, or queue it behind the fade in progress; the newer replaces a queued one (R99). A queued timing
swap gives the notice of R45 when it starts (assumption log 70, DESIGN CHOICE). -/
def admitSwap (h : HeadId) (w : Swap) (s : State) : State :=
  let f := (s.head h).flt
  if f.fading.isSome then
    let s :=
      match f.queue with
      | some q => fltRefuse h q.job .conflict 6 (flagFlt h 9 s)
      | none => s
    s.modFlt h (fun f => showQueued w { f with queue := some w })
  else startSwap h w s

/-- FLT_SWAP (R97). -/
def fltSwap (p : List Byte) (seq : Nat) (s : State) : State :=
  withHead p 0 1 seq (fun h s =>
    let pick (x : Sys) (i : Nat) : Option Byte :=
      if (maskArg p 2).contains x then some (BitVec.ofNat 8 (field p i 1)) else none
    let w : Swap := { one := pick .sys1 3, two := pick .sys2 4, fade := field p 6 2, job := some seq }
    match swapTest h w s with
    | some (st, code) => fltRefuse h (some seq) st code s
    | none => admitSwap h w s) s

/-- A waiting fade starts at the next FIR output (R98). -/
def fadeStart (h : HeadId) (x : Sys) (s : State) : State :=
  let v := (s.head h).flt.slice.get x
  if v.next != 0xFF && v.fadeAt.isNone then s.modFltSlice h x (fun v => { v with fadeAt := some s.now }) else s

/-- The queued swap runs tests 4 and 5 again and starts, or completes with their outcome (R99). -/
def dequeueSwap (h : HeadId) (s : State) : State :=
  match (s.head h).flt.queue with
  | none => s
  | some q =>
    let s := s.modFlt h (fun f => { f with queue := none, slice := f.slice.both (fun v => { v with queued := 0xFF }) })
    match swapLateTest h q s with
    | some (st, code) => fltRefuse h q.job st code s
    | none => startSwap h q s

/-- A fade has run for FADE FIR outputs: ACT takes the target; with the last named slice the swap completes (R98, R99). -/
def fadeComplete (h : HeadId) (x : Sys) (s : State) : State :=
  let f := (s.head h).flt
  let v := f.slice.get x
  match f.fading, v.fadeAt with
  | some w, some t0 =>
    if v.next != 0xFF && decide (w.fade * 10 ^ 12 ≤ (s.now - t0) * s.firOf h x) then
      let s := s.modFltSlice h x (fun v => { v with act := v.next, next := 0xFF, fadeAt := none })
      if ((s.head h).flt.slice.get x.other).next == 0xFF then
        dequeueSwap h (swapDone h w (s.modFlt h (fun f => { f with fading := none })))
      else s
    else s
  | _, _ => s

/-! ### Coefficient-bank slots (R94, R117) -/

/-- A code is the ACT, or the NEXT or QUEUED, bank of a slice. -/
def bankAct (s : State) (h : HeadId) (x : Sys) (k : Nat) : Bool := ((s.head h).flt.slice.get x).act.toNat == k
def bankPending (s : State) (h : HeadId) (x : Sys) (k : Nat) : Bool :=
  let v := (s.head h).flt.slice.get x
  v.next.toNat == k || v.queued.toNat == k

/-- The owner of a slot. -/
def slotHead (d : DieId) (b : BankSlot) : HeadId := Fin.ofNat 256 (32 * d.val + b.head)

/-- Test 3 of R94 fails: the slot is in use by its owner. -/
def slotInUse (s : State) (d : DieId) (k : Fin 128) : Bool :=
  let b := tget (s.die d).slots k
  b.owned && (bankAct s (slotHead d b) b.sys k.val || bankPending s (slotHead d b) b.sys k.val)

/-- The outcome of a load or free in FLT_DIE_STAT. -/
def bankOutcome (d : DieId) (slot : Nat) (seq : Nat) (st : Status) (code : Nat) (s : State) : State :=
  complete seq st code [] (s.modDie d (fun v => { v with bankRes := code, bankSlot := slot }))

/-- Signed value of a coefficient. -/
def coefInt (c : BitVec 20) : Int := c.toInt

/-- Σ h and Σ k × h. -/
def coefSum (l : List (BitVec 20)) : Int := (l.map coefInt).foldl (· + ·) 0
def coefMoment : Nat → List (BitVec 20) → Int
  | _, [] => 0
  | k, c :: cs => (k : Int) * coefInt c + coefMoment (k + 1) cs

/-- GD in quarter taps: 4 × Σ(k × h) / Σh, rounded, in 8 bits (assumption log 34). -/
def bankGd (l : List (BitVec 20)) : Byte :=
  let sum := coefSum l
  BitVec.ofNat 8 (max 0 (min 255 ((8 * coefMoment 0 l + sum) / (2 * sum)))).toNat

/-- FLT_BANK_LOAD. -/
def fltBankLoad (p : List Byte) (seq : Nat) (s : State) : State :=
  match dieArg p 0 with
  | none => refuse seq .conflict 1 s
  | some d =>
    let slot := field p 1 1
    let sl := field p 3 1
    let x : Sys := if sl = 2 then .sys2 else .sys1
    let h : HeadId := Fin.ofNat 256 (32 * d.val + field p 2 1)
    let k : Fin 128 := Fin.ofNat 128 slot
    let coef := (List.range 64).map (fun i => BitVec.ofNat 20 (field p (8 + 4 * i) 4))
    if !dieUp s d then refuse seq .conflict 1 s
    else if 127 < slot ∨ 31 < field p 2 1 ∨ sl = 0 ∨ 2 < sl ∨ 1 < field p 4 1 ∨ 7 < field p 6 1 ∨
        field p 6 1 < field p 5 1 then bankOutcome d slot seq .conflict 1 s
    else if (tget (s.die d).slots k).owned && !ownedBy (tget (s.die d).slots k) h x then
      bankOutcome d slot seq .conflict 2 s
    else if slotInUse s d k then bankOutcome d slot seq .conflict 7 s
    else if coefSum coef < 519045 ∨ 529531 < coefSum coef then bankOutcome d slot seq .conflict 8 s
    else
      let b : BankSlot :=
        { loaded := true, kind := field p 4 1 == 1, cmax := field p 6 1, cmin := field p 5 1, gd := bankGd coef,
          owned := true, sys := x, head := field p 2 1, coef := coef }
      bankOutcome d slot seq .ok 0 (s.modDie d (fun v => { v with slots := tset v.slots k b }))

/-- FLT_BANK_FREE. A slot released is empty again (assumption log 34). -/
def fltBankFree (p : List Byte) (seq : Nat) (s : State) : State :=
  match dieArg p 0 with
  | none => refuse seq .conflict 1 s
  | some d =>
    let slot := field p 1 1
    let k : Fin 128 := Fin.ofNat 128 slot
    if !dieUp s d then refuse seq .conflict 1 s
    else if 127 < slot then bankOutcome d slot seq .conflict 1 s
    else if slotInUse s d k then bankOutcome d slot seq .conflict 7 s
    else bankOutcome d slot seq .ok 0 (s.modDie d (fun v => { v with slots := tset v.slots k BankSlot.reset }))

/-- The FLT_SLOT word of a slot (R117). -/
def slotWord (s : State) (d : DieId) (k : Fin 128) : Word :=
  let b := tget (s.die d).slots k
  let h := slotHead d b
  put 31 1 (b2n b.loaded) ||| put 30 1 (b2n b.kind) ||| put 27 3 b.cmax ||| put 24 3 b.cmin ||| put 16 8 b.gd.toNat |||
    put 15 1 (b2n b.owned) ||| put 13 1 b.sys.idx ||| put 8 5 b.head |||
    put 1 1 (b2n (b.owned && bankPending s h b.sys k.val)) ||| put 0 1 (b2n (b.owned && bankAct s h b.sys k.val))

/-- Coefficients in load format; a slot without any reads zeros. -/
def coefBytes (b : BankSlot) : List Byte :=
  (List.range 64).flatMap (fun i => le 4 (twos 32 (coefInt ((b.coef[i]?).getD 0))))

/-- FLT_BANK_READ. A die above 7, a slot above 127 and a die that is off are refused (assumption log 71, DESIGN CHOICE). -/
def fltBankRead (p : List Byte) (seq : Nat) (s : State) : State :=
  match dieArg p 0 with
  | none => refuse seq .conflict 1 s
  | some d =>
    if !dieUp s d || decide (127 < field p 1 1) then refuse seq .conflict 1 s
    else
      let k : Fin 128 := Fin.ofNat 128 (field p 1 1)
      complete seq .ok 0 (leWord (slotWord s d k) ++ coefBytes (tget (s.die d).slots k)) s

/-! ### Writes before sealing (R115) -/

/-- A pre-seal write of FLT_CFG, FLT_DELAY, FLT_BANKn, FLT_FADE or a notch section. In AUTO a write of FLT_DELAY changes
nothing (R109). -/
def fltPreSeal (h : HeadId) (o : Nat) (v : Word) (s : State) : State :=
  let b := (s.head h).flt
  let err (st : Status) (code : Nat) : State := hpErr 4 false (headOff h o) v (fltRefuse h none st code s)
  let both : List Sys := [.sys1, .sys2]
  let held : Pair Nat := ⟨delayOf b.delay .sys1, delayOf b.delay .sys2⟩
  let swap (x : Sys) : State :=
    let code := some (BitVec.ofNat 8 (fld v 0 8))
    let w : Swap := { one := if x = .sys1 then code else none, two := if x = .sys2 then code else none,
                      fade := fld b.fade 0 11, job := none }
    match swapTest h w s with
    | some (st, c) => err st c
    | none => admitSwap h w s
  let notch (x : Sys) (k : Fin 4) : State :=
    let n := b.notch.mod x (fun w => tset w k v)
    match notchRequest h [x] n s with
    | some (st, c) => err st c
    | none => filterChange h (notchStore [x] n) none s
  if o = 0x200 then
    let r : FltReq := { mask := both, med := ⟨fld v 0 2, fld v 8 2⟩, manual := fld v 16 1, extra := fld v 24 8,
                        delay := held }
    match fltTest h r s with
    | some (st, c) => err st c
    | none => fltAdmit h r none s
  else if o = 0x204 then
    if manualAlign b.cfg then
      let r : FltReq := { mask := both, med := ⟨fld b.cfg 0 2, fld b.cfg 8 2⟩, manual := 1, extra := fld b.cfg 24 8,
                          delay := ⟨fld v 0 12, fld v 16 12⟩ }
      if !fltInRange r then err .conflict 1
      else
        match fltBusyTest h s with
        | some (st, c) => err st c
        | none => filterChange h (fltStore r) none s
    else s
  else if o = 0x208 then swap .sys1
  else if o = 0x20C then swap .sys2
  else if o = 0x210 then s.modFlt h (fun b => { b with fade := put 0 11 (clamp 16 1024 (fld v 0 11)) })
  else if 0x220 ≤ o ∧ o < 0x230 then notch .sys1 (Fin.ofNat 4 ((o - 0x220) / 4))
  else if 0x230 ≤ o ∧ o < 0x240 then notch .sys2 (Fin.ofNat 4 ((o - 0x230) / 4))
  else s

/-! ### The track sample (R87 to R91, R107, R111, R113) -/

/-- The instant of track tick m (R87). -/
def tickAt (s : State) (m : Nat) : Nat := s.epc.start + us 10 * m

/-- The input span of the track sample at an instant (R111). -/
def inputSpan (s : State) (h : HeadId) (x : Sys) (tm : Nat) : Nat × Nat :=
  let f := (s.head h).flt
  let hi := tm - delayOf f.delay x * 100000
  (hi - spanLen (s.firOf h x) (medianOf f.cfg x), hi)

/-- The span touches what marks samples invalid: an unbridged gap, or the marking of R63. -/
def spanBad (f : FltSlice) (lo hi : Nat) : Bool :=
  f.badSpans.any (touches lo hi) ||
    (match f.gap with
     | some g => g.unbridged && g.stop.isNone && decide (g.start ≤ hi)
     | none => false) ||
    (match f.healthMark with
     | some t => decide (t < hi + us 1)
     | none => false)

/-- The span touches a bridged gap. -/
def spanBridged (f : FltSlice) (lo hi : Nat) : Bool :=
  f.bridgeSpans.any (touches lo hi) ||
    (match f.gap with
     | some g => !g.unbridged && g.stop.isNone && decide (g.start ≤ hi)
     | none => false)

/-- The settle counters of a head at a tick: ticks strictly after the start count, up to the target. -/
def countTick (s : State) (tm : Nat) (h : HeadId) : Head :=
  let hd := s.head h
  let one (x : Sys) (v : FltSlice) : FltSlice :=
    if v.settleHeld || decide (tm ≤ v.settleStart) then v
    else { v with settleCount := min (targetOf s h x) (v.settleCount + 1) }
  { hd with flt := { hd.flt with slice := ⟨one .sys1 hd.flt.slice.one, one .sys2 hd.flt.slice.two⟩ } }

/-- The parameters of a slice's stages at tick tm. -/
def dspIn (s : State) (h : HeadId) (x : Sys) (tm : Nat) : DspIn :=
  let f := (s.head h).flt
  let v := f.slice.get x
  let d := s.die (dieOf h)
  let fir := s.firOf h x
  { fir := fir, freq := s.freqOf h x, m := medianOf f.cfg x, delay := delayOf f.delay x * 100000, settle := v.settleStart,
    resetAt := s.resetAt, tm := tm, xs := (s.head h).xs.slice.get x, act := bankCoefs d v.act fir,
    next := bankCoefs d v.next fir,
    fade := match f.fading, v.fadeAt with
      | some w, some _ => some w.fade
      | _, _ => none
    notch := (f.notch.get x).toList,
    gaps := v.bridgeSpans ++ (match v.gap with
      | some g => if g.unbridged then [] else [(g.start, g.stop.getD tm)]
      | none => []) }

/-- A slice's track sample at tick tm; the head runs the slice (R86). Until the resampler's position is set after a settle
start, MAG is a free value (assumption log 72). -/
def takeSample (tm : Nat) (a : SliceSample) (s : State) : State :=
  if inRun s a.head && inUse s a.head a.sys then
    let sp := inputSpan s a.head a.sys tm
    let ok := settled s a.head a.sys
    let p := dspIn s a.head a.sys tm
    let v := (s.head a.head).flt.slice.get a.sys
    let r := runChain p a.bits v.cic v.dacc v.dsp
    let dsp := rsmpTick p.fir v.dsp.rsmp r.2.2
    let mag := dsp.mag?.getD (fld (Config.live 0x260 s.free) 0 20)
    let s := { s with free := s.free + 1 }.modFltSlice a.head a.sys (fun v =>
      { v with
        sample := { valid := !spanBad v sp.1 sp.2, settled := ok, bridged := spanBridged v sp.1 sp.2, mag := mag }
        sampleAt := tm + 1
        dacc := r.2.1, cic := r.1, dsp := dsp
        badSpans := v.badSpans.filter (fun g => decide (tm < g.2 + ms 2))
        bridgeSpans := v.bridgeSpans.filter (fun g => decide (tm < g.2 + ms 2)) })
    let p := ((s.head a.head).flt.slice.get a.sys).sample
    s.modTrnSlice a.head a.sys (fun v =>
      { v with okMags := if p.valid && p.settled then (p.mag :: v.okMags).take 10000 else [] })
  else s

/-- The latest tick's sample of a slice has missed its limit, the tick plus 4.0 us (R206). -/
def missedSample (s : State) (h : HeadId) (x : Sys) : Bool :=
  inRun s h && inUse s h x && decide (0 < s.epc.tickAt) && ((s.head h).flt.slice.get x).sampleAt != s.epc.tickAt &&
    decide (s.epc.tickAt + us 4 ≤ s.now + 1)

/-- The unbridged gap of a missing sample: the 10 us of input before its tick, merged as R113 says, or the gap that runs
(assumption log 73, DESIGN CHOICE for its extent). -/
def lateGap (tm : Nat) (ok : Bool) (f : FltSlice) : FltSlice :=
  let runs := match f.gap with
    | some g => g.stop.isNone
    | none => false
  let f := openGap (tm - us 10) ok f
  match f.gap with
  | some g =>
    if runs then { f with gap := some { g with unbridged := true } }
    else { f with gap := some { g with unbridged := true, stop := some tm }, badSpans := (g.start, tm) :: f.badSpans
                  gapLast := satNat 8 ((tm - g.start) / 100000) }
  | none => f

/-- A sample that misses its limit is handled as an unbridged gap (R206, R114). -/
def sampleLate (h : HeadId) (x : Sys) (s : State) : State :=
  if missedSample s h x then
    let ok := settled s h x
    let s := flagEpc (bits 4 1) { s with epc := { s.epc with
      fdLate := s.epc.fdLate ||| bits (dieOf h).val 1, fdLateEp := true } }
    let s := flagHead .flt h (sliceFlag 2 x) s
    let s := s.modFltSlice h x (fun v => { v with
      sample := { valid := false, settled := false, bridged := false, mag := v.sample.mag }
      sampleAt := s.epc.tickAt })
    let s := s.modFltSlice h x (lateGap (s.epc.tickAt - 1) ok)
    let s := s.modTrnSlice h x (fun v => { v with okMags := [] })
    let s := restartSettle h x (abortHead h 2 s)
    if ok then faultNotice h s else s
  else s

/-! ### The meanings -/

def execFltSet (t : Nat) (c : Cmd) (s : State) : Host.Outcome State Fault Refusal :=
  .next (command 0x0230 false 12 0 c (fltSet c.payload) (s.advance t))

def execFltNotchSet (t : Nat) (c : Cmd) (s : State) : Host.Outcome State Fault Refusal :=
  .next (command 0x0231 false 36 0 c (fltNotchSet c.payload) (s.advance t))

def execFltSwap (t : Nat) (c : Cmd) (s : State) : Host.Outcome State Fault Refusal :=
  .next (command 0x0232 true 8 0 c (fltSwap c.payload) (s.advance t))

def execFltBankLoad (t : Nat) (c : Cmd) (s : State) : Host.Outcome State Fault Refusal :=
  .next (command 0x0233 true 264 0 c (fltBankLoad c.payload) (s.advance t))

def execFltBankFree (t : Nat) (c : Cmd) (s : State) : Host.Outcome State Fault Refusal :=
  .next (command 0x0234 false 2 0 c (fltBankFree c.payload) (s.advance t))

def execFltBankRead (t : Nat) (c : Cmd) (s : State) : Host.Outcome State Fault Refusal :=
  .next (command 0x0235 true 2 260 c (fltBankRead c.payload) (s.advance t))

def execFadeStart (t : Nat) (h : HeadId) (x : Sys) (s : State) : Host.Outcome State Fault Refusal :=
  .next (whenAwake (fadeStart h x) (s.advance t))

def execFadeComplete (t : Nat) (h : HeadId) (x : Sys) (s : State) : Host.Outcome State Fault Refusal :=
  .next (whenAwake (fadeComplete h x) (s.advance t))

def execTrackSampleLate (t : Nat) (h : HeadId) (x : Sys) (s : State) : Host.Outcome State Fault Refusal :=
  .next (whenAwake (sampleLate h x) (s.advance t))

end Sys2Proof.Machine
end

