-- ==== Sys2Proof/Machine/Comparator.lean ====
section
/-! DEFINITION. Comparators and the trip path (R118 to R143, R374): presence with occultation, the health window, brake
recognition, staged thresholds, the comparator test, rail faults, presence episodes and the cross-check. -/
namespace Sys2Proof.Machine

/-! ### Values in force -/

def assertThr (s : State) (h : HeadId) (x : Sys) : Nat := fld ((s.head h).cmp.force.pres.get x) 0 10
def releaseThr (s : State) (h : HeadId) (x : Sys) : Nat := fld ((s.head h).cmp.force.pres.get x) 16 10
def lowThr (s : State) (h : HeadId) (x : Sys) : Nat := fld ((s.head h).cmp.force.health.get x) 0 10
def highThr (s : State) (h : HeadId) (x : Sys) : Nat := fld ((s.head h).cmp.force.health.get x) 16 10
def hhyst (s : State) (h : HeadId) : Nat := fld (s.head h).cmp.force.cfg 24 5

/-- OCC in us; 0 is treated as 1 (R123). -/
def occUs (s : State) (h : HeadId) (x : Sys) : Nat := max 1 (fld (s.head h).cmp.force.cfg (8 * x.idx) 8)

/-- Recognition hold; 0 is treated as 1 (R125). -/
def brakeHoldOf (s : State) (h : HeadId) : Nat := ms 10 * max 1 (fld (s.head h).cmp.force.brake 10 6)

/-- Envelope delay of a slice (R118). -/
def envDelay (s : State) (h : HeadId) (x : Sys) : Nat :=
  match envbwOf (s.head h).cmp.force.cfg x with
  | 0 => us 160
  | 1 => us 80
  | _ => us 40

/-- The comparators of a slice act on the live envelope: in use, powered, not forced, not under test, not held (R138,
R139). -/
def cmpLive (s : State) (h : HeadId) (x : Sys) : Bool :=
  let c := (s.head h).cmp.slice.get x
  headUp s h && inUse s h x && !c.forced && !c.testing && c.envHold.isNone

/-! ### Presence episodes (R374) -/

def startEpisode (h : HeadId) (s : State) : State :=
  if (s.head h).cmp.episode.isSome then s
  else activity h (s.modCmp h (fun c => { c with episode := some s.now, trips := (c.trips + 1) % 65536 }))

/-- An episode without a transit reported. -/
def noTransit (h : HeadId) (s : State) : State :=
  let s := s.modCmp h (fun c => { c with notrn := (c.notrn + 1) % 65536 })
  let s :=
    if fld s.rcd.cfg 0 2 = 2 && bit s.rcd.cfg 3 && fld s.rcd.cfg 8 8 == h.val then
      { s with rcd := { s.rcd with survey := { s.rcd.survey with top := s.rcd.survey.top + 1 } } }
    else s
  flagCmp h 9 s

/-- Judge one ended episode: a transit is reported if an ACCEPTED or REJECTED passage ended at or after its start. -/
def judgeOne (h : HeadId) (e : Nat × Nat) (s : State) : State :=
  if (s.head h).trn.issuedEnds.any (fun t => decide (e.1 ≤ t)) then s else noTransit h s

/-- Judge what is due: HOLD_h after the episode's end, with the transit logic idle. -/
def judgeEpisodes (h : HeadId) (s : State) : State :=
  if trnIdle s h then
    let hold := holdOf s h
    let due := (s.head h).cmp.judge.filter (fun e => decide (e.2 + hold ≤ s.now))
    let left := (s.head h).cmp.judge.filter (fun e => !decide (e.2 + hold ≤ s.now))
    let s := foldOver due (judgeOne h) (s.modCmp h (fun c => { c with judge := left }))
    if left.isEmpty && (s.head h).cmp.episode.isNone then
      s.modTrn h (fun t => { t with issuedEnds := t.issuedEnds.filter (fun e => decide (s.now ≤ e)) })
    else s
  else s

/-! ### Presence (R121, R123, R130) -/

/-- Note a crossing for the cross-check of R130: the instant on the envelope's input and the threshold. -/
def noteCheck (h : HeadId) (x : Sys) (thr : Nat) (s : State) : State :=
  let at_ := s.now - envDelay s h x
  s.modCmpSlice h x (fun c => { c with checks := c.checks ++ [(at_, thr)] })

/-- An assertion edge: asserted at once, and the occultation timer starts anew. -/
def presenceAssert (h : HeadId) (x : Sys) (e : Nat) (s : State) : State :=
  if cmpLive s h x && decide (e ≤ assertThr s h x) then
    withLines h (fun s =>
      let s := s.modCmpSlice h x (fun c => { c with asserted := true, occEnd := some (s.now + us (occUs s h x)) })
      startEpisode h (noteCheck h x (assertThr s h x) s)) s
  else s

/-- Release a presence comparator. -/
def releasePresence (h : HeadId) (x : Sys) (s : State) : State :=
  withLines h (fun s =>
    let s := s.modCmpSlice h x (fun c => { c with asserted := false, occEnd := none })
    endEpisode h (noteCheck h x (releaseThr s h x) s)) s

/-- The occultation timer of a slice has ended. -/
def occDone (s : State) (h : HeadId) (x : Sys) : Bool :=
  match ((s.head h).cmp.slice.get x).occEnd with
  | some t => decide (t ≤ s.now)
  | none => true

def presenceRelease (h : HeadId) (x : Sys) (e : Nat) (s : State) : State :=
  if cmpLive s h x && ((s.head h).cmp.slice.get x).asserted && occDone s h x && decide (releaseThr s h x ≤ e) then
    releasePresence h x s
  else s

/-- The occultation timer ends; presence releases at once if the envelope is at or above RELEASE. -/
def occultationExpiry (h : HeadId) (x : Sys) (e : Nat) (s : State) : State :=
  let c := (s.head h).cmp.slice.get x
  if c.occEnd.isSome && occDone s h x then
    if c.asserted && !c.forced && !c.testing && inUse s h x && headUp s h && decide (releaseThr s h x ≤ e) then
      releasePresence h x s
    else s.modCmpSlice h x (fun c => { c with occEnd := none })
  else s

/-- The cross-check of R130 at a track tick: 5 % of full scale is 40 envelope units, and 800 units are MAG 786,432. -/
def plausTick (tm : Nat) (h : HeadId) (x : Sys) (s : State) : State :=
  let lat := latencyOf s h x
  let due (c : Nat × Nat) : Bool := decide (c.1 * lat.2 + lat.1 ≤ tm * lat.2)
  let p := ((s.head h).flt.slice.get x).sample
  let one (c : Nat × Nat) (s : State) : State :=
    let off := (max (p.mag * 800) (c.2 * 786432) - min (p.mag * 800) (c.2 * 786432))
    if !p.valid then s
    else if 40 * 786432 < off then
      let s := s.modCmpSlice h x (fun c => { c with plaus := min 4 (c.plaus + 1) })
      if 4 ≤ ((s.head h).cmp.slice.get x).plaus then flagHead .cmp h (sliceFlag 10 x) s else s
    else s.modCmpSlice h x (fun c => { c with plaus := 0 })
  let all := ((s.head h).cmp.slice.get x).checks
  foldOver (all.filter due) one (s.modCmpSlice h x (fun c => { c with checks := all.filter (fun e => !due e) }))

/-! ### The health window (R63, R121, R124) -/

def sideOut (c : CmpSlice) : Side → Bool
  | .low => c.lowOut
  | .high => c.highOut

def setSide (v : Bool) (side : Side) (c : CmpSlice) : CmpSlice :=
  match side with
  | .low => { c with lowOut := v }
  | .high => { c with highOut := v }

/-- The envelope takes a side of the window out. -/
def outCond (s : State) (h : HeadId) (x : Sys) (e : Nat) : Side → Bool
  | .low => decide (e ≤ lowThr s h x)
  | .high => decide (highThr s h x ≤ e)

/-- The envelope meets a side's return condition. -/
def backCond (s : State) (h : HeadId) (x : Sys) (e : Nat) : Side → Bool
  | .low => decide (lowThr s h x + hhyst s h ≤ e)
  | .high => decide (e + hhyst s h ≤ highThr s h x)

/-- A side of the window trips. The window that was wholly in and is outside the expected-trip window is a wiring
fault. -/
def healthTrip (h : HeadId) (x : Sys) (side : Side) (e : Nat) (s : State) : State :=
  if cmpLive s h x && outCond s h x e side then
    withLines h (fun s =>
      let fresh := !healthOut s h x && !(s.head h).fe.route.window
      let s := s.modCmpSlice h x (setSide true side)
      if fresh then wiringFault h x s else s) s
  else s

/-- A side of the window returns; once both are in, the marking of R63 ends and the settle counter may count. -/
def healthReturn (h : HeadId) (x : Sys) (side : Side) (e : Nat) (s : State) : State :=
  if cmpLive s h x && sideOut ((s.head h).cmp.slice.get x) side && backCond s h x e side then
    withLines h (fun s =>
      let s := s.modCmpSlice h x (setSide false side)
      if healthOut s h x then s
      else if ((s.head h).flt.slice.get x).healthMark.isSome then
        releaseSettle h x (s.modFltSlice h x (fun f => { f with healthMark := none }))
      else s) s
  else s

/-! ### The forced state ends (R139, R374) -/

/-- The settle counter has reached its target: the forced state ends with every comparator that does not meet its return
condition still restrictive, and the expected-trip window may close. -/
def settleComplete (h : HeadId) (x : Sys) (e : Nat) (s : State) : State :=
  if settled s h x then
    let c := (s.head h).cmp.slice.get x
    let s :=
      if c.forced && !c.testing then
        withLines h (fun s =>
          let s := s.modCmpSlice h x (fun c =>
            { c with forced := false, asserted := !(decide (releaseThr s h x ≤ e) && occDone s h x), lowOut := !backCond s h x e .low,
                     highOut := !backCond s h x e .high })
          if ((s.head h).cmp.slice.get x).asserted then startEpisode h s else endEpisode h s) s
      else s
    withLines h (closeWindow h) s
  else s

/-! ### Brake-field recognition (R125) -/

/-- A recognition begins: mark the passage in progress and those whose hold has not ended (R156). -/
def markBrake (h : HeadId) (s : State) : State :=
  s.modTrn h (fun t =>
    { t with pass := t.pass.map (fun p => { p with brake := true }),
             held := t.held.map (fun p => { p with brake := p.brake || decide (s.now ≤ p.endAt + ms 1) }) })

def brakeSet (h : HeadId) (x : Sys) (level : Nat) (s : State) : State :=
  if headUp s h && inUse s h x && decide (fld (s.head h).cmp.force.brake 0 10 ≤ level) then
    let was := brakeOn s h
    let s := s.modCmpSlice h x (fun c => { c with brk := true })
    let s := s.modCmp h (fun c => { c with brakeHold := none })
    if was then s
    else markBrake h (flagCmp h 7 (s.modCmp h (fun c => { c with brakeSince := some s.now })))
  else s

def brakeClear (h : HeadId) (x : Sys) (level : Nat) (s : State) : State :=
  if ((s.head h).cmp.slice.get x).brk && decide (level < fld (s.head h).cmp.force.brake 16 10) then
    let s := s.modCmpSlice h x (fun c => { c with brk := false })
    if ((s.head h).cmp.slice.get x.other).brk then s
    else s.modCmp h (fun c => { c with brakeHold := some (s.now + brakeHoldOf s h) })
  else s

def brakeEnd (h : HeadId) (s : State) : State :=
  match (s.head h).cmp.brakeHold with
  | some t =>
    if brakeOn s h && decide (t ≤ s.now) then
      s.modCmp h (fun c => { c with brakeSince := none, brakeHold := none, brakeEnded := some s.now })
    else s
  | none => s

/-! ### The comparator test and the rails (R128, R129, R131) -/

/-- A deviation in signed 8 bits. -/
def dev8 (i : Int) : Nat := twos 8 (satInt 8 i)

/-- All six deviations within 4 LSB. -/
def dacOk (r : TestResult) : Bool :=
  [r.devLow, r.devAssert, r.devRelease, r.devHigh, r.devOn, r.devOff].all (fun d => decide (d.natAbs ≤ 4))

/-- The test of a slice ends: read-back registers, flags, hold, forced state; the make may follow (R42). -/
def testEnd (h : HeadId) (x : Sys) (r : TestResult) (s : State) : State :=
  if ((s.head h).cmp.slice.get x).testing && decide ((s.head h).fe.route.testEnd ≤ s.now) then
    let ok := dacOk r && r.compOk && r.railOk
    let a := put 24 8 (dev8 r.devHigh) ||| put 16 8 (dev8 r.devRelease) ||| put 8 8 (dev8 r.devAssert) |||
      put 0 8 (dev8 r.devLow)
    let b := put 31 1 1 ||| put 26 1 (b2n (dacOk r)) ||| put 25 1 (b2n r.railOk) ||| put 24 1 (b2n r.compOk) |||
      put 8 8 (dev8 r.devOff) ||| put 0 8 (dev8 r.devOn)
    let flags := bits 8 1 ||| (if dacOk r then 0 else sliceFlag 0 x) ||| (if r.compOk then 0 else sliceFlag 2 x) |||
      (if r.railOk then 0 else sliceFlag 4 x)
    let s := withLines h (fun s =>
      let s := s.modCmp h (fun c => { c with rbA := c.rbA.set x a, rbB := c.rbB.set x b })
      let s := s.modCmpSlice h x (fun c =>
        { c with testing := false, testHold := !ok, railHold := if ok then false else c.railHold })
      let s := flagHead .cmp h flags (forceSlice h x s)
      if ok then s else faultNotice h s) s
    routeAfterBreak2 h s
  else s

/-- The rails of a line disagree for more than 50 ns. -/
def railFault (h : HeadId) (x : Sys) (s : State) : State :=
  if headUp s h && inUse s h x then
    withLines h (fun s =>
      let s := s.modCmpSlice h x (fun c => { c with railHold := true })
      let s := flagHead .cmp h (sliceFlag 4 x) s
      let full := decide (s.dev.railCount = 65535)
      let s := { s with dev := { s.dev with railCount := satNat 16 (s.dev.railCount + 1),
                                            railSlice := 2 * h.val + x.idx } }
      let s := if full then s else raise 0 s
      faultNotice h s) s
  else s

/-- An envelope hold ends 8 us after its mark began (R138). -/
def envHoldEnd (h : HeadId) (x : Sys) (s : State) : State :=
  match ((s.head h).cmp.slice.get x).envHold with
  | some t => if t ≤ s.now then s.modCmpSlice h x (fun c => { c with envHold := none }) else s
  | none => s

/-! ### Staged values (R122, R127, R141) -/

/-- The order of R122. -/
def cmpOrder (w : CmpWords) : Bool :=
  let one (p q : Word) : Bool :=
    let lo := fld q 0 10
    let hi := fld q 16 10
    let a := fld p 0 10
    let r := fld p 16 10
    decide (lo + 16 ≤ a ∧ a + 8 ≤ r ∧ r ≤ a + 200 ∧ r + 16 ≤ hi ∧ hi ≤ 1000)
  one w.pres.one w.health.one && one w.pres.two w.health.two && decide (fld w.brake 16 10 < fld w.brake 0 10)

/-- The outcome of a CMP_SET or write in CMP_STAT.RESULT. -/
def cmpOutcome (h : HeadId) (job : Option Nat) (code : Nat) (s : State) : State :=
  completeJob job (if code = 0 then .ok else .conflict) code (s.modCmp h (fun c => { c with result := code }))

/-- Stage a set of values that passes the order check. -/
def cmpStage (h : HeadId) (w : CmpWords) (job : Option Nat) (s : State) : State :=
  if cmpOrder w then cmpOutcome h job 0 (s.modCmp h (fun c => { c with staged := w })) else cmpOutcome h job 4 s

/-- CMP_CFG of its fields, HHYST clamped. -/
def cmpCfgWord (hh bw occ2 occ1 : Nat) : Word := put 24 5 (clamp 4 31 hh) ||| put 16 4 bw ||| put 8 8 occ2 ||| put 0 8 occ1

/-- The values CMP_SET asks for. -/
def cmpSetWords (p : List Byte) (w : CmpWords) : CmpWords :=
  let m := maskArg p 2
  let one := m.contains .sys1
  let two := m.contains .sys2
  let pick (b : Bool) (n o : Nat) : Nat := if b then n else o
  let bw := pick one (field p 22 1 % 4) (fld w.cfg 16 2) + 4 * pick two (field p 22 1 / 4 % 4) (fld w.cfg 18 2)
  { pres := ⟨if one then put 16 10 (field p 8 2) ||| put 0 10 (field p 6 2) else w.pres.one,
             if two then put 16 10 (field p 16 2) ||| put 0 10 (field p 14 2) else w.pres.two⟩
    health := ⟨if one then put 16 10 (field p 10 2) ||| put 0 10 (field p 4 2) else w.health.one,
               if two then put 16 10 (field p 18 2) ||| put 0 10 (field p 12 2) else w.health.two⟩
    cfg := cmpCfgWord (field p 23 1) bw (pick two (field p 21 1) (fld w.cfg 8 8)) (pick one (field p 20 1) (fld w.cfg 0 8))
    brake := put 16 10 (field p 26 2) ||| put 10 6 (field p 28 1) ||| put 0 10 (field p 24 2) }

/-- The fields of CMP_SET fit their registers. -/
def cmpSetRange (p : List Byte) : Bool :=
  let thr (x : Sys) (i : Nat) : Bool := !(maskArg p 2).contains x || decide (field p i 2 < 1024)
  decide (field p 2 1 < 4) && [4, 6, 8, 10].all (thr .sys1) && [12, 14, 16, 18].all (thr .sys2) &&
    decide (field p 24 2 < 1024 ∧ field p 26 2 < 1024 ∧ field p 28 1 < 64)

/-- CMP_SET (R141). -/
def cmpSet (p : List Byte) (seq : Nat) (s : State) : State :=
  withHead p 0 1 seq (fun h s =>
    if !cmpSetRange p then cmpOutcome h (some seq) 1 s
    else cmpStage h (cmpSetWords p (s.head h).cmp.staged) (some seq) s) s

/-- A pre-seal write of a CMP_ value (R141). -/
def cmpPreSeal (h : HeadId) (o : Nat) (v : Word) (s : State) : State :=
  let w := (s.head h).cmp.staged
  let thr : Word := v &&& 0x03FF03FF
  let new : CmpWords :=
    if o = 0x300 then { w with pres := w.pres.set .sys1 thr }
    else if o = 0x304 then { w with pres := w.pres.set .sys2 thr }
    else if o = 0x308 then { w with health := w.health.set .sys1 thr }
    else if o = 0x30C then { w with health := w.health.set .sys2 thr }
    else if o = 0x310 then { w with cfg := cmpCfgWord (fld v 24 5) (fld v 16 4) (fld v 8 8) (fld v 0 8) }
    else { w with brake := v &&& 0x03FFFFFF }
  let s' := cmpStage h new none s
  if cmpOrder new then s' else hpErr 4 false (headOff h o) v s'

/-- CMP_STAT (R142). -/
def cmpStat (s : State) (h : HeadId) : Word :=
  let c := (s.head h).cmp
  let two (n : Nat) (f : Sys → Bool) : Word := put n 1 (b2n (f .sys1)) ||| put (n + 1) 1 (b2n (f .sys2))
  put 28 4 c.result ||| put 14 1 (b2n (c.staged != c.force)) |||
    put 13 1 (b2n (c.slice.one.testing || c.slice.two.testing)) ||| two 11 (fun x => (c.slice.get x).forced) |||
    two 9 (fun x => !lineReleased s h x) ||| put 8 1 (b2n c.brakeSince.isSome) ||| two 6 (fun x => (c.slice.get x).brk) |||
    two 4 (fun x => (c.slice.get x).occEnd.isSome) ||| two 2 (healthOut s h) ||| two 0 (fun x => (c.slice.get x).asserted)

/-- CMP_CNT and CMP_HOLD (R142). -/
def cmpCnt (s : State) (h : HeadId) : Word := put 16 16 (s.head h).cmp.notrn ||| put 0 16 (s.head h).cmp.trips
def cmpHold (s : State) (h : HeadId) : Word := put 0 16 (holdUs s h)

/-- CMP_STATUS (R141). -/
def cmpStatus (p : List Byte) (seq : Nat) (s : State) : State :=
  withHead p 0 1 seq (fun h s =>
    let c := (s.head h).cmp
    complete seq .ok 0 (leWords [cmpStat s h, c.fault, c.rbA.one, c.rbB.one, c.rbA.two, c.rbB.two, cmpCnt s h,
      cmpHold s h]) s) s

/-! ### The meanings -/

def execCmpSet (t : Nat) (c : Cmd) (s : State) : Host.Outcome State Fault Refusal :=
  .next (command 0x0240 false 32 0 c (cmpSet c.payload) (s.advance t))

def execCmpStatus (t : Nat) (c : Cmd) (s : State) : Host.Outcome State Fault Refusal :=
  .next (command 0x0241 false 2 32 c (cmpStatus c.payload) (s.advance t))

def execSettleComplete (t : Nat) (h : HeadId) (x : Sys) (e : Nat) (s : State) : Host.Outcome State Fault Refusal :=
  .next (whenAwake (settleComplete h x e) (s.advance t))

def execPresenceAssert (t : Nat) (h : HeadId) (x : Sys) (e : Nat) (s : State) : Host.Outcome State Fault Refusal :=
  .next (whenAwake (presenceAssert h x e) (s.advance t))

def execPresenceRelease (t : Nat) (h : HeadId) (x : Sys) (e : Nat) (s : State) : Host.Outcome State Fault Refusal :=
  .next (whenAwake (presenceRelease h x e) (s.advance t))

def execOccultationExpiry (t : Nat) (h : HeadId) (x : Sys) (e : Nat) (s : State) : Host.Outcome State Fault Refusal :=
  .next (whenAwake (occultationExpiry h x e) (s.advance t))

def execPresenceEpisodeJudgement (t : Nat) (h : HeadId) (s : State) : Host.Outcome State Fault Refusal :=
  .next (whenAwake (judgeEpisodes h) (s.advance t))

def execHealthTrip (t : Nat) (h : HeadId) (x : Sys) (side : Side) (e : Nat) (s : State) :
    Host.Outcome State Fault Refusal :=
  .next (whenAwake (healthTrip h x side e) (s.advance t))

def execHealthReturn (t : Nat) (h : HeadId) (x : Sys) (side : Side) (e : Nat) (s : State) :
    Host.Outcome State Fault Refusal :=
  .next (whenAwake (healthReturn h x side e) (s.advance t))

def execRailFault (t : Nat) (h : HeadId) (x : Sys) (s : State) : Host.Outcome State Fault Refusal :=
  .next (whenAwake (railFault h x) (s.advance t))

def execBrakeComparatorSet (t : Nat) (h : HeadId) (x : Sys) (level : Nat) (s : State) :
    Host.Outcome State Fault Refusal :=
  .next (whenAwake (brakeSet h x level) (s.advance t))

def execBrakeComparatorClear (t : Nat) (h : HeadId) (x : Sys) (level : Nat) (s : State) :
    Host.Outcome State Fault Refusal :=
  .next (whenAwake (brakeClear h x level) (s.advance t))

def execBrakeRecognitionEnd (t : Nat) (h : HeadId) (s : State) : Host.Outcome State Fault Refusal :=
  .next (whenAwake (brakeEnd h) (s.advance t))

def execComparatorTestEnd (t : Nat) (h : HeadId) (x : Sys) (r : TestResult) (s : State) :
    Host.Outcome State Fault Refusal :=
  .next (whenAwake (testEnd h x r) (s.advance t))

def execEnvelopeHoldEnd (t : Nat) (h : HeadId) (x : Sys) (s : State) : Host.Outcome State Fault Refusal :=
  .next (whenAwake (envHoldEnd h x) (s.advance t))

end Sys2Proof.Machine
end

