-- ==== Sys2Proof/Machine/Crypto.lean ====
section
/-! DEFINITION. The codes of the block: the CRC of R220, and the token of R187 (the first 8 bytes of HMAC-SHA-256 as
FIPS 198-1 and FIPS 180-4 define them). -/
namespace Sys2Proof.Machine

/-! ### CRC of R220 -/

/-- One bit through the CRC register: polynomial 0x04C11DB7, unreflected. -/
def crcBit (r : Word) (b : Bool) : Word :=
  if r.toNat.testBit 31 == b then r <<< 1 else (r <<< 1) ^^^ 0x04C11DB7

/-- CRC of bits in launch order: starts from all ones, complemented at the end. -/
def crcBits (l : List Bool) : Word := ~~~ l.foldl crcBit 0xFFFFFFFF

/-- The bits of a byte, most significant first. -/
def byteBits (b : Byte) : List Bool := [7, 6, 5, 4, 3, 2, 1, 0].map (fun i => b.toNat.testBit i)

/-- CRC of bytes in address order, the most significant bit of each byte first. -/
def crc32 (l : List Byte) : Word := crcBits (l.flatMap byteBits)

/-! ### SHA-256 -/

/-- `n` bytes of a number, most significant first. -/
def be (n v : Nat) : List Byte := (le n v).reverse

/-- The big-endian number that a list spells. -/
def unbe (l : List Byte) : Nat := l.foldl (fun a b => 256 * a + b.toNat) 0

def rotr (n : Nat) (x : Word) : Word := (x >>> n) ||| (x <<< (32 - n))

/-- The greatest number whose k-th power is at most `t`, found from the bit `n - 1` down, above `r`. -/
def rootFrom (k t : Nat) : Nat → Nat → Nat
  | 0, r => r
  | n + 1, r => rootFrom k t n (if (r + 2 ^ n) ^ k ≤ t then r + 2 ^ n else r)

/-- The first 32 bits of the fraction of the k-th root of `p`. -/
def rootFraction (k p : Nat) : Word := BitVec.ofNat 32 (rootFrom k (p * 2 ^ (32 * k)) 37 0)

/-- The first 64 primes: 510510 is the product of the primes up to 17, and 19 squared is above 312. -/
def shaPrimes : List Nat :=
  (List.range 312).filter (fun n => decide (1 < n) && (Nat.gcd n 510510 == 1 || [2, 3, 5, 7, 11, 13, 17].contains n))

/-- The round constants: the fractions of the cube roots of the first 64 primes (FIPS 180-4, 4.2.2). -/
def shaConstants : List Word := shaPrimes.map (rootFraction 3)

/-- The eight working words. -/
structure Sha where
  a : Word
  b : Word
  c : Word
  d : Word
  e : Word
  f : Word
  g : Word
  h : Word
deriving DecidableEq, Repr

/-- The initial words: the fractions of the square roots of the first eight primes (FIPS 180-4, 5.3.3). -/
def shaInit : Sha :=
  { a := rootFraction 2 2, b := rootFraction 2 3, c := rootFraction 2 5, d := rootFraction 2 7,
    e := rootFraction 2 11, f := rootFraction 2 13, g := rootFraction 2 17, h := rootFraction 2 19 }

/-- One round with its constant and schedule word. -/
def shaRound (v : Sha) (kw : Word × Word) : Sha :=
  let s1 := rotr 6 v.e ^^^ rotr 11 v.e ^^^ rotr 25 v.e
  let ch := (v.e &&& v.f) ^^^ (~~~ v.e &&& v.g)
  let t1 := v.h + s1 + ch + kw.1 + kw.2
  let s0 := rotr 2 v.a ^^^ rotr 13 v.a ^^^ rotr 22 v.a
  let maj := (v.a &&& v.b) ^^^ (v.a &&& v.c) ^^^ (v.b &&& v.c)
  { a := t1 + (s0 + maj), b := v.a, c := v.b, d := v.c, e := v.d + t1, f := v.e, g := v.f, h := v.g }

/-- The schedule, newest word first, extended by `n` words. -/
def shaExtend : Nat → List Word → List Word
  | 0, w => w
  | n + 1, w =>
    let x := w.getD 1 0
    let y := w.getD 14 0
    let s1 := rotr 17 x ^^^ rotr 19 x ^^^ (x >>> 10)
    let s0 := rotr 7 y ^^^ rotr 18 y ^^^ (y >>> 3)
    shaExtend n ((s1 + w.getD 6 0 + s0 + w.getD 15 0) :: w)

/-- The sixteen big-endian words of a 64-byte block. -/
def shaWords (block : List Byte) : List Word :=
  (List.range 16).map (fun i => BitVec.ofNat 32 (unbe ((block.drop (4 * i)).take 4)))

def shaBlock (v : Sha) (block : List Byte) : Sha :=
  let w := (shaExtend 48 (shaWords block).reverse).reverse
  let r := (shaConstants.zip w).foldl shaRound v
  { a := v.a + r.a, b := v.b + r.b, c := v.c + r.c, d := v.d + r.d,
    e := v.e + r.e, f := v.f + r.f, g := v.g + r.g, h := v.h + r.h }

/-- `n` blocks of a padded message. -/
def shaBlocks : Nat → Sha → List Byte → Sha
  | 0, v, _ => v
  | n + 1, v, m => shaBlocks n (shaBlock v (m.take 64)) (m.drop 64)

/-- The message with its padding: 0x80, zeros, the length in bits. -/
def shaPad (m : List Byte) : List Byte :=
  m ++ [0x80] ++ zeros ((119 - m.length % 64) % 64) ++ be 8 (8 * m.length)

def sha256 (m : List Byte) : List Byte :=
  let p := shaPad m
  let v := shaBlocks (p.length / 64) shaInit p
  [v.a, v.b, v.c, v.d, v.e, v.f, v.g, v.h].flatMap (fun w => be 4 w.toNat)

/-- HMAC-SHA-256 with a key of at most 64 bytes. -/
def hmac (key m : List Byte) : List Byte :=
  let k := key ++ zeros (64 - key.length)
  sha256 (k.map (fun b => b ^^^ 0x5C) ++ sha256 (k.map (fun b => b ^^^ 0x36) ++ m))

/-- The token of R187 over OP, TARGET, E_TOK and NONCE. -/
def token (key : List Byte) (op target etok : Nat) (nonce : BitVec 64) : List Byte :=
  (hmac key (le 2 op ++ le 2 target ++ le 6 etok ++ le 8 nonce.toNat)).take 8

end Sys2Proof.Machine
end

