-- ==== Sys2Proof/Machine/Transit.lean ====
section
/-! DEFINITION. Transit detection (R144 to R168): depth and baseline, edges, the state machine of a head, direction and
speed, validation, the signature, and the TRN_ commands. -/
namespace Sys2Proof.Machine

/-! ### Depth and baseline (R146, R147) -/

/-- The integer part of a baseline. -/
def baseInt (b : Nat) : Nat := b / 65536

/-- Depth of a magnitude under a baseline. -/
def depthOf (base mag : Nat) : Nat := if base = 0 then 1023 else min 1023 ((base - mag) * 1024 / base)

def onDepth (t : TrnHead) : Nat := fld t.det 0 10
def offDepth (t : TrnHead) : Nat := fld t.det 16 10

/-- The valid reference of a slice. -/
def refOf (t : TrnHead) (x : Sys) : Option Nat :=
  if bit (t.baseref.get x) 31 then some (fld (t.baseref.get x) 0 20) else none

/-- BASE as the head leaves WAIT: the reference, or the sample's MAG where there is none. -/
def baseFrom (t : TrnHead) (x : Sys) (mag : Nat) : Nat := 65536 * (refOf t x).getD mag

/-- BASE one tick later, and whether it is held at its limit. -/
def baseStep (t : TrnHead) (x : Sys) (base mag : Nat) : Nat × Bool :=
  let btau := max 1 (fld t.cal 16 8)
  let step := tdiv ((65536 * mag : Nat) - (base : Int)) ((10000 * btau : Nat) : Int)
  let nb := ((base : Int) + step).toNat
  match refOf t x with
  | none => (nb, false)
  | some r =>
    let blim := fld t.cal 24 6
    let lo := (r * (100 - blim) * 65536 + 99) / 100
    let hi := r * (100 + blim) * 65536 / 100
    (max lo (min hi nb), decide (nb ≤ lo ∨ hi ≤ nb))

/-- BASE of both slices moves while the head is IDLE and holds no passage; reaching the limit sets BASE_LIM. -/
def moveBase (h : HeadId) (x : Sys) (s : State) : State :=
  let t := (s.head h).trn
  let v := t.slice.get x
  let r := baseStep t x v.base ((s.head h).flt.slice.get x).sample.mag
  let s := s.modTrnSlice h x (fun v => { v with base := r.1, limit := r.2 })
  if r.2 && !v.limit then flagHead .trn h (sliceFlag 3 x) s else s

/-! ### Edges (R149, R159) -/

/-- What one sample does to a slice: its depth, whether it is in dip, the entry edge of a dip that begins, a crossing on
the way out, and whether the dip ends. -/
structure SliceStep where
  depth : Nat
  dip   : Bool
  te    : Option Int
  out   : Option Int
  ended : Bool
deriving DecidableEq, Repr

/-- `prev` is the depth of the sample before, none where there is none to interpolate from; `first` says that the head
leaves WAIT at this sample, whose own stamp is then te of a system in dip (R159). -/
def sliceStep (on off tk : Nat) (lat : Ratio) (base mag : Nat) (prev : Option Nat) (dip first : Bool) : SliceStep :=
  let d := depthOf base mag
  let edge (d0 : Nat) : Int := crossing tk lat on d0 d
  { depth := d
    dip := if dip then decide (off < d) else decide (on ≤ d)
    te := if first then (if decide (on ≤ d) || (dip && decide (off < d)) then some (tickStamp tk lat) else none)
          else if dip then none
          else if on ≤ d then
            match prev with
            | some d0 => if d0 < on then some (edge d0) else some (tickStamp tk lat)
            | none => some (tickStamp tk lat)
          else none
    out := if dip && decide (d < on) then
             match prev with
             | some d0 => if on ≤ d0 then some (edge d0) else none
             | none => none
           else none
    ended := dip && decide (d ≤ off) }

/-- The edges of a passage after a sample. -/
def Edges.step (e : Edges) (tk : Nat) (lat : Ratio) (r : SliceStep) : Edges :=
  let out := match r.te with
    | some _ => none
    | none => r.out.or e.out
  { te := e.te.or r.te
    tx := if r.ended then some (out.getD (tickStamp tk lat)) else e.tx
    out := if r.ended then none else out
    peak := max e.peak r.depth }

def Edges.none : Edges := { te := Option.none, tx := Option.none, out := Option.none, peak := 0 }

/-! ### The state machine (R151, R152) -/

/-- A passage as it begins; the limits are those in force when it ends. -/
def Passage.begin (tk : Nat) (brake : Bool) : Passage :=
  { start := false, entry := .sys1, from_ := .sys1, lastx := none, exit := .sys1, edges := ⟨Edges.none, Edges.none⟩,
    reversals := 0, order := false, reversal := false, bridged := false, brake := brake, stateSince := tk, endAt := 0,
    incomplete := false, spacing := 0, val := 0, valb := 0, len := 0, lenb := 0, scale := 0, noref := false, lat := ⟨(0, 1), (0, 1)⟩ }

/-- A reversal with the dwell in the present state. -/
def Passage.reverse (p : Passage) (tk : Nat) : Passage :=
  { p with reversals := min 255 (p.reversals + 1), reversal := p.reversal || decide (tk - p.stateSince < ms 2) }

/-- The transitions of a passage in progress or beginning; the last component says that it ends. -/
def stepState (st : TrnState) (p : Passage) (a b : Bool) (tk : Nat) : TrnState × Passage × Bool :=
  let te (x : Sys) : Int := ((p.edges.get x).te).getD 0
  let tx (x : Sys) : Int := ((p.edges.get x).tx).getD 0
  match st with
  | .wait => if a || b then (.init, { p with start := true, stateSince := tk }, false) else (.idle, p, false)
  | .init => if a || b then (.init, p, false) else (.idle, p, true)
  | .idle =>
    match a, b with
    | false, false => (.idle, p, false)
    | true, false => (.one, { p with entry := .sys1, stateSince := tk }, false)
    | false, true => (.two, { p with entry := .sys2, stateSince := tk }, false)
    | true, true =>
      let e : Sys := if te .sys1 ≤ te .sys2 then .sys1 else .sys2
      (.both, { p with entry := e, from_ := e, order := p.order || decide (te .sys1 = te .sys2), stateSince := tk }, false)
  | .one =>
    match a, b with
    | true, false => (.one, p, false)
    | true, true =>
      let p := if p.lastx = some .sys1 then p.reverse tk else p
      (.both, { p with from_ := .sys1, stateSince := tk }, false)
    | false, false => (.idle, { p with exit := .sys1 }, true)
    | false, true => (.two, { p with order := true, lastx := some .sys2, stateSince := tk }, false)
  | .two =>
    match a, b with
    | false, true => (.two, p, false)
    | true, true =>
      let p := if p.lastx = some .sys2 then p.reverse tk else p
      (.both, { p with from_ := .sys2, stateSince := tk }, false)
    | false, false => (.idle, { p with exit := .sys2 }, true)
    | true, false => (.one, { p with order := true, lastx := some .sys1, stateSince := tk }, false)
  | .both =>
    match a, b with
    | true, true => (.both, p, false)
    | true, false =>
      let p := if p.from_ = .sys1 then p.reverse tk else p
      (.one, { p with lastx := some .sys1, stateSince := tk }, false)
    | false, true =>
      let p := if p.from_ = .sys2 then p.reverse tk else p
      (.two, { p with lastx := some .sys2, stateSince := tk }, false)
    | false, false =>
      if tx .sys1 = tx .sys2 then (.idle, { p with order := true, exit := p.entry.other }, true)
      else (.idle, { p with exit := if tx .sys2 < tx .sys1 then .sys1 else .sys2 }, true)

/-! ### Direction and speed (R153, R154) -/

/-- What a passage measures, times in 100 ns. -/
structure Measure where
  rev     : Bool
  speedOk : Bool
  dt      : Nat
  speed   : Nat
  acc     : Nat
  len1    : Nat
  len2    : Nat
  order   : Bool
  stamp   : Int
  dur     : Nat
deriving DecidableEq, Repr

/-- The later of two optional stamps. -/
def lateOf (a b : Option Int) : Option Int :=
  match a, b with
  | some x, some y => some (max x y)
  | some x, none => some x
  | none, y => y

def firstOf (a b : Option Int) : Option Int :=
  match a, b with
  | some x, some y => some (min x y)
  | some x, none => some x
  | none, y => y

/-- The quantities of R154 and the stamp of R149, R153 and R159. -/
def measure (p : Passage) : Measure :=
  let e1 := p.edges.one
  let e2 := p.edges.two
  let last := (lateOf e1.tx e2.tx).getD 0
  let first := (firstOf e1.te e2.te).getD 0
  let rev := !p.start && p.entry == .sys2
  let plain := !p.start && !p.incomplete && p.reversals == 0
  let te1 := e1.te.getD 0
  let te2 := e2.te.getD 0
  let tx1 := e1.tx.getD 0
  let tx2 := e2.tx.getD 0
  let dte := (te2 - te1).natAbs
  let dtx := (tx2 - tx1).natAbs
  let ok := plain && dte != 0 && dtx != 0
  let dt := if ok then (dte + dtx) / 2 else 0
  let len (te tx : Int) : Nat := if ok then (tx - te).toNat * p.spacing / dt else 0
  { rev := rev, speedOk := ok, dt := dt
    speed := if ok then min 65535 (3600000 * p.spacing / dt) else 0
    acc := if ok then min 65535 (dte * 1024 / dtx) else 0
    len1 := len te1 tx1, len2 := len te2 tx2
    order := plain && !(if rev then decide (te2 < te1 ∧ tx2 < tx1) else decide (te1 < te2 ∧ tx1 < tx2))
    stamp := if p.start then last
             else if p.incomplete then ((p.edges.get p.entry).tx).getD last
             else if p.reversals = 0 then (te1 + tx1 + te2 + tx2 + 2) / 4
             else ((p.edges.get p.exit).tx).getD last
    dur := satNat 32 (((last - first).toNat) / 10) }

/-! ### Validation (R156) -/

/-- The reason of the first check that fails; 0 where none does. -/
def validate (p : Passage) (m : Measure) (prev : Option LastAcc) : Nat :=
  let v := if p.brake then p.valb else p.val
  let l := if p.brake then p.lenb else p.len
  let rocked := decide (0 < p.reversals)
  let pk1 := p.edges.one.peak / 4
  let pk2 := p.edges.two.peak / 4
  let vchk := decide (fld p.val 24 8 * 100 ≤ m.speed)
  let outLen (n : Nat) : Bool := decide (n < fld l 0 9 ∨ fld l 16 10 < n)
  if p.noref then 13
  else if p.order || m.order then 7
  else if p.reversal then 9
  else if p.incomplete then 0
  else if !rocked && decide (62000 < m.speed) then 8
  else if min pk1 pk2 * 100 < fld v 0 8 * max pk1 pk2 then 11
  else if !rocked && vchk && decide (fld v 16 8 * 1024 < (max m.acc 1024 - min m.acc 1024) * 100) then 10
  else if !rocked && vchk && (outLen m.len1 || outLen m.len2) then 12
  else
    match prev with
    | none => 0
    | some a =>
      if !rocked && !a.rocked && a.rev == m.rev && decide ((m.stamp - a.stamp) * p.spacing < 900 * (m.dt : Int)) then 14
      else if m.stamp - a.stamp < 20000 then 6
      else 0

/-! ### The signature (R160) -/

/-- Depth of a slice at the envelope instant `t` (50 ns), linear between track samples and truncated. Where the window
leaves the depth history the value is free (assumption log 31). -/
def depthAt (t : TrnHead) (lat : Ratio) (x : Sys) (at_ : Int) (free : Nat) : Nat :=
  let hist := (t.slice.get x).hist
  let den : Int := (lat.2 : Int)
  let back : Int := (((t.slice.get x).histAt : Int) - 1) * den - (at_ * 50000 * den + (lat.1 : Int))
  let unit : Int := 10000000 * den
  let n := (back / unit).toNat
  let f := (back % unit).toNat
  let u := unit.toNat
  if back < 0 then (Config.depth free).toNat
  else
    match hist[n]?, hist[n + 1]? with
    | some d1, some d0 => (d1 * (u - f) + d0 * f) / u
    | some d1, none => if f = 0 then d1 else (Config.depth free).toNat
    | none, _ => (Config.depth free).toNat

/-- Sum of a list of numbers. -/
def sumNat (l : List Nat) : Nat := l.foldl (· + ·) 0

/-- The sixteen bytes from the depths of both slices at the twelve places. -/
def sigBytes (p : Passage) (m : Measure) (p1 p2 : List Nat) : List Byte :=
  let pr := (p1.zip p2).map (fun q => min 255 ((q.1 + q.2) / 2 * p.scale / 256 / 4))
  let peak := min 255 ((p.edges.one.peak / 4 + p.edges.two.peak / 4) / 2 * p.scale / 256)
  let len := min 255 ((m.len1 + m.len2) / 4)
  let lead := sumNat (pr.take 6)
  let tail := sumNat (pr.drop 6)
  let asym : Int := if lead + tail = 0 then 0 else tdiv (((lead : Int) - (tail : Int)) * 127) ((lead + tail : Nat) : Int)
  let d := sumNat ((p1.zip p2).map (fun q => max (q.1 / 4) (q.2 / 4) - min (q.1 / 4) (q.2 / 4)))
  pr.map (BitVec.ofNat 8) ++
    [BitVec.ofNat 8 peak, BitVec.ofNat 8 len, BitVec.ofNat 8 (twos 8 asym), sigFlags p true (15 - min 15 (d / 24))]

/-- A passage carries a valid signature. -/
def sigValid (p : Passage) (m : Measure) : Bool := m.speedOk && decide (100 ≤ m.speed) && !p.noref

/-- The signature of a passage; the free counter advances past what it may draw. -/
def signature (h : HeadId) (p : Passage) (m : Measure) (s : State) : List Byte × State :=
  if sigValid p m then
    let t := (s.head h).trn
    let one (x : Sys) : List Nat :=
      let e := p.edges.get x
      let mid := e.te.getD 0 + e.tx.getD 0
      (List.range 12).map (fun k : Nat =>
        let off := tdiv ((-110 + 20 * (k : Int)) * (m.dt : Int)) (p.spacing : Int)
        depthAt t (p.lat.get x) x (mid + 2 * off) (s.free + 2 * k + x.idx))
    (sigBytes p m (one .sys1) (one .sys2), { s with free := s.free + 24 })
  else (zeros 15 ++ [sigFlags p false 0], s)

/-! ### Issue (R155, R157, R159) -/

/-- Issue a passage that has ended, with a reason it carries whatever the checks say (START, or SPACING for a fifth). -/
def issuePassage (h : HeadId) (p : Passage) (forced : Nat) (s : State) : State :=
  let m := measure p
  let r := if forced ≠ 0 then forced else validate p m (s.head h).trn.lastAcc
  let sg := signature h p m s
  let i : Issued :=
    { outcome := if r ≠ 0 then 2 else if p.incomplete then 1 else 0, reason := r, rev := m.rev, speedOk := m.speedOk,
      brake := p.brake, rocked := decide (0 < p.reversals), bridged := p.bridged, noref := p.noref,
      sigOk := sigValid p m, abort := false, stamp := m.stamp, ended := p.endAt, speed := m.speed, acc := m.acc,
      dt := m.dt, dur := m.dur, sig := sg.1, peak1 := min 255 (p.edges.one.peak / 4),
      peak2 := min 255 (p.edges.two.peak / 4), len1 := m.len1, len2 := m.len2, revs := p.reversals }
  (issue h i sg.2).modTrn h (fun t => { t with idleSince := s.now })

/-- A passage ends: hold, or issue at once for START and for a fifth (R155). -/
def endPassage (h : HeadId) (p : Passage) (tk : Nat) (s : State) : State :=
  let t := (s.head h).trn
  let p := { p with
    endAt := tk, incomplete := !p.start && p.exit == p.entry, spacing := fld t.geom 0 9, val := t.val, valb := t.valb,
    len := t.len, lenb := t.lenb, scale := fld t.cal 0 16, noref := noRef s h,
    lat := ⟨latencyOf s h .sys1, latencyOf s h .sys2⟩ }
  let s := s.modTrn h (fun t => { t with pass := none, lastEnd := some tk })
  if p.start then issuePassage h p 5 s
  else if 4 ≤ t.held.length then issuePassage h p 14 s
  else s.modTrn h (fun t => { t with held := t.held ++ [p] })

/-- The recognition of a brake field reached past an instant (100 ns). -/
def brakeSinceEdge (s : State) (h : HeadId) (te : Option Int) : Bool :=
  brakeOn s h ||
    (match (s.head h).cmp.brakeEnded, te with
     | some e, some t => decide (t * 100000 ≤ (e : Int))
     | _, _ => false)

/-- The samples of the latest tick have arrived from every slice in use. -/
def samplesIn (s : State) (h : HeadId) : Bool :=
  s.epc.tickAt != 0 && (inUse s h .sys1 || inUse s h .sys2) &&
    (usedSlices s h).all (fun x => ((s.head h).flt.slice.get x).sampleAt == s.epc.tickAt)

/-- The latest sample of a slice is settled and valid. -/
def goodSample (s : State) (h : HeadId) (x : Sys) : Bool :=
  let p := ((s.head h).flt.slice.get x).sample
  p.valid && p.settled

/-- Form depth and dip of a slice for the good sample of tick tk (R146). -/
def formDepth (h : HeadId) (x : Sys) (tk : Nat) (fromWait : Bool) (s : State) : SliceStep × State :=
  let t := (s.head h).trn
  let v := t.slice.get x
  let contiguous := v.histAt + us 10 == s.epc.tickAt
  let mag := ((s.head h).flt.slice.get x).sample.mag
  let base := if fromWait then baseFrom t x mag else v.base
  let prev := if contiguous && !fromWait then v.hist.head? else none
  let r := sliceStep (onDepth t) (offDepth t) tk (latencyOf s h x) (baseInt base) mag prev v.dip fromWait
  (r, s.modTrnSlice h x (fun v =>
    { v with base := base, limit := if fromWait then false else v.limit, depth := r.depth, dip := r.dip,
             hist := (r.depth :: (if contiguous then v.hist else [])).take 150001, histAt := s.epc.tickAt }))

/-- Depths of a head whose machine does not move: each good sample of a slice in use still forms its depth (R146). -/
def formDepths (h : HeadId) (tk : Nat) (s : State) : State :=
  foldOver (usedSlices s h) (fun x s => if goodSample s h x then (formDepth h x tk false s).2 else s) s

/-- The machine takes the dip pair of a tick at which both samples are good. -/
def machineStep (h : HeadId) (tk : Nat) (s : State) : State :=
  let t := (s.head h).trn
  let f := (s.head h).flt.slice
  let r1 := formDepth h .sys1 tk (t.st == .wait) s
  let r2 := formDepth h .sys2 tk (t.st == .wait) r1.2
  let s := r2.2
  let p0 := t.pass.getD (Passage.begin tk (brakeSinceEdge s h (firstOf r1.1.te r2.1.te)))
  let p := { p0 with
    edges := ⟨p0.edges.one.step tk (latencyOf s h .sys1) r1.1, p0.edges.two.step tk (latencyOf s h .sys2) r2.1⟩
    bridged := p0.bridged || f.one.sample.bridged || f.two.sample.bridged }
  let n := stepState t.st p r1.1.dip r2.1.dip tk
  let s := s.modTrn h (fun t => { t with st := n.1 })
  let s :=
    if n.2.2 then endPassage h n.2.1 tk s
    else s.modTrn h (fun t => { t with pass := if inPassage n.1 then some n.2.1 else none })
  if n.1 == .idle && (s.head h).trn.held.isEmpty then onBoth (moveBase h) s else s

/-- The step of the head's transit logic at a track tick, once the samples have arrived (R145, R151). -/
def transitStep (h : HeadId) (s : State) : State :=
  let f := (s.head h).flt.slice
  if !(inRun s h && samplesIn s h) || (s.head h).trn.histTick == s.epc.tickAt then s
  else
    let tk := s.epc.tickAt - 1
    let s := s.modTrn h (fun t => { t with histTick := s.epc.tickAt })
    if !(usedSlices s h).all (goodSample s h) then
      let s := formDepths h tk s
      if (s.head h).trn.st == .wait then s
      else abortHead h (if (usedSlices s h).all (fun x => (f.get x).sample.valid) then 3 else 2) s
    else if !(inUse s h .sys1 && inUse s h .sys2) then formDepths h tk s
    else machineStep h tk s

/-- The hold of the oldest held passage has ended: validate and issue it. -/
def passageValidation (h : HeadId) (s : State) : State :=
  match (s.head h).trn.held with
  | [] => s
  | p :: rest =>
    if p.endAt + ms 1 ≤ s.now then issuePassage h p 0 (s.modTrn h (fun t => { t with held := rest })) else s

/-! ### Commands (R164 to R166) -/

/-- The seven configuration words, in the order of TRN_SET. -/
structure TrnWords where
  geom : Word
  det  : Word
  val  : Word
  valb : Word
  len  : Word
  lenb : Word
  cal  : Word
deriving DecidableEq, Repr

def trnHeld (t : TrnHead) : TrnWords :=
  { geom := t.geom, det := t.det, val := t.val, valb := t.valb, len := t.len, lenb := t.lenb, cal := t.cal }

def trnStore (w : TrnWords) (t : TrnHead) : TrnHead :=
  { t with geom := w.geom, det := w.det, val := w.val, valb := w.valb, len := w.len, lenb := w.lenb, cal := w.cal }

/-- The defined bits of the words. -/
def trnMask (w : TrnWords) : TrnWords :=
  { geom := w.geom &&& 0x000F01FF, det := w.det &&& 0x03FF03FF, val := w.val &&& 0xFFFF00FF, valb := w.valb &&& 0x00FF00FF,
    len := w.len &&& 0x03FF01FF, lenb := w.lenb &&& 0x03FF01FF, cal := w.cal &&& 0x3FFFFFFF }

def within (lo hi v : Nat) : Bool := decide (lo ≤ v ∧ v ≤ hi)

/-- Test 1 of R165. -/
def trnRange (w : TrnWords) : Bool :=
  within 40 300 (fld w.geom 0 9) && within 16 736 (fld w.det 16 10) && within 64 768 (fld w.det 0 10) &&
    within 10 100 (fld w.val 24 8) && within 5 50 (fld w.val 16 8) && within 20 90 (fld w.val 0 8) &&
    within 5 50 (fld w.valb 16 8) && within 20 90 (fld w.valb 0 8) && within 100 600 (fld w.len 16 10) &&
    within 10 200 (fld w.len 0 9) && within 100 600 (fld w.lenb 16 10) && within 10 200 (fld w.lenb 0 9) &&
    within 2 30 (fld w.cal 24 6) && within 1 100 (fld w.cal 16 8) && within 0x80 0x200 (fld w.cal 0 16)

/-- Test 2 of R165. -/
def trnOrder (w : TrnWords) : Bool :=
  decide (fld w.det 16 10 + 32 ≤ fld w.det 0 10 ∧ fld w.len 0 9 + 20 ≤ fld w.len 16 10 ∧
    fld w.geom 0 9 + fld w.len 16 10 ≤ 900 ∧ fld w.geom 0 9 + fld w.lenb 16 10 ≤ 900 ∧
    fld w.val 0 8 ≤ fld w.valb 0 8 ∧ fld w.valb 16 8 ≤ fld w.val 16 8 ∧ fld w.len 0 9 ≤ fld w.lenb 0 9 ∧
    fld w.lenb 16 10 ≤ fld w.len 16 10)

/-- The request changes STREAM, REP_ACC and REP_INC at most. -/
def trnReportOnly (old new : TrnWords) : Bool := { new with geom := 0 } == { old with geom := 0 } &&
  fld new.geom 0 9 == fld old.geom 0 9

/-- Tests 3 and 4 of R165. -/
def trnBusyTest (h : HeadId) (s : State) : Option (Status × Nat) :=
  if routeBusy s h || chgBusy s h then some (.refusedBusy, 3)
  else if clearBound s h then some (.conflict, 4)
  else none

def trnTest (h : HeadId) (w : TrnWords) (s : State) : Option (Status × Nat) :=
  if !trnRange w then some (.conflict, 1)
  else if trnReportOnly (trnHeld (s.head h).trn) w then none
  else if !trnOrder w then some (.conflict, 2)
  else trnBusyTest h s

def trnOutcome (h : HeadId) (job : Option Nat) (st : Status) (code : Nat) (s : State) : State :=
  completeJob job st code (s.modTrn h (fun t => { t with result := code }))

/-- Admit a TRN_SET that passed its tests. -/
def trnAdmit (h : HeadId) (w : TrnWords) (job : Option Nat) (s : State) : State :=
  if trnReportOnly (trnHeld (s.head h).trn) w then trnOutcome h job .ok 0 (s.modTrn h (trnStore w))
  else
    let s := abortHead h 4 (changeNotice h s)
    trnOutcome h job .ok 0 (s.modTrn h (trnStore w))

/-- TRN_SET (R164, R165). -/
def trnSet (p : List Byte) (seq : Nat) (s : State) : State :=
  withHead p 0 1 seq (fun h s =>
    let w := trnMask { geom := wordArg p 2, det := wordArg p 6, val := wordArg p 10, valb := wordArg p 14,
                       len := wordArg p 18, lenb := wordArg p 22, cal := wordArg p 26 }
    match trnTest h w s with
    | some (st, code) => trnOutcome h (some seq) st code s
    | none => trnAdmit h w (some seq) s) s

/-- A pre-seal write of a TRN_ word, handled as TRN_SET for that register. -/
def trnPreSeal (h : HeadId) (o : Nat) (v : Word) (s : State) : State :=
  let old := trnHeld (s.head h).trn
  let w := trnMask
    (if o = 0x400 then { old with geom := v }
     else if o = 0x404 then { old with det := v }
     else if o = 0x408 then { old with val := v }
     else if o = 0x40C then { old with valb := v }
     else if o = 0x410 then { old with len := v }
     else if o = 0x414 then { old with lenb := v }
     else { old with cal := v })
  match trnTest h w s with
  | some (st, code) => hpErr 4 false (headOff h o) v (trnOutcome h none st code s)
  | none => trnAdmit h w none s

/-- The state test of R166 for a slice. -/
def setrefOk (s : State) (h : HeadId) (x : Sys) : Bool :=
  inUse s h x && settled s h x && decide (10000 ≤ ((s.head h).trn.slice.get x).okMags.length)

/-- The state test of R166 for the head. -/
def setrefHead (s : State) (h : HeadId) : Bool :=
  let c := (s.head h).cmp.slice
  trnIdle s h && decide ((s.head h).trn.idleSince + ms 100 ≤ s.now) && !c.one.asserted && !c.two.asserted &&
    !healthOut s h .sys1 && !healthOut s h .sys2

/-- TRN_SETREF (R166). -/
def trnSetref (p : List Byte) (seq : Nat) (s : State) : State :=
  withHead p 0 1 seq (fun h s =>
    let m := field p 2 1
    if m = 0 ∨ 3 < m then trnOutcome h (some seq) .conflict 1 s
    else
      match trnBusyTest h s with
      | some (st, code) => trnOutcome h (some seq) st code s
      | none =>
        if (slices m).all (setrefOk s h) && setrefHead s h then
          let capture (x : Sys) (s : State) : State :=
            let mean := sumNat (((s.head h).trn.slice.get x).okMags.take 10000) / 10000
            s.modTrn h (fun t => { t with baseref := t.baseref.set x (put 31 1 1 ||| put 0 20 mean) })
          let s := abortHead h 4 (foldOver (slices m) capture s)
          trnOutcome h (some seq) .ok 0 (flagTrn h 6 s)
        else trnOutcome h (some seq) .conflict 5 s) s

/-- TRN_BASEn, TRN_DEPTH, TRN_STAT and TRN_CNT_OTH (R167). -/
def trnBase (s : State) (h : HeadId) (x : Sys) : Word :=
  let v := (s.head h).trn.slice.get x
  put 31 1 (b2n v.limit) ||| put 0 20 (baseInt v.base)

def trnDepth (s : State) (h : HeadId) : Word :=
  let v := (s.head h).trn.slice
  put 31 1 (b2n v.two.dip) ||| put 16 10 v.two.depth ||| put 15 1 (b2n v.one.dip) ||| put 0 10 v.one.depth

def trnCode : TrnState → Nat
  | .wait => 0
  | .idle => 1
  | .one => 2
  | .both => 3
  | .two => 4
  | .init => 5

def trnStat (s : State) (h : HeadId) : Word :=
  let t := (s.head h).trn
  let rv := match t.pass with
    | some p => p.reversals
    | none => 0
  let br := match t.pass with
    | some p => p.brake
    | none => false
  let en := match t.pass with
    | some p => p.entry.idx
    | none => 0
  put 28 4 t.result ||| put 16 8 rv ||| put 10 2 (min 3 t.held.length) ||| put 9 1 (b2n (noRef s h)) |||
    put 8 1 (b2n br) ||| put 3 1 en ||| put 0 3 (trnCode t.st)

/-- The TRN_ registers from TRN_GEOM to TRN_FAULT. -/
def trnRegs (s : State) (h : HeadId) : List Word :=
  let t := (s.head h).trn
  [t.geom, t.det, t.val, t.valb, t.len, t.lenb, t.cal, t.baseref.one, t.baseref.two, trnBase s h .sys1, trnBase s h .sys2,
    trnDepth s h, trnStat s h, t.last, word t.cntFwd, word t.cntRev, put 16 16 t.cntRej ||| put 0 16 t.cntInc, t.fault]

/-- TRN_STATUS. -/
def trnStatus (p : List Byte) (seq : Nat) (s : State) : State :=
  withHead p 0 1 seq (fun h s => complete seq .ok 0 (leWords (trnRegs s h)) s) s

/-! ### The meanings -/

def execTrnSet (t : Nat) (c : Cmd) (s : State) : Host.Outcome State Fault Refusal :=
  .next (command 0x0250 false 32 0 c (trnSet c.payload) (s.advance t))

def execTrnSetref (t : Nat) (c : Cmd) (s : State) : Host.Outcome State Fault Refusal :=
  .next (command 0x0251 false 3 0 c (trnSetref c.payload) (s.advance t))

def execTrnStatus (t : Nat) (c : Cmd) (s : State) : Host.Outcome State Fault Refusal :=
  .next (command 0x0252 false 2 72 c (trnStatus c.payload) (s.advance t))

def execTransitStep (t : Nat) (h : HeadId) (s : State) : Host.Outcome State Fault Refusal :=
  .next (whenAwake (transitStep h) (s.advance t))

def execPassageValidation (t : Nat) (h : HeadId) (s : State) : Host.Outcome State Fault Refusal :=
  .next (whenAwake (passageValidation h) (s.advance t))

end Sys2Proof.Machine
end

