-- ==== Sys2Proof/Machine/Section.lean ====
section
/-! DEFINITION. Sections, counts and the axle ledger (R169 to R198): bindings, signatures and matching, the section's
evaluation on its working copy, reset forms with their tokens, section records and the section commands. -/
namespace Sys2Proof.Machine

/-! ### Signatures (R160, R176) -/

def sigByte (l : List Byte) (i : Nat) : Nat := (l.getD i 0).toNat

/-- ASYM as a signed byte. -/
def asymOf (l : List Byte) : Int := sext 8 (sigByte l 14)

/-- P[0] to P[11]. -/
def profile (l : List Byte) : List Nat := (List.range 12).map (sigByte l)

def absDiff (a b : Nat) : Nat := max a b - min a b

def sumDiff : List Nat → List Nat → Nat
  | a :: as, b :: bs => absDiff a b + sumDiff as bs
  | _, _ => 0

/-- D of R176, with `b` mirrored or not. -/
def sigDist (a b : List Byte) (mirror : Bool) : Nat :=
  let pb := if mirror then (profile b).reverse else profile b
  let ab := if mirror then - asymOf b else asymOf b
  sumDiff (profile a) pb + 2 * absDiff (sigByte a 12) (sigByte b 12) + 4 * absDiff (sigByte a 13) (sigByte b 13) +
    (asymOf a - ab).natAbs / 4

/-- dist(x, e). -/
def entryDist (x : List Byte) (e : Entry) : Nat := min (sigDist x e.sig false) (sigDist x e.sig true)

/-- SIG_VALID and QUAL at least QMIN (R176). -/
def usableSig (m : Word) (x : List Byte) : Bool :=
  (sigByte x 15).testBit 7 && decide (fld m 28 4 ≤ sigByte x 15 % 16)

def brakeSig (x : List Byte) : Bool := (sigByte x 15).testBit 6

/-- tol(x, e). -/
def tolOf (m : Word) (x : List Byte) (e : Entry) : Nat := if brakeSig x || e.brake then fld m 16 10 else fld m 0 10

/-! ### Matching (R177, R375) -/

/-- The outcome of a removal: code, index removed, its distance, and the ledger rows read. -/
structure Match where
  outcome : Nat
  idx     : Option Nat
  dist    : Nat
  rows    : Nat
deriving DecidableEq, Repr

/-- Entries with their positions. -/
abbrev Placed := List (Entry × Nat)

def usableAt (l : List Entry) : Placed := l.zipIdx.filter (fun p => !p.1.wildcard)
def wildAt (l : List Entry) : Placed := l.zipIdx.filter (fun p => p.1.wildcard)

/-- The nearest of some entries, the oldest on a tie: distance and position. -/
def nearest (x : List Byte) (l : Placed) : Option (Nat × Nat) :=
  l.foldl (fun best p =>
    match best with
    | none => some (entryDist x p.1, p.2)
    | some b => if entryDist x p.1 < b.1 then some (entryDist x p.1, p.2) else best) none

/-- Rows of 16 entries that hold any of some entries in ascending order. -/
def rowsHeld (l : Placed) : Nat :=
  (l.foldl (fun (acc : Nat × Option Nat) p =>
    if acc.2 = some (p.2 / 16) then acc else (acc.1 + 1, some (p.2 / 16))) (0, none)).1

/-- Which entry the leaving axle x removes. -/
def matchAxle (m : Word) (x : List Byte) (l : List Entry) : Match :=
  let none_ : Match := { outcome := 4, idx := none, dist := 0xFFFF, rows := 0 }
  if l.isEmpty then { none_ with outcome := 6 }
  else if !usableSig m x then
    match (wildAt l).getLast? with
    | some p => { none_ with idx := some p.2 }
    | none => { none_ with idx := some 0 }
  else
    let u := usableAt l
    let inTol (p : Entry × Nat) : Bool := decide (entryDist x p.1 ≤ tolOf m x p.1)
    let ends := (u.head?.toList ++ u.getLast?.toList).filter inTol
    let all := rowsHeld u
    match nearest x ends with
    | some b =>
      { outcome := 0, idx := some b.2, dist := b.1, rows := rowsHeld (u.head?.toList ++ u.getLast?.toList) }
    | none =>
      match nearest x (u.filter inTol) with
      | some b => { outcome := 1, idx := some b.2, dist := b.1, rows := all }
      | none =>
        match (wildAt l).head? with
        | some p => { outcome := 2, idx := some p.2, dist := 0xFFFF, rows := all }
        | none =>
          match nearest x u with
          | some b => { outcome := 3, idx := some b.2, dist := b.1, rows := all }
          | none => { none_ with outcome := 6 }

/-! ### Configuration of a section -/

/-- SEC_CFG.MODE, 11 treated as 01. -/
def secMode (w : Word) : Nat := if fld w 4 2 = 3 then 1 else fld w 4 2

def cfgMask : Word := 0xFFFFF3B0
def matchMask : Word := 0xF3FF03FF

/-- Heads of the valid bindings. -/
def boundHeads (x : Section) : List HeadId :=
  (x.bind.toList.filter (fun w => bit w 15)).map (fun w => Fin.ofNat 256 (fld w 0 8))

def bindings (x : Section) : Nat := (boundHeads x).length

/-- SIGN of the binding of a head: true is OUT. -/
def signOf (x : Section) (h : HeadId) : Option Bool :=
  (x.bind.toList.find? (fun w => bit w 15 && fld w 0 8 == h.val)).map (fun w => bit w 8)

/-- CFG_CHK of R195. -/
def cfgChk (x : Section) : Nat :=
  (crc32 (leWords ((x.cfg &&& cfgMask) :: x.match_ :: x.bind.toList))).toNat % 65536

def SecState.code : SecState → Nat
  | .clear => 0
  | .occupied => 1
  | .disturbed => 2
  | .restoring => 3

/-! ### Head fitness and quiet time (R185, R190) -/

/-- A bound head is fit. -/
def headFit (s : State) (h : HeadId) : Bool :=
  let hd := s.head h
  let ok (x : Sys) : Bool :=
    let c := hd.cmp.slice.get x
    inUse s h x && settled s h x && !c.asserted && !c.lowOut && !c.highOut && !c.testHold && !c.railHold &&
      !classFails (hd.fe.imp.get x).cls
  inRun s h && ok .sys1 && ok .sys2 && !noRef s h && trnIdle s h && !hd.fe.leakFault && !(s.die (dieOf h)).thermOff

def allFit (s : State) (x : Section) : Bool := (boundHeads x).all (headFit s)

/-- QUIET is not 0 and ELAPSED, here `el`, has reached QUIET × 10,000; 1 to 9 are treated as 10. -/
def quietMet (x : Section) (el : Nat) : Bool :=
  decide (fld x.cfg 16 16 ≠ 0) && decide (max 10 (fld x.cfg 16 16) * 10000 ≤ el)

/-! ### Section records (R194) -/

/-- A section record; `cause` gives HEAD, TSEQ and the stamp. -/
def secRecord (s : State) (n : SecId) (c : SecCore) (event code : Nat) (cause : Option Item) (dist idx : Nat)
    (sig : List Byte) : List Byte :=
  let at_ := match cause with
    | some i => stampPs i.stamp
    | none => s.epc.start
  le 1 2 ++ le 1 event ++ le 1 (c.state.code + 4 * b2n c.service) ++ le 1 code ++ le 2 n.val ++
    le 2 ((cause.map (·.head.val)).getD 0xFFFF) ++ le 2 ((cause.map (·.seq)).getD 0) ++ le 6 s.epc.seq ++
    le 2 (latchAt s at_).gen.toNat ++ le 8 (tbTimeAt s at_) ++ le 2 (twos 16 c.count) ++ le 2 c.ledger.length ++
    le 2 dist ++ le 2 c.nomatchEp ++ le 2 idx ++ slice sig 0 16 ++ zeros 12

/-- The stream of a section. -/
def secStream (x : Section) : Fin 16 := Fin.ofNat 16 (8 + fld x.cfg 8 2)

/-- Offer a section record. -/
def queueSecRec (n : SecId) (b : List Byte) (s : State) : State :=
  queueRec { orbit := secStream (s.sec n), bytes := b, head := none, sec := some n } s

/-! ### The working copy (R173 to R181, R203) -/

def Priv.rec_ (s : State) (n : SecId) (event code : Nat) (cause : Option Item) (p : Priv) : Priv :=
  { p with recs := p.recs ++ [secRecord s n p.core event code cause 0xFFFF 0xFFFF (zeros 16)] }

def Priv.flag (k : Nat) (p : Priv) : Priv := { p with core := { p.core with fault := p.core.fault ||| bits k 1 } }

/-- The record and trigger of a change of state or of service. -/
def Priv.changed (s : State) (n : SecId) (cause : Option Item) (p : Priv) : Priv :=
  let c := p.core
  let p := p.rec_ s n 0 c.reason cause
  { p with trigs := p.trigs ++ [(4, n.val, put 0 2 c.state.code ||| put 2 1 (b2n c.service) ||| put 8 8 c.reason)] }

/-- Enter a state (R180), with its flag. -/
def Priv.go (s : State) (n : SecId) (st : SecState) (cause : Option Item) (p : Priv) : Priv :=
  let p : Priv := { p with core := { p.core with state := st, stateEpoch := s.epc.seq % 2 ^ 32 } }
  let p := match st with
    | .disturbed => p.flag 0
    | .clear => p.flag 1
    | .restoring => p.flag 2
    | .occupied => p
  p.changed s n cause

/-- Fail to disturbed (R14); REASON is unchanged where the section is DISTURBED already. -/
def Priv.fail (s : State) (n : SecId) (reason : Nat) (cause : Option Item) (p : Priv) : Priv :=
  if p.core.state = .disturbed then p
  else Priv.go s n .disturbed cause { p with core := { p.core with reason := reason } }

/-- Empty the ledger: one ledger operation (R175). -/
def Priv.emptied (p : Priv) : Priv :=
  { p with core := { p.core with ledger := [], gen := (p.core.gen + 1) % 2 ^ 32 }, deltas := p.deltas ++ [.empty] }

/-- End of an episode (R174). -/
def Priv.endEpisode (p : Priv) : Priv :=
  let p := p.emptied
  { p with core := { p.core with maxc := 0, firstHead := 0, conf := false, nomatchEp := 0, susp := false } }

/-- An entry is appended, or the ledger suspended (R175, R179). -/
def Priv.enterLedger (s : State) (n : SecId) (m : Word) (it : Item) (sig : List Byte) (p : Priv) : Priv :=
  if 1024 ≤ p.core.ledger.length then
    let p := p.emptied
    let p := Priv.flag 4 { p with core := { p.core with susp := true } }
    p.rec_ s n 3 0 (some it)
  else
    let e : Entry := { sig := sig, head := it.head, wildcard := !usableSig m sig, brake := brakeSig sig,
                       epoch := BitVec.ofNat 16 s.epc.seq }
    { p with core := { p.core with ledger := p.core.ledger ++ [e], gen := (p.core.gen + 1) % 2 ^ 32 },
             deltas := p.deltas ++ [.append p.core.ledger.length e] }

/-- An ACCEPTED transit that adds an axle. -/
def Priv.addAxle (s : State) (n : SecId) (cfg m : Word) (it : Item) (sig : List Byte) (p : Priv) : Priv :=
  let c := p.core
  let p : Priv := { p with core := { c with transIn := (c.transIn + 1) % 2 ^ 32 } }
  if 32767 ≤ c.count then p.fail s n 5 (some it)
  else
    let c1 := c.count + 1
    let p : Priv := { p with core := { p.core with
      count := c1
      maxc := if c.count = 0 then c1 else max c.maxc c1
      firstHead := if c.count = 0 then it.head.val else c.firstHead } }
    let p := if secMode cfg ≠ 0 ∧ c.susp = false ∧ 1 ≤ c1 then p.enterLedger s n m it sig else p
    if c.state = .clear then p.go s n .occupied (some it) else p

/-- Count a matching outcome (SEC_MCNT). -/
def SecCore.outcome (c : SecCore) (o : Nat) : SecCore :=
  let up (v : Nat) : Nat := (v + 1) % 65536
  match o with
  | 0 => { c with exact := up c.exact }
  | 1 => { c with displaced := up c.displaced }
  | 2 => { c with wildcard := up c.wildcard }
  | 3 => { c with nomat := up c.nomat, nomatchEp := satNat 16 (c.nomatchEp + 1) }
  | 4 => { c with unusable := up c.unusable }
  | 5 => { c with suspended := up c.suspended }
  | _ => c

/-- The matching of a leaving axle; `before` is COUNT before it left (R175 to R179). -/
def Priv.matching (s : State) (n : SecId) (cfg m : Word) (it : Item) (sig : List Byte) (before : Int) (p : Priv) : Priv :=
  let r : Match :=
    if before ≤ 0 then { outcome := 6, idx := none, dist := 0xFFFF, rows := 0 }
    else if p.core.susp then { outcome := 5, idx := none, dist := 0xFFFF, rows := 0 }
    else matchAxle m sig p.core.ledger
  let p : Priv := { p with core := p.core.outcome r.outcome, rows := p.rows + r.rows }
  let p := if r.outcome = 3 then p.flag 3 else p
  let p : Priv := match r.idx with
    | some i => { p with core := { p.core with ledger := p.core.ledger.eraseIdx i, gen := (p.core.gen + 1) % 2 ^ 32 },
                         deltas := p.deltas ++ [.remove i] }
    | none => p
  if r.outcome = 0 ∧ bit cfg 7 = false then p
  else { p with recs := p.recs ++
    [secRecord s n p.core 1 r.outcome (some it) (if r.dist = 0xFFFF then r.dist else min 0xFFFE r.dist)
      (r.idx.getD 0xFFFF) sig] }

/-- R181, at the transit that brings COUNT from 1 to 0, and then the end of the episode. -/
def Priv.lastOut (s : State) (n : SecId) (cfg : Word) (single : Bool) (it : Item) (p : Priv) : Priv :=
  let c := p.core
  let strict := secMode cfg = 2 ∧ c.susp = false ∧ fld cfg 12 4 < c.nomatchEp
  let p :=
    if c.state = .disturbed then p
    else if strict then (p.flag 5).fail s n 9 (some it)
    else if c.state = .occupied ∨ c.conf = true ∨ single = true then
      if c.state = .clear then p else p.go s n .clear (some it)
    else p
  p.endEpisode

/-- An ACCEPTED transit that removes an axle. -/
def Priv.removeAxle (s : State) (n : SecId) (cfg m : Word) (single : Bool) (it : Item) (sig : List Byte) (p : Priv) :
    Priv :=
  let c := p.core
  let p : Priv := { p with core := { c with transOut := (c.transOut + 1) % 2 ^ 32 } }
  if c.count ≤ -32767 then
    (if secMode cfg ≠ 0 then p.matching s n cfg m it sig c.count else p).fail s n 5 (some it)
  else
    let c1 := c.count - 1
    let p : Priv := { p with core := { p.core with
      count := c1
      maxc := if c.count = 0 then c1 else max c.maxc c1
      conf := c.conf || (decide (1 ≤ c.count) && it.head.val != c.firstHead) } }
    let p := if secMode cfg ≠ 0 then p.matching s n cfg m it sig c.count else p
    if c.count = 1 then p.lastOut s n cfg single it
    else if c1 < 0 ∧ (c.state = .clear ∨ c.state = .restoring) then p.fail s n 4 (some it)
    else p

/-- One item of the intake (R173 step 2). -/
def Priv.item (s : State) (n : SecId) (x : Section) (it : Item) (p : Priv) : Priv :=
  match it.kind with
  | .reject => p.fail s n 3 (some it)
  | .notice r => p.fail s n r (some it)
  | .transit rev sig =>
    match signOf x it.head with
    | none => p
    | some out =>
      if rev == out then p.addAxle s n x.cfg x.match_ it sig
      else p.removeAxle s n x.cfg x.match_ (bindings x == 1) it sig

/-- Order of R173: stamp, head number, SEQ. -/
def Item.before (a b : Item) : Bool :=
  decide (a.stamp < b.stamp) ||
    (a.stamp == b.stamp && (decide (a.head.val < b.head.val) || (a.head == b.head && decide (a.seq < b.seq))))

def insertItem (a : Item) : List Item → List Item
  | [] => [a]
  | b :: l => if a.before b then a :: b :: l else b :: insertItem a l

/-- Items in the order of R173; those with equal keys in the order of their arrival. -/
def sortItems (l : List Item) : List Item := l.foldl (fun acc a => insertItem a acc) []

/-- A command's outcome, which the commit writes. -/
def Priv.done_ (job : Option Nat) (st : Status) (code : Nat) (p : Priv) : Priv :=
  { p with dones := p.dones ++ [{ job := job, status := st, detail := code, wr := none }] }

/-- The outcome of a reset form: result, record of EVENT 2, trigger (R191, R194, R312). -/
def Priv.resetOut (s : State) (n : SecId) (direct : Bool) (job : Option Nat) (st : Status) (code : Nat) (p : Priv) : Priv :=
  let p := p.rec_ s n 2 code none
  Priv.done_ job st code { p with authRes := some code,
                                  trigs := p.trigs ++ [(5, n.val, put 0 4 code ||| put 4 1 (b2n direct))] }

/-- SEC_SERVICE as its evaluation applies it (R180, R186). -/
def Priv.service (s : State) (n : SecId) (x : Section) (on : Bool) (job : Option Nat) (wr : Option Word) (p : Priv) :
    Priv :=
  if on && !p.core.service then
    if bindings x = 0 then
      { p with statRes := some 6, dones := p.dones ++ [{ job := job, status := .conflict, detail := 6, wr := wr }] }
    else
      let p : Priv := { p with core := { p.core with service := true, reason := 2 }, enter := true }
      Priv.done_ job .ok 0 { p.changed s n none with statRes := some 0 }
  else if !on && p.core.service then
    let was := p.core.state
    let p : Priv := { p with core := { p.core with service := false, reason := 2, count := 0 } }
    let p := p.endEpisode
    let p := if was = .disturbed then p.changed s n none else p.go s n .disturbed none
    Priv.done_ job .ok 0 { p with statRes := some 0 }
  else Priv.done_ job .ok 0 { p with statRes := some 0 }

/-- A reset form as its evaluation applies it: tests 6 to 8 again, as the intake cut found heads, quiet time and queue
(R192, R202; assumption log 75), then R190. An entry into service earlier in the evaluation restarts ELAPSED. -/
def Priv.reset (s : State) (n : SecId) (x : Section) (direct : Bool) (job : Option Nat) (p : Priv) : Priv :=
  if !p.core.service || p.core.state != .disturbed then p.resetOut s n direct job .conflict 6
  else if !x.cutFit then p.resetOut s n direct job .conflict 7
  else if direct && (!quietMet x (if p.enter then 0 else x.cutQuiet) || !x.intake.isEmpty || x.cutWaits) then
    p.resetOut s n direct job .conflict 8
  else
    let p := Priv.endEpisode { p with core := { p.core with count := 0, reason := 0 } }
    let p := p.go s n (if direct then .clear else .restoring) none
    (p.flag 6).resetOut s n direct job .ok 0

/-- One command of the intake (R173 step 1). -/
def Priv.cmd (s : State) (n : SecId) (x : Section) (c : SecCmd) (p : Priv) : Priv :=
  match c.op with
  | .service on => p.service s n x on c.job c.wr
  | .disturb => Priv.done_ c.job .ok 0 { p.fail s n 10 none with statRes := some 0 }
  | .reset direct => p.reset s n x direct c.job

/-- A fresh working copy of a section. -/
def Priv.start (c : SecCore) : Priv :=
  { core := { c with fault := 0 }, recs := [], deltas := [], dones := [], trigs := [], enter := false,
    adopted := false, statRes := none, authRes := none, rows := 0, work := [], until_ := 0 }

/-- The work of what was applied last is closed: one item and the rows it searched (R204, R375). -/
def Priv.tally (p : Priv) : Priv := { p with work := p.work ++ [p.rows], rows := 0 }

/-- The evaluation of a section on its working copy: commands, then a queue overflow, then items (R172, R173). -/
def evaluate (s : State) (n : SecId) : Priv :=
  let x := s.sec n
  let p := x.intakeCmd.foldl (fun p c => (p.cmd s n x c).tally) (Priv.start x.core)
  if p.core.service then
    let p := if x.cutOvf then p.fail s n 11 none else p
    (sortItems x.intake).foldl (fun p it => (p.item s n x it).tally) p
  else p

/-! ### Commands at admission (R171, R186 to R196) -/

/-- Outcome of SEC_BIND, SEC_SET, SEC_SERVICE, SEC_DISTURB or a write: SEC_STAT.RESULT, and the completion. -/
def secOutcome (n : SecId) (job : Option Nat) (code : Nat) (s : State) : State :=
  let s := s.modSec n (fun x => { x with statRes := code })
  completeJob job (if code = 0 then .ok else .conflict) code s

/-- Bindings held by the device. -/
def allBindings (s : State) : Nat := (s.sections.toList.map bindings).foldl (· + ·) 0

def noDup : List HeadId → Bool
  | [] => true
  | h :: l => !l.contains h && noDup l

/-- Tests of SEC_BIND in the order RANGE, STATE, DUP, LIMIT; 0 where all pass. -/
def bindTest (s : State) (n : SecId) (entries : List Word) : Nat :=
  let x := s.sec n
  let heads := entries.map (fun w => (Fin.ofNat 256 (fld w 0 8) : HeadId))
  if 8 < entries.length ∨ entries.any (fun w => !bit w 15) then 1
  else if x.core.service then 3
  else if !noDup heads then 5
  else if heads.any (fun h => decide (4 ≤ ((boundSecs s h).filter (fun k => k != n)).length)) then 4
  else if 512 < allBindings s - bindings x + entries.length then 4
  else 0

/-- The eight binding words take their values; an added head sets the trip latch (R171, R132, R190). -/
def storeBind (n : SecId) (words : List Word) (s : State) : State :=
  let old := boundHeads (s.sec n)
  let s := s.modSec n (fun x => { x with
    bind := tabulate 8 (fun k => words.getD k 0 &&& 0x81FF), quietEl := 0 })
  let added := (boundHeads (s.sec n)).any (fun h => !old.contains h)
  if added then s.modSec n (Section.trip s.now) else s

/-- SEC_BIND at admission: the tests see the entries, and `words` fill the registers. -/
def secBind (n : SecId) (entries words : List Word) (job : Option Nat) (s : State) : State :=
  let code := bindTest s n entries
  if code ≠ 0 then secOutcome n job code s else secOutcome n job 0 (storeBind n words s)

/-- Tests of SEC_SET: range, then ORDER, then STATE; a change of STREAM or REP_EXACT alone needs the range test. -/
def setTest (s : State) (n : SecId) (cfg m : Word) : Nat :=
  let x := s.sec n
  let onlyReport := decide ((cfg ^^^ x.cfg) &&& cfgMask &&& ~~~ (0x380 : Word) = 0) && decide (m &&& matchMask = x.match_)
  if fld m 0 10 < 16 ∨ fld m 16 10 < 16 then 1
  else if onlyReport then 0
  else if fld m 16 10 < fld m 0 10 then 2
  else if x.core.service && x.core.state != .disturbed then 3
  else 0

/-- SEC_SET at admission. MODE off keeps no ledger (R175). -/
def secSet (n : SecId) (cfg m : Word) (job : Option Nat) (s : State) : State :=
  let code := setTest s n cfg m
  if code ≠ 0 then secOutcome n job code s
  else
    let s := s.modSec n (fun x => { x with
      cfg := cfg &&& cfgMask
      match_ := m &&& matchMask
      core := if secMode cfg = 0 then { x.core with ledger := [] } else x.core })
    secOutcome n job 0 s

/-- A command, or a pre-seal write of SEC_CFG, that waits for the section's next evaluation. -/
def queueCmd (n : SecId) (op : SecOp) (job : Option Nat) (wr : Option Word) (s : State) : State :=
  s.modSec n (fun x => { x with cmds := x.cmds ++ [{ op := op, job := job, at_ := s.now, wr := wr }] })

/-- Tests of SEC_SERVICE at admission: RANGE, ROLE, EMPTY; 0 where all pass. -/
def serviceTest (s : State) (n : SecId) (v : Nat) : Nat :=
  if 1 < v then 1
  else if s.zl.role ≠ 2 then 7
  else if v = 1 ∧ bindings (s.sec n) = 0 then 6
  else 0

/-- SEC_SERVICE at admission. -/
def secService (n : SecId) (v : Nat) (job : Option Nat) (s : State) : State :=
  if serviceTest s n v = 0 then queueCmd n (.service (v == 1)) job none s
  else secOutcome n job (serviceTest s n v) s

/-- SEC_DISTURB at admission. -/
def secDisturb (n : SecId) (job : Option Nat) (s : State) : State :=
  if s.zl.role ≠ 2 then secOutcome n job 7 s
  else if !(s.sec n).core.service then secOutcome n job 0 s
  else queueCmd n .disturb job none s

/-- E_TOK ≤ E ≤ E_TOK + WINDOW (R187). -/
def tokenWindow (s : State) (etok : Nat) : Bool :=
  decide (etok ≤ s.epc.seq ∧ s.epc.seq ≤ etok + fld s.dev.secAuth 0 24)

/-- A reset command that ends at admission after test 2: result, record and trigger (R191, R194). -/
def resetEnd (n : SecId) (direct : Bool) (seq : Nat) (st : Status) (code : Nat) (s : State) : State :=
  let s := s.modSec n (fun x => { x with authRes := code })
  let s := queueSecRec n (secRecord s n (s.sec n).core 2 code none 0xFFFF 0xFFFF (zeros 16)) s
  let s := trig 5 n.val (put 0 4 code ||| put 4 1 (b2n direct)) s
  let s := if st = .notAuthorised then flagSec n 7 s else s
  complete seq st code [] s

/-- The tests of R191 on a section's reset command with its tokens. -/
def secReset (n : SecId) (direct : Bool) (etok : Nat) (toks : List (Nat × List Byte)) (seq : Nat) (s : State) : State :=
  if s.zl.role ≠ 2 then complete seq .conflict 2 [] (s.modSec n (fun x => { x with authRes := 2 }))
  else
    match s.key with
    | none => resetEnd n direct seq .notAuthorised 3 s
    | some key =>
      let nonce := (s.sec n).nonce
      let d := s.draw
      let s := d.2.modSec n (fun x => { x with nonce := d.1 })
      let x := s.sec n
      if !tokenWindow s etok then resetEnd n direct seq .notAuthorised 4 s
      else if toks.any (fun t => t.2 != token key t.1 n.val etok nonce) then
        resetEnd n direct seq .notAuthorised 5 (s.modSec n (fun x => { x with fails := satNat 16 (x.fails + 1) }))
      else if !x.core.service || x.core.state != .disturbed then resetEnd n direct seq .conflict 6 s
      else if !allFit s x then resetEnd n direct seq .conflict 7 s
      else if direct && !quietMet x x.quietEl then resetEnd n direct seq .conflict 8 s
      else queueCmd n (.reset direct) (some seq) none s

/-- SEC_KEY_PROGRAM (R189). -/
def keyProgram (p : List Byte) (seq : Nat) (s : State) : State :=
  if s.hp.isSealed then complete seq .sealed 0 [] s
  else if s.key.isSome then complete seq .conflict 3 [] s
  else complete seq .ok 0 [] { s with key := some (p.take 32) }

/-! ### Registers of a section (R197) -/

def secStateWord (x : Section) : Word :=
  put 16 16 (twos 16 x.core.count) ||| put 8 8 x.core.reason ||| put 6 1 (b2n x.core.conf) |||
    put 5 1 (b2n x.core.susp) ||| put 4 1 (b2n x.late) ||| put 3 1 (b2n x.latch) ||| put 2 1 (b2n x.core.service) |||
    put 0 2 x.core.state.code

/-- SEC_CFG to SEC_FAULT in address order. -/
def secRegs (x : Section) : List Word :=
  let c := x.core
  [(x.cfg &&& cfgMask) ||| put 0 1 (b2n c.service), x.match_] ++ x.bind.toList ++
  [secStateWord x, put 16 16 (twos 16 c.maxc) ||| put 0 11 c.ledger.length, put 16 8 c.firstHead ||| put 0 16 c.nomatchEp,
   put 16 16 c.displaced ||| put 0 16 c.exact, put 16 16 c.nomat ||| put 0 16 c.wildcard,
   put 16 16 c.suspended ||| put 0 16 c.unusable, word c.transIn, word c.transOut, word x.quietEl,
   word x.nonce.toNat, word (x.nonce.toNat / 2 ^ 32), put 28 4 x.authRes ||| put 0 16 x.fails,
   put 28 4 x.statRes ||| put 0 4 (bindings x), c.fault]

/-- The SEC_LEDGER_READ buffer of a ledger (R196); `epoch` is the boundary that ends the quiet window's epoch. -/
def ledgerBytes (n : Nat) (c : SecCore) (epoch : Nat) : List Byte :=
  le 2 n ++ le 2 (twos 16 c.count) ++ le 2 c.ledger.length ++ le 1 (b2n c.susp) ++ [0] ++ le 4 c.gen ++ le 4 epoch ++
    c.ledger.flatMap (fun e => slice e.sig 0 16 ++ le 1 e.head.val ++ le 1 (b2n e.wildcard + 2 * b2n e.brake) ++
      le 2 e.epoch.toNat)

/-- Write a snapshot of the state latched at the boundary that has just begun the present epoch, and complete its command
(R201, R203). -/
def takeSnap (w : Snap) (s : State) : State :=
  let x := s.sec w.sec
  complete w.job .ok 0 (if w.ledger then ledgerBytes w.sec.val x.core s.epc.seq else leWords (secRegs x)) s

/-- A snapshot waits for the end of the first quiet window that ends after its command's admission: the next boundary. -/
def askSnap (w : Snap) (s : State) : State := { s with epc := { s.epc with snaps := s.epc.snaps ++ [w] } }

/-! ### Pre-seal writes (R196, R198) -/

/-- A pre-seal write that failed with a code is counted with cause 4. -/
def secWriteErr (code off : Nat) (v : Word) (s : State) : State := if code = 0 then s else hpErr 4 false off v s

/-- Pre-seal writes of the section block: SEC_CFG, SEC_MATCH, SEC_BIND0 to 7. -/
def secPreSeal (n : SecId) (o : Nat) (v : Word) (s : State) : State :=
  let x := s.sec n
  let off := 0x200000 + n.val * 0x400 + o
  if o = 0 then
    let set := decide ((v ^^^ x.cfg) &&& cfgMask ≠ 0)
    let serve := bit v 0 != x.core.service
    let code := if set then setTest s n v x.match_ else 0
    let code := if code = 0 && serve then serviceTest s n (b2n (bit v 0)) else code
    if code ≠ 0 then secWriteErr code off v (secOutcome n none code s)
    else
      let s := if set then secSet n v x.match_ none s else s
      if serve then queueCmd n (.service (bit v 0)) none (if s.hp.muted.isSome then none else some v) s else s
  else if o = 4 then secWriteErr (setTest s n x.cfg v) off v (secSet n x.cfg v none s)
  else
    let k := (o - 8) / 4
    let words := (List.range 8).map (fun i => if i = k then v else (x.bind.toList.getD i 0))
    let entries := words.filter (fun w => bit w 15)
    secWriteErr (bindTest s n entries) off v (secBind n entries words none s)

/-- Pre-seal write of SEC_AUTH: WINDOW is clamped (R198). -/
def secAuthWrite (v : Word) (s : State) : State :=
  { s with dev := { s.dev with secAuth := put 0 24 (clamp 100 600000 (fld v 0 24)) } }

/-! ### Commands -/

/-- Continue with the section a payload names; above 255 the command completes CONFLICT with RANGE. -/
def withSec (p : List Byte) (seq : Nat) (f : SecId → State → State) (s : State) : State :=
  match secArg p 0 with
  | none => refuse seq .conflict 1 s
  | some n => f n s

/-- SEC_BIND (R171, R196). -/
def execSecBind (t : Nat) (c : Cmd) (s : State) : Host.Outcome State Fault Refusal :=
  .next (command 0x0260 false 20 0 c (fun seq => withSec c.payload seq (fun n s =>
    let k := field c.payload 2 1
    let entries := (List.range k).map (fun i => word (field c.payload (4 + 2 * i) 2))
    if 8 < k then secOutcome n (some seq) 1 s else secBind n entries entries (some seq) s)) (s.advance t))

/-- SEC_SET (R196). -/
def execSecSet (t : Nat) (c : Cmd) (s : State) : Host.Outcome State Fault Refusal :=
  .next (command 0x0261 false 10 0 c (fun seq => withSec c.payload seq (fun n =>
    secSet n (wordArg c.payload 2) (wordArg c.payload 6) (some seq))) (s.advance t))

/-- SEC_SERVICE (R186, R196). -/
def execSecService (t : Nat) (c : Cmd) (s : State) : Host.Outcome State Fault Refusal :=
  .next (command 0x0262 false 3 0 c (fun seq => withSec c.payload seq (fun n =>
    secService n (field c.payload 2 1) (some seq))) (s.advance t))

/-- SEC_DISTURB (R196). -/
def execSecDisturb (t : Nat) (c : Cmd) (s : State) : Host.Outcome State Fault Refusal :=
  .next (command 0x0263 false 2 0 c (fun seq => withSec c.payload seq (fun n => secDisturb n (some seq))) (s.advance t))

/-- SEC_LEDGER_READ (R196). The response is checked against RLEN when its length is known. -/
def execSecLedgerRead (t : Nat) (c : Cmd) (s : State) : Host.Outcome State Fault Refusal :=
  .next (command 0x0264 true 2 0 c (fun seq => withSec c.payload seq (fun n =>
    askSnap { sec := n, ledger := true, job := seq })) (s.advance t))

/-- SEC_STATUS (R196). -/
def execSecStatus (t : Nat) (c : Cmd) (s : State) : Host.Outcome State Fault Refusal :=
  .next (command 0x0265 false 2 96 c (fun seq => withSec c.payload seq (fun n =>
    askSnap { sec := n, ledger := false, job := seq })) (s.advance t))

/-- SEC_KEY_PROGRAM (R189). -/
def execSecKeyProgram (t : Nat) (c : Cmd) (s : State) : Host.Outcome State Fault Refusal :=
  .next (command 0x0266 true 32 0 c (fun seq => keyProgram c.payload seq) (s.advance t))

/-- SEC_RESET_SUP (R191, R192). -/
def execSecResetSup (t : Nat) (c : Cmd) (s : State) : Host.Outcome State Fault Refusal :=
  .next (command 0x0270 false 16 0 c (fun seq => withSec c.payload seq (fun n =>
    secReset n false (field c.payload 2 6) [(0x0270, slice c.payload 8 8)] seq)) (s.advance t))

/-- SEC_RESET_DIR (R191, R192). -/
def execSecResetDir (t : Nat) (c : Cmd) (s : State) : Host.Outcome State Fault Refusal :=
  .next (command 0x0271 false 24 0 c (fun seq => withSec c.payload seq (fun n =>
    secReset n true (field c.payload 2 6)
      [(0x0271, slice c.payload 8 8), (0x8271, slice c.payload 16 8)] seq)) (s.advance t))

end Sys2Proof.Machine
end

