-- ==== Sys2Proof/Machine/Follow.lean ====
section
/-! DEFINITION. What a device of a pair sends and follows (R195, R234 to R254): ephemerides, link messages, ledger deltas,
the generation test, adoption of sections, standby codes, replay sets, take-over and hand-down. -/
namespace Sys2Proof.Machine

/-! ### Ephemerides (R195) -/

def Eph.bytes (e : Eph) : List Byte :=
  let flags := e.state.code + 4 * b2n e.service + 8 * b2n e.latch + 16 * b2n e.late + 32 * b2n e.susp + 64 * b2n e.conf
  let b := le 1 flags ++ le 1 e.reason ++ le 2 (twos 16 e.count) ++ le 2 e.entries ++ le 2 (twos 16 e.maxc) ++
    le 6 e.epoch ++ le 2 e.section_ ++ le 2 e.nomatchEp ++ le 1 e.firstHead ++ le 1 e.mode.toNat ++ le 4 e.quietEl ++
    le 4 e.gen ++ le 4 e.stateEpoch ++ le 4 e.transIn ++ le 4 e.transOut ++ le 2 e.cfgChk ++ zeros 18
  b ++ leWord (crc32 b)

def SecState.ofCode (v : Nat) : SecState :=
  match v % 4 with
  | 0 => .clear
  | 1 => .occupied
  | 2 => .disturbed
  | _ => .restoring

/-- Read an ephemeris; none where its CRC fails. -/
def Eph.parse (l : List Byte) : Option Eph :=
  let b := slice l 0 60
  if crc32 b = word (field l 60 4) then
    let f := field l 0 1
    some { state := SecState.ofCode f, service := f.testBit 2, latch := f.testBit 3, late := f.testBit 4,
           susp := f.testBit 5, conf := f.testBit 6, reason := field l 1 1, count := sext 16 (field l 2 2),
           entries := field l 4 2, maxc := sext 16 (field l 6 2), epoch := field l 8 6, section_ := field l 14 2,
           nomatchEp := field l 16 2, firstHead := field l 18 1, mode := BitVec.ofNat 2 (field l 19 1),
           quietEl := field l 20 4, gen := field l 24 4, stateEpoch := field l 28 4, transIn := field l 32 4,
           transOut := field l 36 4, cfgChk := field l 40 2 }
  else none

/-- The ephemeris latched at a boundary that starts epoch `seq`. -/
def ephOf (n seq : Nat) (x : Section) : Eph :=
  let c := x.core
  { state := c.state, service := c.service, latch := x.latch, late := x.eval == .dropped, susp := c.susp, conf := c.conf,
    reason := c.reason, count := c.count, entries := c.ledger.length, maxc := c.maxc, epoch := seq, section_ := n,
    nomatchEp := c.nomatchEp, firstHead := c.firstHead, mode := BitVec.ofNat 2 (fld x.cfg 4 2), quietEl := x.quietEl,
    gen := c.gen, stateEpoch := c.stateEpoch, transIn := c.transIn, transOut := c.transOut, cfgChk := cfgChk x }

/-! ### Link messages (R237 to R240) -/

/-- A message with its header, CRC and padding. -/
def linkBytes (type part : Nat) (last : Bool) (gen : BitVec 16) (epoch : Nat) (payload : List Byte) : List Byte :=
  let b := le 1 type ++ le 1 part ++ le 1 (b2n last) ++ [0] ++ le 2 gen.toNat ++ le 6 epoch ++ le 2 payload.length ++
    [0, 0] ++ payload
  let m := b ++ leWord (crc32 b)
  m ++ zeros ((32 - m.length % 32) % 32)

def sendLink (b : List Byte) (s : State) : State := { s with out := .link b :: s.out }

/-- One ledger delta record (R239). -/
def deltaBytes (n : SecId) : Delta → List Byte
  | .append i e => [1] ++ le 1 (b2n e.wildcard + 2 * b2n e.brake) ++ le 2 n.val ++ le 2 i ++ le 1 e.head.val ++ [0] ++
      le 2 e.epoch.toNat ++ [0, 0] ++ slice e.sig 0 16
  | .remove i => [2, 0] ++ le 2 n.val ++ le 2 i ++ [0, 0]
  | .empty => [3, 0] ++ le 2 n.val ++ zeros 4

/-- Put a record in the parts of a set, newest part first; none where eight parts of 1,024 bytes cannot take it. -/
def addRecord (parts : List (List Byte)) (r : List Byte) : Option (List (List Byte)) :=
  match parts with
  | [] => some [r]
  | p :: ps =>
    if p.length + r.length ≤ 1024 then some ((p ++ r) :: ps)
    else if parts.length < 8 then some (r :: parts) else none

def addRecords (parts : List (List Byte)) : List (List Byte) → Option (List (List Byte))
  | [] => some parts
  | r :: rs =>
    match addRecord parts r with
    | some p => addRecords p rs
    | none => none

/-- The LDELTA parts of a set, first to last: each section's records whole or not at all (R240). -/
def deltaParts (l : List (SecId × List Delta)) : List (List Byte) :=
  let parts := l.foldl (fun parts e =>
    match addRecords parts (e.2.map (deltaBytes e.1)) with
    | some p => p
    | none => parts) []
  if parts.isEmpty then [[]] else parts.reverse

/-- Read packed delta records; `fuel` bounds their number. -/
def parseDeltas : Nat → List Byte → List (Nat × Delta)
  | 0, _ => []
  | fuel + 1, l =>
    match l with
    | [] => []
    | op :: _ =>
      let n := field l 2 2
      if op = 1 then
        let e : Entry := { sig := slice l 12 16, head := Fin.ofNat 256 (field l 6 1), wildcard := (field l 1 1).testBit 0,
                           brake := (field l 1 1).testBit 1, epoch := BitVec.ofNat 16 (field l 8 2) }
        (n, .append (field l 4 2) e) :: parseDeltas fuel (l.drop 28)
      else if op = 2 then (n, .remove (field l 4 2)) :: parseDeltas fuel (l.drop 8)
      else if op = 3 then (n, .empty) :: parseDeltas fuel (l.drop 8)
      else []

/-- A COVER entry of a stamp (R239). -/
def coverEntry (s : State) (o : Option Int) : List Byte :=
  match o with
  | none => zeros 8
  | some st =>
    let l := latchAt s (stampPs st)
    le 4 l.seq ++ le 2 ((stampPs st - l.at_) / 100000) ++ [1, 0]

/-- A stamp of a received COVER, on the device's own internal time in 100 ns, by its own boundary of the same epoch. -/
def coverStamp (s : State) (b : List Byte) (h : HeadId) : Option (Option Int) :=
  let i := 8 * h.val
  if (field b (i + 6) 1).testBit 0 then
    let own := (((field b i 4 : Nat) : Int) + s.zl.offset) % (2 ^ 32 : Nat)
    some ((s.tb.latches.find? (fun l => ((l.seq % 2 ^ 32 : Nat) : Int) == own)).map (fun l =>
      (((rdiv l.at_ 100000) + field b (i + 4) 2 : Nat) : Int)))
  else none

/-! ### The generation test (R234) -/

/-- GEN of a message minus the device's own, modulo 65,536. -/
def genDiff (s : State) (gen : BitVec 16) : Nat := (gen - s.aon.gen).toNat

/-- Judge a message: whether it is used, and what the judgement changes. -/
def judge (m : LinkMsg) (status : Bool) (s : State) : Bool × State :=
  let d := genDiff s m.gen
  if d = 0 then (true, s)
  else if d ≤ 32767 then
    if s.zl.role ≠ 2 then (true, { s with aon := { s.aon with gen := m.gen } })
    else if status && field m.payload 0 1 % 4 != 2 then (false, { s with aon := { s.aon with gen := m.gen + 1 } })
    else (false, flagZl 2 s)
  else (false, flagZl 1 { s with zl := { s.zl with stale := satNat 32 (s.zl.stale + 1) } })

/-- The link receives messages: its lanes are locked. -/
def linkReceives (s : State) : Bool := s.zl.link == .wait || s.zl.link == .up

/-! ### Adoption (R243, R245, R247) -/

/-- The set that a follower adopts in its present epoch: X = Xs − OFFSET. -/
def setEpoch (s : State) : Nat := (((s.epc.seq : Int) - s.zl.offset) % (2 ^ 48 : Nat)).toNat

/-- Every LDELTA part up to LAST has arrived. -/
def deltasIn (r : RxSet) : Bool :=
  match r.ldLast with
  | none => false
  | some k => (List.range (k + 1)).all (fun i => r.ldelta.any (fun p => p.1 == i))

/-- The section's ephemeris in the set being received, where it passes the checks of R195. -/
def rxEph (s : State) (n : SecId) : Option Eph :=
  s.zl.rx.bind (fun r =>
    (r.eph.find? (fun p => p.1 == n.val / 16)).bind (fun p =>
      (Eph.parse (slice p.2 (64 * (n.val % 16)) 64)).filter (fun e =>
        decide (e.epoch = r.epoch ∧ e.section_ = n.val))))

/-- Link, alignment and messages let the section's ephemeris be used (R243). -/
def setReady (s : State) : Bool :=
  s.zl.role != 2 && s.zl.link == .up && s.zl.aligned &&
    match s.zl.rx with
    | none => false
    | some r => r.epoch == setEpoch s && r.status && r.cover.isSome && deltasIn r

def adoptable (s : State) (n : SecId) : Option Eph := if setReady s then rxEph s n else none

/-- Delta records of the section in the set, in order. -/
def rxDeltas (s : State) (n : SecId) : List Delta :=
  match s.zl.rx with
  | none => []
  | some r =>
    (List.range 8).flatMap (fun i =>
      match r.ldelta.find? (fun p => p.1 == i) with
      | some p => ((parseDeltas p.2.length p.2).filter (fun d => d.1 == n.val)).map (·.2)
      | none => [])

/-- One delta record on a ledger copy. -/
def applyDelta (c : SecCore) : Delta → SecCore
  | .append _ e => { c with ledger := c.ledger ++ [e], gen := (c.gen + 1) % 2 ^ 32 }
  | .remove i => { c with ledger := c.ledger.eraseIdx i, gen := (c.gen + 1) % 2 ^ 32 }
  | .empty => { c with ledger := [], gen := (c.gen + 1) % 2 ^ 32 }

/-- The working copy of an adoption (R243). The set's records do not apply on top of a ledger snapshot of its own or a
later boundary. -/
def adoptPriv (s : State) (n : SecId) (e : Eph) : Priv :=
  let x := s.sec n
  let c := x.core
  let skip := match x.ledgerSnap with
    | some k => decide (e.epoch ≤ k)
    | none => false
  let c' := if skip then c else (rxDeltas s n).foldl applyDelta c
  let moved := c.state != e.state || c.service != e.service
  let p := Priv.start { c' with
    state := e.state, service := e.service, reason := e.reason, count := e.count, maxc := e.maxc,
    nomatchEp := e.nomatchEp, firstHead := e.firstHead, conf := e.conf, susp := e.susp, stateEpoch := e.stateEpoch,
    transIn := e.transIn, transOut := e.transOut }
  let p : Priv := { p with adopted := true }
  if moved then
    let p := if c.state = e.state then p
      else match e.state with
        | .disturbed => p.flag 0
        | .clear => p.flag 1
        | .restoring => p.flag 2
        | .occupied => p
    p.changed s n none
  else p

/-- ENTRIES and LEDGER_GEN of the copy equal those of the ephemeris. -/
def inSync (c : SecCore) (e : Eph) : Bool := c.ledger.length == e.entries && c.gen == e.gen

/-- The adopted ephemeris shows a reset form applied after the local fail (R245). -/
def resetAfter (s : State) (f : LocalFail) (e : Eph) : Bool :=
  let own := ((e.stateEpoch : Int) + s.zl.offset) % (2 ^ 32 : Nat)
  let d := (own - (f.epoch : Int)) % (2 ^ 32 : Nat)
  e.reason == 0 && decide (0 < d ∧ d < 2 ^ 31)

/-- Discard the kept transits that the partner's COVER accounts for (R247). -/
def dropCovered (s : State) : State :=
  match s.zl.rx with
  | none => s
  | some r =>
    match r.cover with
    | none => s
    | some b =>
      let keep (k : Kept) : Bool :=
        match coverStamp s b k.head with
        | none => false
        | some none => true
        | some (some st) => decide (st + 10000 < k.item.stamp)
      { s with zl := { s.zl with kept := s.zl.kept.filter keep } }

/-- What the commit of an adoption writes beside the working copy. -/
def adoptCommit (n : SecId) (e : Eph) (s : State) : State :=
  let s := s.modSec n (fun x => { x with
    quietEl := e.quietEl
    adopted := some s.epc.seq
    adoptedLate := e.late
    mismatch := false
    synced := inSync x.core e
    localFail := match x.localFail with
      | some f => if resetAfter s f e && allFit s x then none else some f
      | none => none })
  dropCovered s

/-- A section in service that is not adopted in an epoch (R243). -/
def missAdoption (n : SecId) (s : State) : State :=
  let s' := s.modSec n (fun x => { x with eval := .none, intake := [], intakeCmd := [] })
  if (s.sec n).core.service then
    { s' with zl := { s'.zl with missed := satNat 16 (s'.zl.missed + 1) } }
  else s'

/-- A CFG_CHK that differs: configuration mismatch (R243). -/
def setMismatch (n : SecId) (s : State) : State := flagZl 5 (s.modSec n (fun x => { x with mismatch := true }))

/-! ### Standby codes (R244) -/

/-- A slice in use on a bound head that a standby cannot count on. -/
def sliceUnready (s : State) (h : HeadId) : Bool :=
  (usedSlices s h).any (fun x =>
    let v := (s.head h).xs.slice.get x
    !settled s h x || !v.locked || v.mismatch)

/-- CLEAR code of a frame with this SEQ (R219). -/
def clearCode (seq : Nat) : BitVec 2 := if seq % 2 = 0 then 1 else 2

/-- Code of a state in a frame with this SEQ (R219). -/
def stateCode (st : SecState) (seq : Nat) : BitVec 2 :=
  match st with
  | .clear => clearCode seq
  | .disturbed => 3
  | _ => 0

/-- The code of a section by the table of standby codes, in the frame that starts epoch `seq`; `s.epc.seq` is still the
epoch that ends. -/
def standbyCode (s : State) (n : SecId) (seq : Nat) : BitVec 2 :=
  let x := s.sec n
  if !x.core.service then 3
  else if x.mismatch || x.localFail.isSome then 3
  else if x.adopted != some s.epc.seq || x.adoptedLate then 0
  else if !x.synced && decide (1 ≤ x.core.count) then 0
  else if (boundHeads x).any (sliceUnready s) then 0
  else stateCode x.core.state seq

/-- A section in service whose ledger copy a follower holds unsynchronised; an active device owns its ledgers. -/
def unsynced (s : State) (n : SecId) : Bool := s.zl.role != 2 && (s.sec n).core.service && !(s.sec n).synced

def unsyncCount (s : State) : Nat := ((allFin 256).filter (unsynced s)).length

/-- The conditions of READY that hold in one epoch (R246). -/
def readyEpoch (s : State) : Bool :=
  (allFin 256).all (fun n =>
    let x := s.sec n
    !x.core.service || (x.adopted == some s.epc.seq && x.synced && !x.mismatch && x.localFail.isNone))

/-- Slices in RUN. -/
def runSlices (s : State) : List (HeadId × Sys) :=
  (allFin 256).flatMap (fun h => if inRun s h then (usedSlices s h).map (fun x => (h, x)) else [])

/-- READY (R246). -/
def zlReady (s : State) : Bool :=
  bit s.zl.cfg 0 && s.zl.role != 2 && s.zl.link == .up && s.zl.aligned && decide (100 ≤ s.zl.readyRun) &&
    (runSlices s).all (fun p =>
      let v := (s.head p.1).xs.slice.get p.2
      settled s p.1 p.2 && v.locked && !v.mismatch)

/-! ### Take-over and hand-down (R253, R254) -/

/-- The state from which a section taken over begins: reason of a fail, or none where the adopted state stands. -/
def takeOverReason (x : Section) (seq : Nat) : Option Nat :=
  if x.mismatch then some 2
  else
    match x.localFail with
    | some f => some f.reason
    | none =>
      match x.adopted with
      | none => some 11
      | some a => if a + 16 < seq then some 11 else none

/-- The replay set of a section: kept transits of its bound heads (R247). -/
def replayOf (s : State) (x : Section) : List Item := (s.zl.kept.filter (fun k => boundTo k.head x)).map (·.item)

/-- Items other than transits; the transits among them are in the replay set unless the partner has issued them. -/
def otherItems (l : List Item) : List Item :=
  l.filter (fun i =>
    match i.kind with
    | .transit _ _ => false
    | _ => true)

/-- A section in service as it is taken over at the boundary that starts epoch `seq`. Its items are the replay set and
what was queued since the intake cut. -/
def takeOverSec (seq : Nat) (n : SecId) (s : State) : State :=
  let x := s.sec n
  if !x.core.service then s
  else
    let s := s.modSec n (fun x => { x with queue := replayOf s x ++ otherItems x.queue, intake := [] })
    let commit (p : Priv) (s : State) : State :=
      let s := s.modSec n (fun x => { x with core := { p.core with fault := x.core.fault ||| p.core.fault } })
      let s := foldOver p.recs (queueSecRec n) s
      let s := { s with zl := { s.zl with deltas := if p.deltas.isEmpty then s.zl.deltas
                                                    else s.zl.deltas ++ [(n, p.deltas)] } }
      foldOver p.trigs (fun t s => trig t.1 t.2.1 t.2.2 s) s
    match takeOverReason x seq with
    | some r =>
      let p := Priv.start x.core
      let p := if x.core.state = .disturbed then { p with core := { p.core with reason := r } } else p.fail s n r none
      commit p s
    | none =>
      if !x.synced && decide (1 ≤ x.core.count) then
        let p := (Priv.start x.core).emptied
        let p := Priv.flag 4 { p with core := { p.core with susp := true } }
        flagZl 6 (commit (p.rec_ s n 3 0 none) s)
      else s

/-- A section command not applied when the role in force leaves 10 completes ROLE_STALE (R192, R196, R254). -/
def staleCmd (n : SecId) (c : SecCmd) (s : State) : State :=
  match c.op with
  | .reset direct =>
    let s := s.modSec n (fun x => { x with authRes := 10 })
    let s := queueSecRec n (secRecord s n (s.sec n).core 2 10 none 0xFFFF 0xFFFF (zeros 16)) s
    completeJob c.job .roleStale 10 (trig 5 n.val (put 0 4 10 ||| put 4 1 (b2n direct)) s)
  | _ => completeJob c.job .roleStale 9 (s.modSec n (fun x => { x with statRes := 9 }))

/-- A section as the role in force leaves 10. -/
def handDownSec (n : SecId) (s : State) : State :=
  let cmds := (s.sec n).cmds
  let s := s.modSec n (fun x => { x with
    cmds := [], localFail := none, mismatch := false, adopted := none, adoptedLate := false, synced := false,
    ledgerSnap := none })
  foldOver cmds (staleCmd n) s

/-- Every section of a follower becomes unsynchronised, as the link leaves UP (R236). -/
def unsyncAll (s : State) : State := { s with sections := tabulate 256 (fun i =>
  let x := s.sec (Fin.ofNat 256 i)
  if x.core.service then { x with synced := false } else x) }

end Sys2Proof.Machine
end

