-- ==== Sys2Proof/Machine/Lane.lean ====
section
/-! DEFINITION. A lane of the vital status port (R212 to R223): its copy of a frame, the clock edges of a read, live trip
gating, CRC and build check, and the end, abort or cut of a read in progress. -/
namespace Sys2Proof.Machine

/-- Bits of a number, most significant first. -/
def msb (n v : Nat) : List Bool := ((List.range n).map (fun i => v.testBit i)).reverse

/-- Frame bits 0 to 543 (R217). -/
def frameBits (hdr : Word) (codes : List (BitVec 2)) : List Bool :=
  msb 32 hdr.toNat ++ codes.flatMap (fun c => msb 2 c.toNat)

/-- Lane index: A 0, B 1, C 2. -/
def laneIdx : Lane → Nat
  | .a => 0
  | .b => 1
  | .c => 2

def Vsp.lane (v : Vsp) : Lane → LaneSt
  | .a => v.a
  | .b => v.b
  | .c => v.c

def Vsp.setLane (v : Vsp) (l : Lane) (x : LaneSt) : Vsp :=
  match l with
  | .a => { v with a := x }
  | .b => { v with b := x }
  | .c => { v with c := x }

def State.modLane (s : State) (l : Lane) (f : LaneSt → LaneSt) : State :=
  { s with vsp := s.vsp.setLane l (f (s.vsp.lane l)) }

/-- The lane answers reads: core die running, LINK domain up, lane enabled (R223). -/
def laneServes (s : State) (l : Lane) : Bool := running s && s.pwr.linkUp && bit s.vsp.ctrl (laneIdx l)

/-- The level of VSP_D_x: high-impedance with the LINK domain down, low outside a read, otherwise the data of the read
(R213, R223, R362). -/
inductive PadLevel | highZ | low | data
deriving DecidableEq, Repr

/-! ### The clock edges and the trip samples of a read (R213, R136) -/

/-- The instant of the rising edge S + k. -/
def LaneRead.edge (r : LaneRead) (k : Nat) : Nat := r.start + k * r.period + (if r.stallAt < k then r.stallFor else 0)

/-- Bits launched by an instant: bit k at the edge S + 1 + k. -/
def LaneRead.launchedBy (r : LaneRead) (now : Nat) : Nat :=
  ((List.range 576).filter (fun k => decide (r.edge (k + 1) ≤ now))).length

/-- The instant at which bit 575 is launched. -/
def LaneRead.done (r : LaneRead) : Nat := r.edge 576

/-- The sampling edge of bit k: the falling edge before its launch. -/
def LaneRead.sampleEdge (r : LaneRead) (k : Nat) : Nat := r.edge (k + 1) - r.low

/-- A section's trip latch at an instant. -/
def latchThen (x : Section) (ts : Nat) : Bool :=
  x.latch != decide ((x.latchLog.filter (fun c => decide (ts < c))).length % 2 = 1)

/-- What the trip latch samples as at an edge: as it stands there, but either way where it changes within 0.3 ns of the
edge, as `near` says (R136). -/
def sampleLatch (x : Section) (near : Bool) (ts : Nat) : Bool :=
  if x.latchLog.any (fun c => decide (ts < c + 300 ∧ c < ts + 300)) then near else latchThen x ts

/-- The sample of the section for frame bit k. -/
def tripSample (s : State) (r : LaneRead) (n : SecId) (k : Nat) : Bool :=
  sampleLatch (s.sec n) (r.near.contains k) (r.sampleEdge k)

/-- A code with its trip samples: only a CLEAR code is gated (R133). -/
def gateCode (a b : Bool) (t : Bool × Bool) : List Bool := if a == b then [a, b] else [a && !t.1, b && !t.2]

/-- The code bits from section `n` on, gated. -/
def gateCodes (s : State) (r : LaneRead) : Nat → List Bool → List Bool
  | n, a :: b :: rest =>
    let m : SecId := Fin.ofNat 256 n
    gateCode a b (tripSample s r m (32 + 2 * n), tripSample s r m (33 + 2 * n)) ++ gateCodes s r (n + 1) rest
  | _, l => l

/-- Bits 0 to 543 as a lane launches them. -/
def launched (s : State) (r : LaneRead) : List Bool := r.copy.take 32 ++ gateCodes s r 0 (r.copy.drop 32)

/-- The CRC that a lane launches: complemented on a build-check mismatch or where armed by VSP_TEST. -/
def laneCrc (bits : List Bool) (flip : Bool) : Word := if flip then ~~~ crcBits bits else crcBits bits

/-- The 576 bits of a read that goes to its end. -/
def readBits (s : State) (l : Lane) (r : LaneRead) : List Bool :=
  let b := launched s r
  b ++ msb 32 (laneCrc b (r.bad || (s.vsp.lane l).crcFail)).toNat

/-! ### The copy (R214, R218, R221) -/

/-- The frame that a lane loads at S: the present one; within 20 ns of its boundary, possibly the one before (R214). -/
def loadsOld (s : State) (i : ReadInput) : Bool := i.loadOld && s.vsp.old.isSome && decide (s.now < s.epc.start + ns 20)

def loadFrame (s : State) (i : ReadInput) : Option Frame := if loadsOld s i then s.vsp.old else s.vsp.frame

/-- Bits 0 to 543 of a lane's copy, faults included. -/
def copyBits (f : Frame) (flipped : List Nat) : List Bool :=
  (frameBits f.hdr f.codes.toList).mapIdx (fun i b => if flipped.contains i then !b else b)

/-- The copy with bits 2 and 3, LANE, replaced (R218). -/
def withLane (l : List Bool) (n : Nat) : List Bool := l.take 2 ++ msb 2 n ++ l.drop 4

/-- The recomputed build check differs from the latched one (R221). -/
def buildBad (f : Frame) (i : ReadInput) : Bool := crcBits (withLane (copyBits f i.flipped) 0) != f.check

/-- The read that begins now with a frame. -/
def startRead (s : State) (l : Lane) (f : Frame) (i : ReadInput) : LaneRead :=
  { start := s.now, period := i.period, low := i.low, stallAt := i.stallAt, stallFor := i.stallFor
    copy := withLane (copyBits f i.flipped) (laneIdx l), bad := buildBad f i, seq := BitVec.ofNat 24 (fld f.hdr 0 24)
    near := i.near, padAt := i.padAt }

/-! ### How a read ends (R215, R221, R223, R226) -/

/-- The flags that the first `n` bits of a read bring: a pad disagreement, and a build-check mismatch once all bits of the
copy are launched. -/
def readFlags (l : Lane) (r : LaneRead) (n : Nat) : Word :=
  (match r.padAt with
   | some k => if k < n then bits (8 + laneIdx l) 1 else 0
   | none => 0) ||| (if r.bad && decide (544 ≤ n) then bits (12 + laneIdx l) 1 else 0)

/-- A read whose last bit is launched is complete (R213, R227; assumption log 40). -/
def endRead (l : Lane) (s : State) : State :=
  match (s.vsp.lane l).read with
  | some r =>
    if r.done ≤ s.now then
      let b := readBits s l r
      flagVsp (readFlags l r 576) (s.modLane l (fun x => { x with
        read := none, bits := b, lastSeq := r.seq, complete := (x.complete + 1) % 65536, crcFail := false }))
    else s
  | none => s

/-- The reads of all lanes that have come to their end. -/
def endReads (s : State) : State := endRead .c (endRead .b (endRead .a s))

/-- VSP_SYNC_x is sampled low before bit 575 is launched: the read is aborted (R215). -/
def abortRead (l : Lane) (s : State) : State :=
  let s := endRead l s
  match (s.vsp.lane l).read with
  | some r =>
    let n := r.launchedBy s.now
    let b := (readBits s l r).take n
    flagVsp (readFlags l r n ||| bits (16 + laneIdx l) 1) (s.modLane l (fun x => { x with
      read := none, bits := b, aborted := (x.aborted + 1) % 256 }))
  | none => s

/-- The lane is held low: a read in progress is cut off, neither complete nor aborted (R223). -/
def cutRead (l : Lane) (s : State) : State :=
  let s := endRead l s
  match (s.vsp.lane l).read with
  | some r =>
    let b := (readBits s l r).take (r.launchedBy s.now)
    s.modLane l (fun x => { x with read := none, bits := b })
  | none => s

def cutReads (s : State) : State := cutRead .c (cutRead .b (cutRead .a s))

/-- The level that VSP_D_x shows now. -/
def padLevel (s : State) (l : Lane) : PadLevel :=
  if !s.pwr.linkUp then .highZ
  else
    match (s.vsp.lane l).read with
    | some r => if r.edge 1 ≤ s.now ∧ s.now < r.edge 577 then .data else .low
    | none => .low

end Sys2Proof.Machine
end

