-- ==== Sys2Proof/Machine/TimeBase.lean ====
section
/-! DEFINITION. The time base (R302 to R309): TB_NOW, modes, discipline, steps and generations, and the TB_ block. -/
namespace Sys2Proof.Machine

/-! ### TB_NOW (R302) -/

/-- A nanosecond in units of the accumulator (assumption log 84). -/
def tbUnit : Nat := 24 * 10 ^ 9

/-- SCLK periods up to an instant. -/
def sclkTick (t : Nat) : Nat := t * 24 / 1000000

/-- The rate: 10^9 and the deviation from nominal in 0.001 ppm. -/
def tbRate (s : State) : Nat := ((10 ^ 9 : Nat) + s.tb.dev).toNat

/-- SCLK periods since the anchor. In FREE an epoch that the slew of R241 lengthens, by 10 ns at most, still has 2,400 of
them (R303). -/
def tbTicks (s : State) (t : Nat) : Nat :=
  let n := sclkTick t - sclkTick s.tb.accAt
  if s.tb.mode = 0 ∧ s.tb.latches ≠ [] ∧ t ≤ s.tb.accAt + us 100 + ns 10 then min 2400 n else n

/-- The accumulator at an instant: the rate is added every SCLK period since the anchor. -/
def tbAcc (s : State) (t : Nat) : Nat := (s.tb.acc + tbTicks s t * (1000 * tbRate s)) % (2 ^ 64 * tbUnit)

/-- TB_NOW at an instant. -/
def tbNow (s : State) (t : Nat) : Nat := tbAcc s t / tbUnit

/-- TB_NOW as an edge between two SCLK periods captures it, to 1 ns, with an error in ns of at most 5 (R304, R306). -/
def tbCapture (s : State) (err : Int) : Nat :=
  let v := (s.tb.acc + (s.now * 24 - sclkTick s.tb.accAt * 1000000) * tbRate s / 1000) / tbUnit
  ((v + max (-5) (min 5 err)) % (2 ^ 64 : Nat)).toNat

/-- Anchor the accumulator at the present instant, before the rate changes. -/
def tbAnchor (s : State) : State := { s with tb := { s.tb with acc := tbAcc s s.now, accAt := s.now } }

/-- Limits of a rate: 150 ppm (R302). -/
def clampRate (i : Int) : Int := max (-150000) (min 150000 i)

/-- Set the rate: the reference's part and the correction. -/
def setRate (base adj : Int) (s : State) : State :=
  let s := tbAnchor s
  { s with tb := { s.tb with base := clampRate base, dev := clampRate (clampRate base + adj) } }

/-- The device measures TB_10M: a free value (assumption log 11). -/
def measureRef (s : State) : State :=
  let s' := setRate (Config.tbRate s.free) 0 s
  { s' with free := s.free + 1 }

/-! ### Modes and states (R303, R305) -/

/-- MODE takes its rate from TB_10M. -/
def uses10M (m : BitVec 2) : Bool := m == 1 || m == 3

/-- MODE takes its phase from TB_PPS. -/
def usesPps (m : BitVec 2) : Bool := m == 2 || m == 3

/-- Enter a discipline state. -/
def tbEnter (st : TbState) (s : State) : State :=
  let s := { s with tb := { s.tb with st := st, ppsGood := 0, freqHeld := false } }
  match st with
  | .locked => flagTb 1 s
  | .holdover => flagTb 2 s
  | _ => s

/-- A change of MODE, at an epoch boundary. -/
def tbMode (s : State) : State :=
  let m : BitVec 2 := BitVec.ofNat 2 (fld s.tb.cfg 0 2)
  let old := s.tb.mode
  if m = old then s
  else
    let s := { s with tb := { s.tb with mode := m } }
    if m = 0 then setRate 0 0 (tbEnter .free s)
    else
      let s := if uses10M m && !uses10M old then measureRef s else s
      if old = 0 then tbEnter .acquire s else s

/-- A reference used by the mode is lost: HOLDOVER, with its flag; the rate stays frozen. -/
def refLost (flag : Nat) (s : State) : State :=
  if s.tb.st = .acquire ∨ s.tb.st = .locked then flagTb flag (tbEnter .holdover s) else s

/-- TB_10M is lost, and CLK_SCLK_PPM.VS_TB shows it absent (R343). -/
def tenMhzLoss (s : State) : State :=
  let s := { s with tb := { s.tb with refOk := false }, clk := { s.clk with vsTb := 0x8000 } }
  if uses10M s.tb.mode then refLost 3 s else s

/-- TB_PPS is lost, 1.5 s after its last edge. -/
def ppsLoss (s : State) : State :=
  match s.tb.lastPps with
  | none => s
  | some p =>
    if p + ms 1500 ≤ s.now then
      let s := { s with tb := { s.tb with ppsOk := false } }
      if usesPps s.tb.mode then refLost 4 s else s
    else s

/-- Every reference used by the mode is present again. -/
def refReturn (s : State) : State :=
  let m := s.tb.mode
  let s := { s with tb := { s.tb with refOk := s.tb.refOk || uses10M m, ppsOk := s.tb.ppsOk || usesPps m } }
  if s.tb.st = .holdover then
    let s := tbEnter .acquire s
    if uses10M m then measureRef s else s
  else s

/-- The rate has held within 0.01 ppm of TB_10M for 1 s: the whole lock criterion in FREQ, one of two in FULL. -/
def freqLock (s : State) : State :=
  if !uses10M s.tb.mode || s.tb.st != .acquire then s
  else
    let s := { s with tb := { s.tb with refOk := true, freqHeld := true } }
    if s.tb.mode = 1 ∨ 10 ≤ s.tb.ppsGood then tbEnter .locked s else s

/-! ### PPS edges (R304) -/

/-- PPS_LIM in us, 0 treated as 1. -/
def ppsLim (w : Word) : Nat := max 1 (fld w 16 16)

/-- e of R304. -/
def ppsError (capture : Nat) (offset : Int) : Int := ((capture : Int) - offset + 500000000) % 1000000000 - 500000000

/-- The reference's part of the rate from the interval between edges, in PPS (R303). -/
def ppsBase (s : State) : Int :=
  match s.tb.lastPps with
  | none => s.tb.base
  | some p =>
    let i := s.now - p
    if ms 500 ≤ i ∧ i < ms 1500 then ((10 ^ 12 : Nat) - (i : Int)) * (10 ^ 9 : Nat) / i else s.tb.base

/-- A rising TB_PPS edge, captured with an error. -/
def ppsEdge (err : Int) (s : State) : State :=
  let capture := tbCapture s err
  let base := if s.tb.mode = 2 then ppsBase s else s.tb.base
  let s := { s with tb := { s.tb with ppsOk := true, lastPps := some s.now } }
  if !usesPps s.tb.mode then s
  else
    let e := ppsError capture (sext 16 (fld s.tb.disc 0 16))
    let s := { s with tb := { s.tb with ppsErr := satInt 32 e } }
    if e.natAbs ≤ ppsLim s.tb.disc * 1000 then
      let s := if s.tb.st = .holdover then s else setRate base (max (-100000) (min 100000 (-e))) s
      let good := if e.natAbs ≤ 100 then s.tb.ppsGood + 1 else 0
      let s := { s with tb := { s.tb with ppsGood := good } }
      if s.tb.st = .acquire ∧ 10 ≤ good ∧ (s.tb.mode = 2 ∨ s.tb.freqHeld = true) then tbEnter .locked s else s
    else
      let s := flagTb 5 { s with tb := { s.tb with ppsGood := 0 } }
      if s.tb.st = .locked then tbEnter .acquire s else s

/-! ### Steps (R307, R308) -/

/-- TB_NOW moves by a step at a boundary; the generation increments. -/
def applyStep (st : TbStep) (s : State) : State :=
  let s := tbAnchor s
  let old := tbNow s s.now % 2 ^ 64
  let new := if st.absolute then st.value.toNat else (old + st.value.toNat) % 2 ^ 64
  let by_ : Int := if st.absolute then (new : Int) - old else sext 64 st.value.toNat
  { s with
    tb := { s.tb with acc := new * tbUnit + s.tb.acc % tbUnit, step := none, lastStep := satInt 32 (by_.tdiv 1000) }
    aon := { s.aon with tbGen := s.aon.tbGen + 1 } }

/-- What an applied step brings: flag, trigger, discipline, completion. -/
def stepEffects (st : TbStep) (s : State) : State :=
  let s := trig 13 0xFFFF (word (twos 32 s.tb.lastStep)) (flagTb 0 s)
  let s := if s.tb.st = .locked && usesPps s.tb.mode then tbEnter .acquire s else s
  completeJob st.job .ok 0 s

/-- The latch of R150 at a boundary. -/
def pushLatch (seq : Nat) (s : State) : State :=
  { s with tb := { s.tb with latches :=
    { at_ := s.now, seq := seq, tb := tbNow s s.now % 2 ^ 64, gen := s.aon.tbGen } :: s.tb.latches } }

/-- What the time base does at a boundary that starts epoch `seq`: MODE, a step, the latch of R150. -/
def tbBoundary (seq : Nat) (s : State) : State :=
  let s := tbMode (tbAnchor s)
  match s.tb.step with
  | some st =>
    if st.atSeq ≤ seq then stepEffects st (pushLatch seq (applyStep st s)) else pushLatch seq s
  | none => pushLatch seq s

/-- The first boundary at least 2 us after the present instant (R307). -/
def stepB1 (s : State) : Nat := if s.now + us 2 ≤ s.epc.start + us 100 then s.epc.seq + 1 else s.epc.seq + 2

/-- A refusal with its TB_STAT.RESULT code. -/
def tbRefuse (seq : Nat) (st : Status) (code : Nat) (s : State) : State :=
  complete seq st code [] { s with tb := { s.tb with result := code } }

/-- TB_STEP at admission. -/
def tbStep (p : List Byte) (seq : Nat) (s : State) : State :=
  let form := field p 0 1
  let apply := field p 2 6
  let b1 := stepB1 s
  if 1 < form then tbRefuse seq .conflict 1 s
  else if apply ≠ 0 ∧ apply ≠ b1 ∧ apply ≠ b1 + 1 then tbRefuse seq .conflict 2 s
  else if s.tb.step.isSome then tbRefuse seq .refusedBusy 3 s
  else { s with tb := { s.tb with
    result := 0
    step := some { absolute := form == 1, value := BitVec.ofNat 64 (field p 8 8),
                   atSeq := if apply = 0 then b1 else apply, job := some seq } } }

/-- TB_SET (R323): every value of its fields is in range. -/
def tbSet (cfg disc : Word) (s : State) : State :=
  { s with tb := { s.tb with cfg := cfg &&& 3, disc := disc, result := 0 } }

/-- Pre-seal writes of TB_CFG and TB_DISC. -/
def tbPreSeal (off : Nat) (v : Word) (s : State) : State :=
  if off = 0x4A010 then tbSet v s.tb.disc s else tbSet s.tb.cfg v s

def TbState.code : TbState → Nat
  | .free => 0
  | .acquire => 1
  | .locked => 2
  | .holdover => 3

def tbStat (s : State) : Word :=
  put 28 4 s.tb.result ||| put 7 1 (b2n s.tb.step.isSome) ||| put 6 1 (b2n s.tb.ppsOk) |||
    put 5 1 (b2n s.tb.refOk) ||| put 0 2 s.tb.st.code

/-- TB_NOW as latched at the last boundary. -/
def tbEpoch (s : State) : Nat :=
  match s.tb.latches with
  | l :: _ => l.tb
  | [] => 0

/-- What a read of TB_NOW_LO captures. -/
def readTbNow (s : State) : State :=
  { s with tb := { s.tb with nowHi := word (tbNow s s.now % 2 ^ 64 / 2 ^ 32) } }

/-- What a read of TB_EPOCH_LO captures. -/
def readTbEpoch (s : State) : State := { s with tb := { s.tb with epochHi := word (tbEpoch s / 2 ^ 32) } }

/-! ### Meanings -/

def execTbSet (t : Nat) (c : Cmd) (s : State) : Host.Outcome State Fault Refusal :=
  .next (command 0x0290 false 8 0 c (fun seq s =>
    done seq (tbSet (wordArg c.payload 0) (wordArg c.payload 4) s)) (s.advance t))

def execTbStep (t : Nat) (c : Cmd) (s : State) : Host.Outcome State Fault Refusal :=
  .next (command 0x0291 true 16 0 c (fun seq => tbStep c.payload seq) (s.advance t))

def execPpsEdge (t : Nat) (err : Int) (s : State) : Host.Outcome State Fault Refusal :=
  .next (whenAwake (ppsEdge err) (s.advance t))

def execTbFreqLock (t : Nat) (s : State) : Host.Outcome State Fault Refusal := .next (whenAwake freqLock (s.advance t))

def execRef10mLoss (t : Nat) (s : State) : Host.Outcome State Fault Refusal := .next (whenAwake tenMhzLoss (s.advance t))

def execPpsLoss (t : Nat) (s : State) : Host.Outcome State Fault Refusal := .next (whenAwake ppsLoss (s.advance t))

def execReferenceReturn (t : Nat) (s : State) : Host.Outcome State Fault Refusal :=
  .next (whenAwake refReturn (s.advance t))

end Sys2Proof.Machine
end

