-- ==== Sys2Proof/Machine/Ring.lean ====
section
/-! DEFINITION. The recorder's ring and its reading: slots, reachable records, and REC_READ, which reads while records are
written (R310, R317, R319). -/
namespace Sys2Proof.Machine

def State.modRec (s : State) (f : Rec → Rec) : State := { s with rcd := f s.rcd }

/-! ### The ring (R310) -/

/-- Slots of the ring. -/
def ringSize : Nat := 262144

/-- Address of the slot of a RECNO. -/
def slotAddr (n : Nat) : Nat := 128 * (n % ringSize)

/-- Distance from one RECNO up to another, modulo 2^32. -/
def recDist (a b : Nat) : Nat := (b + 2 ^ 32 - a) % 2 ^ 32

/-- A record is reachable from OLDEST to NEXT - 1. -/
def reachable (s : State) (n : Nat) : Bool := decide (recDist s.aon.oldest n < recDist s.aon.oldest s.aon.next)

/-- Bytes 48 to 53: REPEAT and LAST_EPOCH, which is 0 when REPEAT is 0. -/
def repeatBytes (rep lastEp : Nat) : List Byte := le 2 rep ++ le 4 (if rep = 0 then 0 else lastEp)

/-- A record as it is read: the open record with its live values (R317). -/
def recordBytes (s : State) (n : Nat) : List Byte :=
  let b := memRead s.rcd.mem (slotAddr n) 128
  match s.rcd.open_ with
  | some o => if o.recno = n then b.take 48 ++ repeatBytes o.rep o.lastEp ++ b.drop 54 else b
  | none => b

/-! ### Reading (R319)

Twenty records are read at the admission and at every boundary after it, which keeps the long-class bound of 8,192 records
(assumption log 63). -/

/-- Records overwritten before they were read are counted and skipped; reading goes on from OLDEST. -/
def skipOverrun (s : State) (j : ReadJob) : ReadJob :=
  if reachable s j.next || j.next == s.aon.next then j
  else { j with next := s.aon.oldest, overrun := j.overrun + (recDist j.next s.aon.next - ringSize) }

/-- Offer up to `n` records to orbit 13; reading stops after COUNT records, or at NEXT. -/
def readSome : Nat → ReadJob → State → ReadJob × State
  | 0, j, s => (j, s)
  | n + 1, j, s =>
    let j := skipOverrun s j
    if j.left = 0 ∨ j.next = s.aon.next then (j, s)
    else
      let r := offer 13 (recordBytes s j.next) s
      readSome n
        { j with
          next := (j.next + 1) % 2 ^ 32
          left := j.left - 1
          first := some (j.first.getD j.next)
          offered := j.offered + 1
          dropped := if r.2 then j.dropped else j.dropped + 1 } r.1

/-- The response of REC_READ. The first RECNO offered is a FREE VALUE where none is (assumption log 44). -/
def finishRead (j : ReadJob) (s : State) : State :=
  let first := j.first.getD (Config.live 0x02A2 s.free).toNat
  complete j.seq .ok 0 (le 4 first ++ le 2 j.offered ++ le 2 j.dropped ++ le 4 j.oldest ++ le 4 s.aon.next ++
    le 4 j.overrun) { s with free := s.free + 1 }

/-- A reading goes on, and ends or is kept. -/
def readChunk (j : ReadJob) (s : State) : State :=
  let r := readSome 20 j s
  if r.1.left = 0 ∨ r.1.next = r.2.aon.next then finishRead r.1 r.2
  else r.2.modRec (fun b => { b with reads := b.reads ++ [r.1] })

/-- The readings under way go on at a boundary. -/
def readMore (s : State) : State :=
  let jobs := s.rcd.reads
  foldOver jobs readChunk (s.modRec (fun r => { r with reads := [] }))

/-- Where REC_READ starts: FIRST, OLDEST where FIRST is older, NEXT where it has not been written. -/
def readStart (s : State) (first : Nat) : Nat :=
  if reachable s first then first
  else if recDist s.aon.next first < 2 ^ 31 then s.aon.next else s.aon.oldest

end Sys2Proof.Machine
end

