-- ==== Sys2Proof/Machine/Epoch.lean ====
section
/-! DEFINITION. Epochs and the clockless fabric (R199 to R211, R375): the boundary, the intake cut, evaluations as
transactions, the late-drop rule, the deadline and the quiet window, track ticks, and the latching of frame, ephemerides
and sets. -/
namespace Sys2Proof.Machine

/-! ### Sections of an epoch -/

/-- A command or a section of an evaluation that is dropped (R208). -/
def lateCmd (n : SecId) (c : SecCmd) (s : State) : State :=
  match c.op with
  | .reset direct =>
    let s := s.modSec n (fun x => { x with authRes := 9 })
    let s := queueSecRec n (secRecord s n (s.sec n).core 2 9 none 0xFFFF 0xFFFF (zeros 16)) s
    completeJob c.job .lateDropped 9 (trig 5 n.val (put 0 4 9 ||| put 4 1 (b2n direct)) s)
  | _ => completeJob c.job .lateDropped 8 (s.modSec n (fun x => { x with statRes := 8 }))

/-- A section's evaluation is dropped: its working copy is discarded and its items stay queued (R208). -/
def dropSec (n : SecId) (s : State) : State :=
  let x := s.sec n
  let s := s.modSec n (fun x => { x with
    eval := .dropped
    priv := none
    late := true
    queue := x.intake ++ x.queue
    intake := []
    intakeCmd := []
    overflow := x.overflow || x.cutOvf
    cutOvf := false })
  let s := { s with epc := { s.epc with cntDrop := satNat 32 (s.epc.cntDrop + 1), dropped := s.epc.dropped + 1 } }
  foldOver x.intakeCmd (lateCmd n) (flagSec n 8 s)

/-- C(s) of R207 in ps at PACE = 1,024, for the rows left of each item left. -/
def workLeft (work : List Nat) : Nat := 24000 * ((sumNat work + 15) / 16) + 62500 * work.length + 26500

/-- The late-drop rule: the work left would end after E + 70.0 us. -/
def tooLate (s : State) (work : Nat) : Bool :=
  decide ((s.epc.start + us 70) * s.epc.pace < (s.now + ns 500) * s.epc.pace + work * 1024)

/-- Place in the serving order of R207. -/
def servePos (s : State) (n : SecId) : Nat :=
  if (s.sec n).dropPrev then n.val else 256 + (n.val + 256 - 32 * (s.epc.seq % 8)) % 256

/-- A section still wants a grant of the fabric: it waits to be served (on a follower, where its adoption can be made), or
it has rows left to search. -/
def waits (s : State) (n : SecId) : Bool :=
  match (s.sec n).eval, (s.sec n).priv with
  | .due, _ => s.zl.role == 2 || (adoptable s n).isSome
  | .served, some p => decide (sumNat p.work ≠ 0)
  | _, _ => false

/-- No section before this one in the serving order still wants a grant. -/
def itsTurn (s : State) (n : SecId) : Bool :=
  (allFin 256).all (fun k => !(decide (servePos s k < servePos s n) && waits s k))

/-- Intake has ended: 2.0 us at PACE = 1,024 (R201, R205). -/
def intakeDone (s : State) : Bool := decide (s.epc.start * s.epc.pace + us 2 * 1024 ≤ s.now * s.epc.pace)

/-- The instant at which work granted now ends at the latest PACE. -/
def workEnd (s : State) (work : Nat) : Nat := s.now + (work * 1024 + s.epc.pace - 1) / s.epc.pace

/-- Ledger engines that no row occupies. -/
def freeEngines (s : State) : Nat := 16 - (s.epc.engines.filter (fun e => decide (s.now < e))).length

/-- Take `k` rows from the items in order; an item whose rows are all taken is no longer left. -/
def takeRows : Nat → List Nat → List Nat
  | _, [] => []
  | k, r :: l => if r ≤ k then takeRows (k - r) l else (r - k) :: l

/-- Serve a section with free engines, one row each: its working copy is kept with the work still left (R207). -/
def serve (n : SecId) (p : Priv) (s : State) : State :=
  let k := min (freeEngines s) (sumNat p.work)
  let e := workEnd s 24000
  let p : Priv := { p with work := takeRows k p.work, until_ := if k = 0 then p.until_ else max p.until_ e }
  let s := s.modSec n (fun x => { x with eval := .served, priv := some p })
  { s with epc := { s.epc with
    engines := s.epc.engines.filter (fun e => decide (s.now < e)) ++ List.replicate k e } }

/-- A grant with the work left before it: the late-drop rule, then the engines. With no engine free and rows left there is
no grant. -/
def grantPriv (n : SecId) (p : Priv) (s : State) : State :=
  if sumNat p.work ≠ 0 ∧ freeEngines s = 0 then s
  else if tooLate s (workLeft p.work) then dropSec n s
  else serve n p s

/-- A follower's section: adoption, mismatch or miss (R243). -/
def serveAdoption (n : SecId) (s : State) : State :=
  match adoptable s n with
  | some e =>
    if e.cfgChk ≠ cfgChk (s.sec n) then missAdoption n (setMismatch n s)
    else grantPriv n (adoptPriv s n e) s
  | none => if s.now < s.epc.start + us 40 then s else missAdoption n s

/-- A grant of the fabric to a section: a working copy is made at the first, and each gives it the engines that are free
(R201, R207; assumption log 76). -/
def grant (n : SecId) (s : State) : State :=
  let x := s.sec n
  if s.epc.quiet || !intakeDone s || !itsTurn s n then s
  else
    match x.eval, x.priv with
    | .due, _ => if s.zl.role ≠ 2 then serveAdoption n s else grantPriv n (evaluate s n) s
    | .served, some p => if sumNat p.work = 0 then s else grantPriv n p s
    | _, _ => s

/-- The commit port accepts a commit: none is under way, and this one begins before E + 70.0 us less its own length
(R207). -/
def portOpen (s : State) : Bool :=
  decide (s.now * s.epc.pace + 26500 * 1024 < (s.epc.start + us 70) * s.epc.pace) &&
    match s.epc.lastCommit with
    | some c => decide (c ≤ s.now)
    | none => true

/-- Finish a command at the commit; a SEC_CFG write that failed its test is counted (R196). -/
def finishCmd (n : SecId) (d : CmdDone) (s : State) : State :=
  let s := match d.wr with
    | some v => hpErr 4 false (0x200000 + n.val * 0x400) v s
    | none => s
  completeJob d.job d.status d.detail s

/-- The commit of a working copy, in one step (R203). -/
def commitPriv (n : SecId) (p : Priv) (s : State) : State :=
  let e := if p.adopted then rxEph s n else none
  let s := s.modSec n (fun x => { x with
    core := { p.core with
      fault := x.core.fault ||| p.core.fault
      ledger := if secMode x.cfg = 0 then [] else p.core.ledger }
    eval := .committed
    priv := none
    late := false
    intake := []
    intakeCmd := []
    queue := if p.core.service then x.queue else []
    overflow := x.overflow && p.core.service
    cutOvf := false
    code := if p.core.service then stateCode p.core.state (s.epc.seq + 1) else 3
    quietEl := if p.enter then 0 else x.quietEl
    statRes := p.statRes.getD x.statRes
    authRes := p.authRes.getD x.authRes })
  let s := { s with
    epc := { s.epc with lastCommit := some (workEnd s 26500) }
    zl := { s.zl with deltas := if p.deltas.isEmpty then s.zl.deltas else s.zl.deltas ++ [(n, p.deltas)] } }
  let s := match e with
    | some e => adoptCommit n e s
    | none => s
  let s := foldOver p.recs (queueSecRec n) s
  let s := foldOver p.trigs (fun t s => trig t.1 t.2.1 t.2.2 s) s
  foldOver p.dones (finishCmd n) s

/-- The result of an evaluation as its commit finds it: one that applies a SEC_SERVICE to a section out of service tests
the bindings again, which a SEC_BIND may have changed since the grant (R186). -/
def atCommit (n : SecId) (p : Priv) (s : State) : Priv :=
  if (s.sec n).core.service || p.adopted then p else evaluate s n

/-- The commit port is granted to a section whose rows are searched: the late-drop rule, then the commit (R203, R207). -/
def commitSec (n : SecId) (s : State) : State :=
  match (s.sec n).eval, (s.sec n).priv with
  | .served, some p =>
    if s.epc.quiet || decide (sumNat p.work ≠ 0) || decide (s.now < p.until_) then s
    else if tooLate s (workLeft []) then dropSec n s
    else if portOpen s then commitPriv n (atCommit n p s) s
    else s
  | _, _ => s

/-! ### The deadline and the quiet window (R201, R207, R210) -/

/-- What the deadline does with a section that has not committed. -/
def deadlineSec (n : SecId) (s : State) : State :=
  match (s.sec n).eval with
  | .due => if s.zl.role = 2 ∨ (adoptable s n).isSome then dropSec n s else missAdoption n s
  | .served => dropSec n s
  | _ => s

/-- END of EPC_LAST in units of 100 ns. -/
def lastEnd (s : State) : Nat :=
  match s.epc.lastCommit with
  | some c => (c - s.epc.start + 99999) / 100000
  | none => 0

/-- SLACK in units of 0.5 us. -/
def slackOf (s : State) : Nat := if s.epc.dropped = 0 then (700 - lastEnd s) / 5 else 0

/-- The EPC_FAULT flags of the epoch, FD_LATE among them. -/
def epochFlags (s : State) (run : Nat) : Word :=
  put 0 1 (b2n (decide (0 < s.epc.dropped))) ||| put 1 1 (b2n (decide (slackOf s < fld s.epc.cfg 0 8))) |||
    put 2 1 (b2n s.epc.paceLow) ||| put 3 1 (b2n (decide (max 1 (fld s.epc.cfg 8 8) ≤ run))) |||
    put 4 1 (b2n s.epc.fdLateEp)

/-- The EPOCH diagnostic record (R277). -/
def epochRecord (flags : Word) (s : State) : State :=
  if bit s.hp.diagCfg 1 && decide (flags ≠ 0) then
    (offer 15 (diagBytes ([0x11, BitVec.ofNat 8 flags.toNat] ++ zeros 6)
      (leWord s.epc.last ++ le 2 s.epc.epochPace ++ [0, 0]) s) s).1
  else s

/-- SURVEY of the fabric subject at a deadline (R315). -/
def surveyEpoch (s : State) : State :=
  if fld s.rcd.cfg 0 2 = 2 && !bit s.rcd.cfg 3 then
    let v := s.rcd.survey
    let b : Fin 16 := Fin.ofNat 16 (min 15 (slackOf s / 9))
    { s with rcd := { s.rcd with survey := { v with
      a := satNat 32 (v.a + s.epc.dropped)
      top := s.dies.toList.foldl (fun m d => max m d.tj) v.top
      bins := tmod v.bins b (fun n => satNat 32 (n + 1)) } } }
  else s

/-- Counters, EPC_LAST and flags of the deadline (R210). -/
def epochReport (s : State) : State :=
  let run := if 0 < s.epc.dropped then s.epc.lateRun + 1 else 0
  let slack := slackOf s
  let flags := epochFlags s run
  let s := surveyEpoch s
  let s := { s with epc := { s.epc with
    last := put 24 8 slack ||| put 14 9 s.epc.dropped ||| put 0 10 (lastEnd s)
    minSlack := min s.epc.minSlack slack
    minAt := if slack < s.epc.minSlack then s.epc.seq % 65536 else s.epc.minAt
    cntLate := if 0 < s.epc.dropped then satNat 32 (s.epc.cntLate + 1) else s.epc.cntLate
    lateRun := run } }
  let s := epochRecord flags (flagEpc (flags &&& 0xF) s)
  { s with epc := { s.epc with paceLow := false, epochPace := 0xFFFF, fdLateEp := false } }

/-- The quiet window opens: waiting records are offered (R201). -/
def openQuiet (s : State) : State :=
  let recs := s.epc.recs
  foldOver recs offerRec { s with epc := { s.epc with quiet := true, recs := [] } }

/-- The section-evaluation deadline. -/
def deadline (s : State) : State := openQuiet (epochReport (foldOver (allFin 256) deadlineSec s))

def evaluationDeadline (s : State) : State :=
  if !s.epc.quiet && decide (s.epc.start + us 70 ≤ s.now) then deadline s else s

/-! ### The boundary (R201, R218, R219, R221, R226, R229, R253, R254) -/

/-- The code of a section in the frame latched at the boundary that starts epoch `seq` with the role in force `role`. -/
def frameCode (s : State) (role : BitVec 2) (seq : Nat) (n : SecId) : BitVec 2 :=
  let x := s.sec n
  if role = 2 ∧ s.zl.role = 2 then (if x.core.service then x.code else 3)
  else if role = 0 then (if x.core.service then 0 else 3)
  else if s.zl.role = 2 then (if x.core.service then 0 else 3)
  else standbyCode s n seq

/-- The header of a frame with LANE 00 (R218). -/
def frameHdr (role : BitVec 2) (seq : Nat) : Word := put 30 2 role.toNat ||| put 24 4 10 ||| put 0 24 seq

/-- The frame latched at a boundary. -/
def buildFrame (s : State) (role : BitVec 2) (seq : Nat) : Frame :=
  let codes := tabulate 256 (fun i => frameCode s role seq (Fin.ofNat 256 i))
  let hdr := frameHdr role seq
  { hdr := hdr, codes := codes, check := crcBits (frameBits hdr codes.toList) }

/-- The supervision of one lane over the ending epoch; the flags it brings (R226). -/
def laneEpoch (s : State) (edges i : Nat) (l : LaneSt) : LaneSt × Word :=
  let ok := if edges = 0 ∧ l.edges = 0 then false else if 0 < edges ∧ 0 < l.edges then true else l.clkOk
  let lost := l.clkOk && !ok
  let miss := s.vsp.frame.isSome && !l.loaded
  ({ l with
     edges := edges
     clkOk := ok
     loaded := false
     missed := if miss then (l.missed + 1) % 256 else l.missed },
   (if lost then bits i 1 else 0) ||| (if 5200 < edges then bits (4 + i) 1 else 0) |||
     (if miss then bits (20 + i) 1 else 0))

/-- Lane supervision, and the frame taken over by the lanes. -/
def vspBoundary (i : BoundaryInput) (f : Frame) (s : State) : State :=
  let a := laneEpoch s i.edgesA 0 s.vsp.a
  let b := laneEpoch s i.edgesB 1 s.vsp.b
  let c := laneEpoch s i.edgesC 2 s.vsp.c
  let s := { s with vsp := { s.vsp with a := a.1, b := b.1, c := c.1, old := s.vsp.frame, frame := some f } }
  flagVsp (a.2 ||| b.2 ||| c.2) s

/-- R134: the trip latch of a section may clear at this boundary. -/
def mayRelease (s : State) (x : Section) : Bool :=
  x.latch && x.eval == .committed && x.core.service && (boundHeads x).all (fun h =>
    trnIdle s h && (usedSlices s h).all (fun y =>
      lineReleased s h y && decide (((s.head h).cmp.slice.get y).releasedAt + holdOf s h ≤ s.now)))

/-- The trip-latch releases of a boundary; ELAPSED counts the epoch (R190). -/
def releaseSec (s : State) (x : Section) : Section :=
  let starts := [s.vsp.a, s.vsp.b, s.vsp.c].filterMap (fun l => l.read.map (·.start))
  let since := starts.foldl min s.now
  let log := x.latchLog.filter (fun c => decide (since ≤ c + 300))
  if mayRelease s x then { x with latch := false, latchLog := s.now :: log, quietEl := satNat 32 (x.quietEl + 1) }
  else { x with latchLog := log, quietEl := satNat 32 (x.quietEl + 1) }

/-- Ephemerides, covers, deltas and ledger snapshots latched for the partner (R195, R239, R240). -/
def latchSet (seq : Nat) (was : BitVec 2) (s : State) : State :=
  let want := match s.zl.partner with
    | some p => ((p.req.filter (fun n => decide (n < 256))).take 2)
    | none => []
  let sends := s.zl.role == 2 || was == 2
  let snap (n : Nat) : Nat × List Byte := (n, ledgerBytes n (s.sec (Fin.ofNat 256 n)).core seq)
  { s with zl := { s.zl with
    eph := tabulate 256 (fun n => ephOf n seq (s.sec (Fin.ofNat 256 n)))
    ephSeq := seq
    setCover := s.zl.cutCover
    cutCover := tabulate 256 (fun h => (s.head (Fin.ofNat 256 h)).trn.lastStamp)
    setDeltas := if sends then s.zl.deltas else []
    deltas := []
    setRole := if sends then 2 else 0
    setGen := s.aon.gen
    lfulls := if sends then want.map snap else []
    sent := false } }

/-- The change of the role in force at a boundary (R234, R253, R254). -/
def changeRole (role was : BitVec 2) (seq : Nat) (s : State) : State :=
  if role = 2 ∧ was ≠ 2 then
    let s := { s with
      aon := { s.aon with gen := s.aon.gen + 1 }
      zl := { s.zl with lastHo := setFld s.zl.lastHo 0 16 seq } }
    flagZl 9 s
  else if role ≠ 2 ∧ was = 2 then foldOver (allFin 256) handDownSec (flagZl 10 s)
  else s

/-- Intake takes an item issued before the cut (R202), a head notice only 2 us after its event (R172). -/
def takesItem (cut : Nat) (i : Item) : Bool :=
  match i.kind with
  | .notice _ => decide (i.at_ + us 2 ≤ cut)
  | _ => decide (i.at_ < cut)

/-- The intake cut of a section: a new epoch opens (R201, R202). -/
def cutSec (s : State) (x : Section) : Section :=
  let cmds := x.cmds.filter (fun c => decide (c.at_ < s.now))
  let service := cmds.any (fun c => match c.op with
    | .service _ => true
    | _ => false)
  let due := s.zl.role != 2 || x.core.service || service
  { x with
    dropPrev := x.eval == .dropped
    eval := if due then .due else .none
    priv := none
    code := if x.core.service then 0 else 3
    intake := if due then x.queue.filter (takesItem s.now) else []
    queue := if due then x.queue.filter (fun i => !takesItem s.now i) else x.queue
    intakeCmd := if due then cmds else []
    cmds := if due then x.cmds.filter (fun c => !decide (c.at_ < s.now)) else x.cmds
    overflow := x.overflow && !due
    cutOvf := x.overflow && due
    cutFit := allFit s x
    cutQuiet := x.quietEl
    cutWaits := x.queue.any (fun i => !takesItem s.now i && decide (i.at_ < s.now)) }

/-- The snapshots that wait are written from the state latched at the boundary (R201). -/
def writeSnaps (s : State) : State :=
  let snaps := s.epc.snaps
  foldOver snaps takeSnap { s with epc := { s.epc with snaps := [] } }

/-- TRIM runs towards 0 outside LISTEN, at most 1 Hz per second: 6 units of 2^-16 Hz an epoch (R250). -/
def trimDecay (n : Nat) (x : XsSlice) : XsSlice :=
  if x.reg = .listen ∨ x.trim = 0 then x
  else XsSlice.anchor n { x with trim := if 0 ≤ x.trim then max 0 (x.trim - 6) else min 0 (x.trim + 6) }

def decayTrims (s : State) : State :=
  { s with heads := tabulate 256 (fun i =>
      let x := s.head (Fin.ofNat 256 i)
      { x with xs := { x.xs with slice := x.xs.slice.both (trimDecay (xclkTicks s)) } }) }

/-- Leakage of a head as averaged in this epoch (R53). -/
def leakUpdate (l : LeakSample) (s : State) : State :=
  if headUp s l.head then
    let was := decide (leakWarnOf (s.head l.head).fe.bias ≤ (s.head l.head).fe.leak)
    leakEval l.head was (s.modFe l.head (fun b => { b with leak := satNat 12 l.leak }))
  else s

/-- The storm guard's window starts at each epoch whose number is a multiple of 10 (R296). -/
def stormWindow (seq : Nat) (s : State) : State :=
  if seq % 10 = 0 then { s with irq := { s.irq with commits := [] } } else s

/-- The link's count of epochs without a STATUS, and the set to come (R236, R243, R247). -/
def linkBoundary (seq : Nat) (s : State) : State :=
  { s with zl := { s.zl with
    statusMiss := s.zl.statusMiss + 1
    rx := none
    kept := s.zl.kept.filter (fun k => decide (seq ≤ k.epoch + 16)) } }

/-- The first boundary after reset starts the epoch whose number start-up found (R200); each later one increments it. -/
def nextSeq (s : State) : Nat := if s.phase = .starting then s.epc.seq else s.epc.seq + 1

/-- The output stages drive every head in RUN (R255). -/
def drivesAll (s : State) : Bool :=
  drives s && (allFin 256).all (fun h => !inRun s h || (usedSlices s h).all (stageOn s h))

/-- Whether the drive interval goes on is seen at each boundary, with ZL_HOLD_IN and the stages that a fault keeps enabled
(R231, R255, R257), and the power state of the PCI Express link (R298; assumption log 78). -/
def senseStages (i : BoundaryInput) (s : State) : State :=
  let s := { s with hp := { s.hp with linkPm := i.linkPm }, zl := { s.zl with holdIn := i.holdIn, stuck := i.stuck } }
  { s with zl := { s.zl with driveFrom := if drivesAll s then some (s.zl.driveFrom.getD s.now) else none } }

/-- The epoch boundary. -/
def boundary (i : BoundaryInput) (s : State) : State :=
  let s := endReads s
  let seq := nextSeq s
  let role := s.zl.roleIn
  let was := s.zl.role
  let frame := buildFrame s role seq
  let ready := if was ≠ 2 ∧ readyEpoch s = true then s.zl.readyRun + 1 else 0
  let s := { s with
    sections := tabulate 256 (fun n => releaseSec s (s.sec (Fin.ofNat 256 n)))
    phase := .running
    zl := { s.zl with role := role, readyRun := ready }
    epc := { s.epc with seq := seq, start := s.now, tick := 0, dropped := 0, lastCommit := none, quiet := false, engines := [] }
    aon := { s.aon with floor := if seq % 65536 = 0 then some seq else s.aon.floor } }
  let s := vspBoundary i frame (tbBoundary seq (stormWindow seq s))
  let s := latchSet seq was (changeRole role was seq (writeSnaps s))
  let s := if role = 2 ∧ was ≠ 2 then foldOver (allFin 256) (takeOverSec seq) s else s
  let s := linkBoundary seq { s with sections := tabulate 256 (fun n => cutSec s (s.sec (Fin.ofNat 256 n))) }
  let s := foldOver i.listens listenEpoch (foldOver i.leaks leakUpdate (decayTrims s))
  readMore (senseStages i (foldOver i.dies dieReport (foldOver i.drives driveEpoch s)))

/-- The boundary comes 100.000 us after the last one, or later where the device aligns its grid (R199, R241). A deadline
that has not been handled is handled first. -/
def epochBoundary (i : BoundaryInput) (s : State) : State :=
  if s.phase = .starting then boundary i s
  else if s.epc.start + us 100 ≤ s.now then boundary i (if s.epc.quiet then s else deadline s)
  else s

/-! ### Track ticks (R87, R205) -/

/-- SURVEY of the core-die PACE (R315). -/
def surveyPace (p : Nat) (s : State) : State :=
  if fld s.rcd.cfg 0 2 = 2 && !bit s.rcd.cfg 3 then
    let v := s.rcd.survey
    { s with rcd := { s.rcd with survey := { v with lo := min v.lo p, hi := max v.hi p } } }
  else s

/-- The pace monitors at a tick. -/
def paceSample (i : TickInput) (s : State) : State :=
  let p := satNat 16 i.pace
  let e := s.epc
  surveyPace p { s with epc := { e with
    pace := p
    paceMin := min e.paceMin p
    epochPace := min e.epochPace p
    paceLow := e.paceLow || decide (p < 1024)
    fdPace := i.fdPace.foldl (fun v d => tset v d.1 (satNat 16 d.2)) e.fdPace } }

/-- A track tick: pace, settle counters, samples and their cross-checks. Samples that come later than 4.0 us after the tick
have missed their limit (R206). -/
def trackTick (i : TickInput) (s : State) : State :=
  let tm := tickAt s s.epc.tick
  if 10 ≤ s.epc.tick ∨ s.now < tm then s
  else
    let s := paceSample i { s with epc := { s.epc with tick := s.epc.tick + 1, tickAt := tm + 1 } }
    let s := { s with heads := tabulate 256 (fun h => countTick s tm (Fin.ofNat 256 h)) }
    foldOver (if s.now ≤ tm + us 4 then i.samples else []) (fun a s => plausTick tm a.head a.sys (takeSample tm a s)) s

/-! ### Registers (R211) -/

/-- A write to EPC_CTRL. -/
def epcCtrl (v : Word) (s : State) : State :=
  if bit v 0 then { s with epc := { s.epc with minSlack := 0x8C, minAt := 0, paceMin := 0xFFFF } } else s

/-- What a read of EPC_SEQ_LO captures. -/
def readSeq (s : State) : State :=
  { s with epc := { s.epc with seqHi := s.epc.seq / 2 ^ 32 % 65536 } }

/-! ### Meanings -/

def execEpochBoundary (t : Nat) (i : BoundaryInput) (s : State) : Host.Outcome State Fault Refusal :=
  .next (whenAwake (epochBoundary i) (s.advance t))

def execSectionGrant (t : Nat) (n : SecId) (s : State) : Host.Outcome State Fault Refusal :=
  .next (whenRunning (grant n) (s.advance t))

def execSectionCommit (t : Nat) (n : SecId) (s : State) : Host.Outcome State Fault Refusal :=
  .next (whenRunning (commitSec n) (s.advance t))

def execEvaluationDeadline (t : Nat) (s : State) : Host.Outcome State Fault Refusal :=
  .next (whenRunning evaluationDeadline (s.advance t))

def execTrackTick (t : Nat) (i : TickInput) (s : State) : Host.Outcome State Fault Refusal :=
  .next (whenRunning (trackTick i) (s.advance t))

/-- EPC_CTRL_CLR: a write with fewer than four byte enables changes nothing and is counted (R4). -/
def execEpcCtrlClr (t : Nat) (v : Word) (be : BitVec 4) (s : State) : Host.Outcome State Fault Refusal :=
  .next (whenHost (fun s => if allEnables be then epcCtrl v s else hpErr 1 false 0x4702C v s) (s.advance t))

end Sys2Proof.Machine
end

