-- ==== Sys2Proof/Machine/Link.lean ====
section
/-! DEFINITION. The coding of the Zoaro link (R235, R237): striping of messages over four lanes, 64b/66b blocks, the lane
marker and the scrambler, and what a receiver does to undo them. Between commands the lanes send idle blocks and markers,
which no command of the block shows (assumption log 77). -/
namespace Sys2Proof.Machine

/-- The bits of a byte, least significant first, as a lane sends them. -/
def charBits (b : Byte) : List Bool := (List.range 8).map (fun i => b.getLsbD i)

/-- The byte of eight bits, least significant first. -/
def bitsByte (l : List Bool) : Byte := BitVec.ofNat 8 (l.foldr (fun b n => b2n b + 2 * n) 0)

/-- A list cut into pieces of `n`; `fuel` bounds their number. -/
def pieces {α : Type} (n : Nat) : Nat → List α → List (List α)
  | 0, _ => []
  | fuel + 1, l => if l.isEmpty then [] else l.take n :: pieces n fuel (l.drop n)

/-- The words of a message that a lane carries: word w goes to lane w mod 4. -/
def laneWords (lane : Nat) (msg : List Byte) : List (List Byte) :=
  ((pieces 8 msg.length msg).zipIdx.filter (fun p => p.2 % 4 == lane)).map (·.1)

/-- The words of the four lanes, put together again. -/
def gatherWords : Nat → List (List Byte) → List (List Byte) → List (List Byte) → List (List Byte) → List Byte
  | 0, _, _, _, _ => []
  | fuel + 1, a, b, c, d =>
    match a, b, c, d with
    | w0 :: a, w1 :: b, w2 :: c, w3 :: d => w0 ++ w1 ++ w2 ++ w3 ++ gatherWords fuel a b c d
    | _, _, _, _ => []

/-- A block before scrambling: the two bits of its sync header, and 64 payload bits (IEEE 802.3 Clause 49). -/
structure Block where
  control : Bool
  payload : List Bool
deriving DecidableEq, Repr

/-- A data block of eight bytes. -/
def dataBlock (w : List Byte) : Block := { control := false, payload := w.flatMap charBits }

/-- The bytes of a data block. -/
def Block.bytes (b : Block) : List Byte := (pieces 8 8 b.payload).map bitsByte

/-- The idle control block: type 0x1E and eight idle characters. -/
def idleBlock : Block := { control := true, payload := charBits 0x1E ++ List.replicate 56 false }

/-- The marker of a lane: type 0x4B, the characters 0x5A, 0xC3 and the lane number, the O code and the rest zero. -/
def markerBlock (lane : Nat) : Block :=
  { control := true
    payload := charBits 0x4B ++ charBits 0x5A ++ charBits 0xC3 ++ charBits (BitVec.ofNat 8 lane) ++ List.replicate 32 false }

/-- The block slots that carry the markers: one in 16,384 on every lane. -/
def markerSlot (slot : Nat) : Bool := slot % 16384 == 0

/-- One bit through the scrambler x^58 + x^39 + 1: the bit sent, and the next state. -/
def scrambleBit (st : BitVec 58) (b : Bool) : Bool × BitVec 58 :=
  let o := b ^^ st.getLsbD 38 ^^ st.getLsbD 57
  (o, (st <<< 1) ||| BitVec.ofNat 58 (b2n o))

/-- One bit back through the self-synchronising descrambler. -/
def descrambleBit (st : BitVec 58) (b : Bool) : Bool × BitVec 58 :=
  (b ^^ st.getLsbD 38 ^^ st.getLsbD 57, (st <<< 1) ||| BitVec.ofNat 58 (b2n b))

def scramble : BitVec 58 → List Bool → List Bool
  | _, [] => []
  | st, b :: l => (scrambleBit st b).1 :: scramble (scrambleBit st b).2 l

def descramble : BitVec 58 → List Bool → List Bool
  | _, [] => []
  | st, b :: l => (descrambleBit st b).1 :: descramble (descrambleBit st b).2 l

/-- The data blocks of a message on a lane. -/
def laneBlocks (lane : Nat) (msg : List Byte) : List Block := (laneWords lane msg).map dataBlock

end Sys2Proof.Machine
end

