-- ==== Sys2Proof/Machine/Duplex.lean ====
section
/-! DEFINITION. Duplex operation (R228 to R257): the role input and DEPOSE_N, hand-over marks, the excitation interlock and
the pick-up, the link and its messages, alignment, the drive age, and the ZL_ registers. -/
namespace Sys2Proof.Machine

/-! ### Hand-over marks (R249, R138) -/

/-- The link can bridge a hand-over: PAIRED and link UP. -/
def handOverReady (s : State) : Bool := bit s.zl.cfg 0 && s.zl.link == .up

/-- A hand-over mark on a slice in RUN: a gap from 1.0 us before it, and an envelope hold of at most 8.0 us. -/
def raiseMark (h : HeadId) (x : Sys) (s : State) : State :=
  if inRun s h && inUse s h x && ((s.head h).flt.slice.get x).mark.isNone then
    let s := beginGap h x (s.now - us 1) s
    let s := s.modFltSlice h x (fun f => { f with mark := some s.now })
    s.modCmpSlice h x (fun c => { c with envHold := some (s.now + us 8) })
  else s

/-- Marks on every slice in RUN. -/
def raiseMarks (s : State) : State := foldOver (allFin 256) (fun h => onBoth (raiseMark h)) s

/-- The raise of R249: at a change of the role input to or from 10, or at a fall of the sense amplitude in LISTEN or within
20.0 us of a won claim. -/
def markRaise (h : HeadId) (x : Sys) (senseFall : Bool) (s : State) : State :=
  let listens := ((s.head h).xs.slice.get x).reg == .listen
  let won := match s.zl.wonAt with
    | some t => decide (s.now ≤ t + us 20)
    | none => false
  let cause := if senseFall then listens || won else decide (s.zl.roleAt = s.now)
  if handOverReady s && cause then raiseMark h x s else s

/-- Length of the slice's gap so far in 100 ns, in 8 bits. -/
def gapLen (s : State) (h : HeadId) (x : Sys) : Nat :=
  match ((s.head h).flt.slice.get x).gap with
  | some g => satNat 8 ((s.now - g.start) / 100000)
  | none => 0

/-- A mark ends; the gap ends with it unless an invalid run goes on. GAP_MAX takes the largest G. -/
def markEnd (h : HeadId) (x : Sys) (s : State) : State :=
  let f := (s.head h).flt.slice.get x
  if f.mark.isSome then
    let g := max (fld s.zl.lastHo 24 8) (gapLen s h x)
    let s := { s with zl := { s.zl with lastHo := setFld s.zl.lastHo 24 8 g } }
    let s := s.modFltSlice h x (fun f => { f with mark := none })
    let s := s.modCmpSlice h x (fun c => { c with envHold := none })
    if f.inv.isSome then s else endGap h x s
  else s

/-! ### Role input and DEPOSE_N (R229, R230) -/

/-- The role input that pins and DEPOSE_N give: 11 is taken as 00. -/
def roleOf (pins : BitVec 2) (deposed : Bool) : BitVec 2 := if deposed || pins == 3 then 0 else pins

/-- Withdraw the drivers of a head (R72, R230). -/
def withdrawHead (h : HeadId) (s : State) : State := withLines h (onBoth (withdrawSlice h)) s

/-- A head in RUN loses its drive without a hand-over: R158 with reason DRIVE. -/
def abortDrive (h : HeadId) (s : State) : State := if inRun s h then abortHead h 15 s else s

/-- What leaving role input 10 does to the heads. -/
def withdrawAll (won : Bool) (s : State) : State :=
  let s := if handOverReady s then raiseMarks s
           else if won then foldOver (allFin 256) abortDrive s else s
  foldOver (allFin 256) withdrawHead s

/-- ZL_LAST_HO as a hand-over begins: GAP_MAX counts anew. The register is a CORE cell, so the role pins reach it only while
the core die is awake (R346). -/
def newGapMax (s : State) : Word := if awake s then setFld s.zl.lastHo 24 8 0 else s.zl.lastHo

/-- The role input takes a value: becoming 10 starts a claim, but not in eclipse (R345); leaving it withdraws the claim and
the drivers. -/
def setRoleIn (r : BitVec 2) (s : State) : State :=
  let was := s.zl.roleIn
  let won := s.zl.claim == .won
  let s := { s with zl := { s.zl with roleIn := r } }
  if r = 2 ∧ was ≠ 2 then
    let s := { s with zl := { s.zl with roleAt := s.now, wonAt := none, lastHo := newGapMax s } }
    let s := if s.phase = .eclipse then s
             else { s with zl := { s.zl with wantSince := some s.now, claim := .waiting } }
    whenAwake (fun s => if handOverReady s then raiseMarks s else s) s
  else if r ≠ 2 ∧ was = 2 then
    let s := { s with zl := { s.zl with
      roleAt := s.now, wantSince := none, claim := .none, holdOut := false, wonAt := none, driveFrom := none,
      lastHo := newGapMax s } }
    whenAwake (withdrawAll won) s
  else s

def roleInputChange (pins : BitVec 2) (s : State) : State :=
  setRoleIn (roleOf pins s.zl.deposed) { s with zl := { s.zl with pins := pins } }

/-- DEPOSE_N low for 200 ns. -/
def depose (s : State) : State :=
  if s.zl.deposed then s
  else setRoleIn 0 (whenAwake (flagZl 12) { s with zl := { s.zl with deposed := true } })

def deposeRelease (s : State) : State :=
  setRoleIn (roleOf s.zl.pins false) { s with zl := { s.zl with deposed := false } }

/-! ### The excitation interlock (R231, R232, R250) -/

/-- The wait after a claim that was not won. -/
def backoffOf (s : State) : Nat := if bit s.zl.cfg 8 then ns 300 else ns 100

/-- ZL_HOLD_IN reads released, and the device claims, where the AON domain is out of reset. -/
def claimTry (s : State) : State :=
  if s.pwr.aonHeld = false ∧
      (s.zl.claim = .waiting ∨ (s.zl.claim = .backoff ∧ s.zl.claimAt + backoffOf s ≤ s.now)) then
    { s with zl := { s.zl with claim := .trying, holdIn := false, holdOut := true, claimAt := s.now } }
  else s

/-- A listening slice starts driving at its synthesiser's present phase, TRIM included, and at its preset (R250, R72). Its
LOCKED, MISMATCH and PHERR keep their last values, and THERM_OFF on its die does not keep it from driving (assumption
log 66, DESIGN CHOICE). -/
def pickUpSlice (h : HeadId) (x : Sys) (s : State) : State :=
  if ((s.head h).xs.slice.get x).reg == .listen then
    s.modXsSlice h x (fun b => XsSlice.pickUpPhase (xclkTicks s)
      { b with reg := slowLoop s h, since := s.now, drive := b.preset, driveLog := [(s.now, b.preset)], heard := [] })
  else s

/-- A slice in RUN that is not locked at a won claim. -/
def unlockedSlices (s : State) : List (HeadId × Sys) :=
  (runSlices s).filter (fun p =>
    let v := (s.head p.1).xs.slice.get p.2
    !v.locked || v.mismatch)

/-- The drive is picked up. -/
def pickUp (s : State) : State :=
  let bad := unlockedSlices s
  let s := { s with zl := { s.zl with lastHo := setFld s.zl.lastHo 16 8 (satNat 8 bad.length) } }
  let s := foldOver (allFin 256) (fun h => onBoth (pickUpSlice h)) s
  let s := { s with zl := { s.zl with driveFrom := if drivesAll s then some s.now else none } }
  let s := if bad.isEmpty then s else flagZl 11 s
  foldOver ((allFin 256).filter (fun h => bad.any (fun p => p.1 == h))) faultNotice s

/-- The claim wait of 100 ns ends. With the claim won the output stages hold ZL_HOLD_OUT, no longer the claim (R231). -/
def claimEnd (released : Bool) (s : State) : State :=
  if s.zl.claim = .trying ∧ s.zl.claimAt + ns 100 ≤ s.now then
    let s := { s with zl := { s.zl with holdIn := !released, claimAt := s.now } }
    if released then
      whenAwake pickUp { s with zl := { s.zl with claim := .won, holdOut := false, wonAt := some s.now, wantSince := none } }
    else { s with zl := { s.zl with claim := .backoff, holdOut := false } }
  else s

/-- No claim won within 4.0 us (R232). -/
def holdTimeout (s : State) : State :=
  match s.zl.wantSince with
  | some t =>
    if s.zl.claim != .won && decide (t + us 4 ≤ s.now) then
      let s := flagZl 3 { s with zl := { s.zl with wantSince := none } }
      foldOver ((allFin 256).filter (inRun s)) faultNotice s
    else s
  | none => s

/-! ### The link (R235, R236) -/

/-- The link leaves UP for TRAIN, or falls back to TRAIN before it is up. -/
def linkToTrain (s : State) : State :=
  match s.zl.link with
  | .up =>
    let s := { s with zl := { s.zl with
      link := .train, upCount := 0, alignRun := 0, downCnt := (s.zl.downCnt + 1) % 65536 } }
    unsyncAll (flagZl 0 s)
  | .wait => { s with zl := { s.zl with link := .train, upCount := 0 } }
  | _ => s

/-- PAIRED = 0, or the LINK domain powered down. -/
def linkToDown (s : State) : State :=
  let was := s.zl.link
  let s := { s with zl := { s.zl with link := .down, upCount := 0, laneLock := 0, alignRun := 0 } }
  if was = .up then flagZl 0 s else s

/-- The link starts where PAIRED = 1 and the LINK domain is powered. -/
def linkStart (s : State) : State :=
  if s.zl.link = .down ∧ bit s.zl.cfg 0 = true ∧ s.pwr.linkUp = true then
    { s with zl := { s.zl with link := .train, upCount := 0 } }
  else s

def linkTrained (s : State) : State :=
  if s.zl.link = .train then { s with zl := { s.zl with link := .wait, laneLock := 0xF, upCount := 0 } } else s

/-- `lanes` are still block-locked. The table of states lists this event for UP alone (R12). -/
def linkLoss (lanes : BitVec 4) (s : State) : State :=
  if s.zl.link = .down then s
  else
    let s := { s with zl := { s.zl with laneLock := lanes } }
    if s.zl.link = .up then linkToTrain s else s

/-- No valid STATUS in three consecutive epochs: the fourth boundary since the last one has passed. -/
def statusTimeout (s : State) : State :=
  if s.zl.link = .up ∧ 4 ≤ s.zl.statusMiss then linkToTrain s else s

/-! ### What the device sends (R237 to R240) -/

/-- Slices in LISTEN that are locked. -/
def lockedCount (s : State) : Nat :=
  ((allFin 256).map (fun h =>
    let one (x : Sys) : Nat :=
      let v := (s.head h).xs.slice.get x
      b2n (v.reg == .listen && v.locked)
    one .sys1 + one .sys2)).foldl (· + ·) 0

/-- An output stage is enabled (R230, R231). -/
def driving (s : State) : Bool := (allFin 256).any (fun h => stageOn s h .sys1 || stageOn s h .sys2)

/-- ZL_HOLD_OUT reads held: the device claims, or one of its output stages is enabled (R231). -/
def holdLine (s : State) : Bool := s.zl.holdOut || driving s

/-- The state of ZL_HOLD_OUT: high-impedance while the AON domain has no supply (R233, R362). -/
inductive HoldPad | highZ | held | released
deriving DecidableEq, Repr

def holdPad (s : State) : HoldPad := if s.pwr.aonHeld then .highZ else if holdLine s then .held else .released

/-- The partner reads the line held: its pull-up makes a line that nobody drives read held. -/
def HoldPad.readsHeld (p : HoldPad) : Bool := p != .released

/-- Sections whose full ledger is requested: the lowest four unsynchronised (R243). -/
def requests (s : State) : List Nat := (((allFin 256).filter (unsynced s)).map (·.val)).take 4

/-- The STATUS payload. -/
def statusPayload (s : State) : List Byte :=
  let req := requests s
  le 1 (s.zl.role.toNat + 4 * s.zl.roleIn.toNat) ++
    le 1 (b2n (bit s.zl.cfg 0) + 2 * b2n (s.zl.link == .up) + 4 * b2n s.zl.aligned + 8 * b2n (zlReady s) +
      16 * b2n (driving s)) ++
    le 4 (match s.zl.meas with
      | some a => twos 32 a
      | none => 0x7FFFFFFF) ++
    le 2 s.aon.driveAge ++ le 2 (unsyncCount s) ++ le 2 (lockedCount s) ++ le 2 (runSlices s).length ++ [0, 0] ++
    (List.range 4).flatMap (fun i => le 2 (req.getD i 0xFFFF)) ++ zeros 8

/-- Send several messages of one type, with PART numbers and LAST on the final one. -/
def sendParts (type : Nat) (parts : List (List Byte)) (s : State) : State :=
  foldOver parts.zipIdx (fun p s =>
    sendLink (linkBytes type p.2 (p.2 + 1 == parts.length) s.zl.setGen s.epc.seq p.1) s) s

/-- The EPH parts of the set latched at the boundary. -/
def ephParts (s : State) : List (List Byte) :=
  (List.range 16).map (fun k => (List.range 16).flatMap (fun i => (tget s.zl.eph (Fin.ofNat 256 (16 * k + i))).bytes))

/-- The COVER payload. -/
def coverBytes (s : State) : List Byte := (allFin 256).flatMap (fun h => coverEntry s (tget s.zl.setCover h))

/-- The STATUS of this epoch, and the set with it (R240). A set latched as the role left 10 keeps its generation (R254). -/
def statusSend (s : State) : State :=
  if linkReceives s && !s.zl.sent && decide (s.epc.start + us 1 ≤ s.now) then
    let gen := if s.zl.setRole = 2 then s.zl.setGen else s.aon.gen
    let s := { s with zl := { s.zl with sent := true } }
    let s := sendLink (linkBytes 1 0 true gen s.epc.seq (statusPayload s)) s
    if s.zl.setRole = 2 then
      let s := sendParts 3 [coverBytes s] (sendParts 2 (ephParts s) s)
      sendParts 5 (s.zl.lfulls.map (·.2)) (sendParts 4 (deltaParts s.zl.setDeltas) s)
    else s
  else s

/-- The oldest waiting DOORBELL goes out. -/
def doorbellSend (s : State) : State :=
  match s.zl.doorbells with
  | [] => s
  | n :: rest =>
    if linkReceives s then
      sendLink (linkBytes 6 0 true s.aon.gen s.epc.seq (le 2 n)) { s with zl := { s.zl with doorbells := rest } }
    else s

/-- ZL_PDB: a software source's DOORBELL, or a counted event (R257, cause 7). -/
def pdbWrite (v : Word) (s : State) : State :=
  let n := fld v 0 9
  if 288 ≤ n ∧ n ≤ 511 then { s with zl := { s.zl with doorbells := s.zl.doorbells ++ [n] } }
  else hpErr 7 false 0x49030 v s

/-! ### What the device receives (R234, R238 to R243) -/

/-- The set being received, begun where none is. -/
def rxSet (s : State) : RxSet :=
  s.zl.rx.getD { epoch := setEpoch s, status := false, cover := none, ldelta := [], ldLast := none, eph := [] }

/-- A message belongs to the set to be adopted, and came in time. -/
def inSet (m : LinkMsg) (s : State) : Bool :=
  s.zl.role != 2 && m.epoch == setEpoch s && (rxSet s).epoch == setEpoch s && decide (s.now ≤ s.epc.start + us 40)

def putRx (f : RxSet → RxSet) (s : State) : State := { s with zl := { s.zl with rx := some (f (rxSet s)) } }

/-- A message that fails the checks of R237. -/
def messageDiscarded (s : State) : State :=
  if linkReceives s then { s with zl := { s.zl with crcErr := (s.zl.crcErr + 1) % 65536 } } else s

/-- Receive a message: one whose LEN is outside `lo` to `hi` is discarded and counted (R237, R238); otherwise judge its
generation, and use it. -/
def receive (lo hi : Nat) (m : LinkMsg) (status : Bool) (f : State → State) (s : State) : State :=
  if m.payload.length < lo ∨ hi < m.payload.length then messageDiscarded s
  else if linkReceives s then
    let j := judge m status s
    if j.1 then f j.2 else j.2
  else s

/-- The fields of a STATUS that the device keeps. -/
def statusOf (m : LinkMsg) (s : State) : PartnerStatus :=
  { role := BitVec.ofNat 2 (field m.payload 0 1), ready := (field m.payload 1 1).testBit 3,
    meas := sext 32 (field m.payload 2 4),
    req := ((List.range 4).map (fun i => field m.payload (16 + 2 * i) 2)).filter (fun n => decide (n < 256)),
    ahead := (s.epc.seq : Int) - m.epoch }

/-- Skew and its consequences, from MEAS of both devices (R241). `consecutive` says that the epoch before had one too. -/
def measureSkew (p : PartnerStatus) (consecutive : Bool) (s : State) : State :=
  match s.zl.meas with
  | none => s
  | some a =>
    if s.zl.role ≠ 2 ∧ s.zl.link = .up ∧ p.role = 2 ∧ p.meas ≠ 0x7FFFFFFF then
      let k := tdiv (p.meas - a) 2
      let run := if 20 < k.natAbs then 0 else if consecutive then s.zl.alignRun + 1 else 1
      let s := { s with zl := { s.zl with skew := k, alignRun := run } }
      if s.zl.aligned && decide (50 < k.natAbs) then flagZl 4 { s with zl := { s.zl with aligned := false } } else s
    else s

/-- A valid STATUS brings the link up at the second one. -/
def countStatus (s : State) : State :=
  if s.zl.link = .wait then
    let n := s.zl.upCount + 1
    { s with zl := { s.zl with upCount := n, link := if 2 ≤ n then .up else .wait } }
  else s

/-- A STATUS that is used. -/
def useStatus (m : LinkMsg) (first consecutive : Bool) (s : State) : State :=
  let p := statusOf m s
  let s := { s with zl := { s.zl with partner := some p, meas := some (((s.now - s.epc.start) / 1000 : Nat) : Int) } }
  let s := if first then measureSkew p consecutive s else s
  if inSet m s then putRx (fun r => { r with status := true }) s else s

/-- STATUS_MESSAGE: current or newer generation counts towards UP, and as this epoch's STATUS. -/
def statusMessage (m : LinkMsg) (s : State) : State :=
  if !linkReceives s then s
  else if m.payload.length ≠ 32 then messageDiscarded s
  else
    let miss := s.zl.statusMiss
    let s := if genDiff s m.gen ≤ 32767 then countStatus { s with zl := { s.zl with statusMiss := 0 } } else s
    receive 32 32 m true (useStatus m (1 ≤ miss) (miss ≤ 1)) s

/-- The skew has stayed within 20 ns for 16 epochs. -/
def alignedNow (s : State) : State :=
  match s.zl.partner with
  | some p =>
    if !s.zl.aligned && s.zl.role != 2 && s.zl.link == .up && decide (16 ≤ s.zl.alignRun) then
      { s with zl := { s.zl with aligned := true, offset := p.ahead } }
    else s
  | none => s

/-- Replace or add a part. -/
def putPart (l : List (Nat × List Byte)) (k : Nat) (b : List Byte) : List (Nat × List Byte) :=
  (k, b) :: l.filter (fun p => p.1 != k)

def ephMessage (m : LinkMsg) (s : State) : State :=
  receive 1024 1024 m false (fun s => if inSet m s then putRx (fun r => { r with eph := putPart r.eph m.part m.payload }) s else s) s

def coverMessage (m : LinkMsg) (s : State) : State :=
  receive 2048 2048 m false (fun s => if inSet m s then putRx (fun r => { r with cover := some m.payload }) s else s) s

def ldeltaMessage (m : LinkMsg) (s : State) : State :=
  receive 0 1024 m false (fun s =>
    if inSet m s then
      putRx (fun r => { r with
        ldelta := putPart r.ldelta m.part m.payload
        ldLast := if m.last then some m.part else r.ldLast }) s
    else s) s

/-- A ledger entry of the SEC_LEDGER_READ buffer (R196). -/
def entryAt (b : List Byte) (i : Nat) : Entry :=
  let o := 16 + 20 * i
  { sig := slice b o 16, head := Fin.ofNat 256 (field b (o + 16) 1), wildcard := (field b (o + 17) 1).testBit 0,
    brake := (field b (o + 17) 1).testBit 1, epoch := BitVec.ofNat 16 (field b (o + 18) 2) }

/-- An LFULL replaces the ledger copy, in a working copy too (R243). -/
def applyFull (m : LinkMsg) (n : SecId) (s : State) : State :=
  let ledger := (List.range (field m.payload 4 2)).map (entryAt m.payload)
  let gen := field m.payload 8 4
  let put (c : SecCore) : SecCore := { c with ledger := ledger, gen := gen }
  let e := rxEph s n
  let s := s.modSec n (fun x =>
    let c := put x.core
    { x with
      core := c
      priv := x.priv.map (fun p => { p with core := put p.core })
      ledgerSnap := some m.epoch
      synced := match e with
        | some e => if x.adopted = some s.epc.seq then inSync c e else x.synced
        | none => x.synced })
  { s with zl := { s.zl with lfull := (s.zl.lfull + 1) % 65536 } }

def lfullMessage (m : LinkMsg) (s : State) : State :=
  receive 16 20496 m false (fun s =>
    if h : field m.payload 0 2 < 256 then
      if s.zl.role ≠ 2 then applyFull m ⟨field m.payload 0 2, h⟩ s else s
    else s) s

def doorbellMessage (m : LinkMsg) (s : State) : State :=
  receive 2 2 m false (fun s =>
    let n := field m.payload 0 2
    if 288 ≤ n ∧ n ≤ 511 then raise n s else s) s

/-! ### Drive age (R255) -/

/-- AGE_WARN, 0 treated as 1. -/
def ageWarn (s : State) : Nat := max 1 (fld s.zl.cfg 16 8)

/-- 10 s have passed in which the stages drove every head in RUN and none of these heads raised REG_FAULT, ILIM or
HEALTH. -/
def driveIntervalDone (s : State) : Bool :=
  drivesAll s &&
    (match s.zl.driveFrom with
     | some t => decide (t + ms 10000 ≤ s.now)
     | none => false) &&
    (allFin 256).all (fun h => !inRun s h || decide ((s.head h).xs.spoilAt + ms 10000 ≤ s.now))

/-- A drive interval is complete: HOURS restarts, and the next interval begins. -/
def driveComplete (s : State) : State :=
  if driveIntervalDone s then
    { s with aon := { s.aon with driveAge := 0, hourAt := s.now }, zl := { s.zl with driveFrom := some s.now } }
  else s

/-- An hour in ps. -/
def hour : Nat := ms 3600000

/-- A whole hour without a drive interval; AGE is set as the count reaches AGE_WARN. -/
def driveHour (s : State) : State :=
  if s.now < s.aon.hourAt + hour then s
  else
    let old := s.aon.driveAge
    let s := { s with aon := { s.aon with driveAge := satNat 16 (old + 1), hourAt := s.aon.hourAt + hour } }
    if old < ageWarn s ∧ ageWarn s ≤ s.aon.driveAge then whenAwake (flagZl 8) s else s

/-! ### Link commands and registers (R256, R257) -/

/-- A change of PAIRED or UNIT is refused while the device is active or drives. -/
def zlSetRefused (paired unit : Bool) (s : State) : Bool :=
  (paired != bit s.zl.cfg 0 || unit != bit s.zl.cfg 8) && (s.zl.role == 2 || driving s)

/-- Set PAIRED, UNIT and AGE_WARN; the link starts or stops. -/
def zlStore (paired unit : Bool) (age : Nat) (s : State) : State :=
  let s := { s with zl := { s.zl with cfg := put 16 8 age ||| put 8 1 (b2n unit) ||| put 0 1 (b2n paired) } }
  if paired then linkStart s else linkToDown s

def zlSet (p : List Byte) (seq : Nat) (s : State) : State :=
  let b := field p 0 1
  if zlSetRefused (b.testBit 0) (b.testBit 1) s then refuse seq .conflict 0 s
  else done seq (zlStore (b.testBit 0) (b.testBit 1) (field p 1 1) s)

/-- A pre-seal write of ZL_CFG. -/
def zlPreSeal (v : Word) (s : State) : State :=
  if zlSetRefused (bit v 0) (bit v 8) s then hpErr 4 false 0x49000 v s
  else zlStore (bit v 0) (bit v 8) (fld v 16 8) s

/-- ZL_ROLE. -/
def zlRole (s : State) : Word :=
  let z := s.zl
  put 16 16 s.aon.gen.toNat ||| put 11 1 (b2n (z.claim == .waiting || z.claim == .trying || z.claim == .backoff)) |||
    put 10 1 (b2n (driving s)) ||| put 9 1 (b2n (holdLine s)) ||| put 8 1 (b2n z.holdIn) ||| put 4 1 (b2n z.deposed) |||
    put 2 2 z.role.toNat ||| put 0 2 z.roleIn.toNat

/-- ZL_STAT. -/
def zlStat (s : State) : Word :=
  let z := s.zl
  let pr := match z.partner with
    | some p => put 6 1 (b2n p.ready) ||| put 4 2 p.role.toNat
    | none => 0
  put 16 9 (unsyncCount s) ||| put 12 4 z.laneLock.toNat ||| pr ||| put 2 1 (b2n (zlReady s)) |||
    put 1 1 (b2n z.aligned) ||| put 0 1 (b2n (z.link == .up))

/-- The partner's last STATUS reports role 10. -/
def partnerActive (s : State) : Bool :=
  match s.zl.partner with
  | some p => p.role == 2
  | none => false

/-- SLEW is what the device chooses of 0 to 100 ppm while it aligns (R241; assumption log 10). -/
def zlSlew (s : State) : Nat :=
  if s.zl.role != 2 && s.zl.link == .up && partnerActive s && decide (20 < s.zl.skew.natAbs) then (Config.live 0x4900C s.free).toNat % 101 else 0

/-- ZL_SKEW. -/
def zlSkew (s : State) : Word := put 16 7 (zlSlew s) ||| put 0 16 (twos 16 (satInt 16 s.zl.skew))

/-- ZL_CFG to ZL_FAULT in address order. -/
def zlRegs (s : State) : List Word :=
  let z := s.zl
  let off := twos 48 z.offset
  [z.cfg, zlRole s, zlStat s, zlSkew s, word off, word (off / 2 ^ 32), word z.stale, put 16 16 z.crcErr ||| put 0 16 z.downCnt,
   put 16 16 z.missed ||| put 0 16 z.lfull, word s.aon.driveAge, z.lastHo, z.fault]

def zlStatus (seq : Nat) (s : State) : State :=
  let s := { s with free := s.free + 1 }
  complete seq .ok 0 (leWords (zlRegs s)) s

/-- ZL_LOCALk and ZL_UNSYNCk. -/
def zlLocal (k : Nat) (s : State) : Word :=
  word (((List.range 32).map (fun j =>
    let x := s.sec (Fin.ofNat 256 (32 * k + j))
    if x.localFail.isSome || x.mismatch then 2 ^ j else 0)).foldl (· + ·) 0)

def zlUnsync (k : Nat) (s : State) : Word :=
  word (((List.range 32).map (fun j => if unsynced s (Fin.ofNat 256 (32 * k + j)) then 2 ^ j else 0)).foldl (· + ·) 0)

/-! ### Meanings -/

def execHandoverMarkRaise (t : Nat) (h : HeadId) (x : Sys) (senseFall : Bool) (s : State) :
    Host.Outcome State Fault Refusal :=
  .next (whenAwake (markRaise h x senseFall) (s.advance t))

def execHandoverMarkEnd (t : Nat) (h : HeadId) (x : Sys) (s : State) : Host.Outcome State Fault Refusal :=
  .next (whenAwake (markEnd h x) (s.advance t))

def execRoleInputChange (t : Nat) (pins : BitVec 2) (s : State) : Host.Outcome State Fault Refusal :=
  .next (roleInputChange pins (s.advance t))

def execDepose (t : Nat) (s : State) : Host.Outcome State Fault Refusal := .next (depose (s.advance t))

def execDeposeRelease (t : Nat) (s : State) : Host.Outcome State Fault Refusal := .next (deposeRelease (s.advance t))

def execInterlockClaim (t : Nat) (s : State) : Host.Outcome State Fault Refusal := .next (claimTry (s.advance t))

def execClaimWaitExpiry (t : Nat) (released : Bool) (s : State) : Host.Outcome State Fault Refusal :=
  .next (claimEnd released (s.advance t))

def execHoldTimeout (t : Nat) (s : State) : Host.Outcome State Fault Refusal := .next (whenAwake holdTimeout (s.advance t))

def execStatusSend (t : Nat) (s : State) : Host.Outcome State Fault Refusal := .next (whenRunning statusSend (s.advance t))

def execDoorbellSend (t : Nat) (s : State) : Host.Outcome State Fault Refusal :=
  .next (whenRunning doorbellSend (s.advance t))

def execStatusMessage (t : Nat) (m : LinkMsg) (s : State) : Host.Outcome State Fault Refusal :=
  .next (whenRunning (statusMessage m) (s.advance t))

def execEphMessage (t : Nat) (m : LinkMsg) (s : State) : Host.Outcome State Fault Refusal :=
  .next (whenRunning (ephMessage m) (s.advance t))

def execCoverMessage (t : Nat) (m : LinkMsg) (s : State) : Host.Outcome State Fault Refusal :=
  .next (whenRunning (coverMessage m) (s.advance t))

def execLdeltaMessage (t : Nat) (m : LinkMsg) (s : State) : Host.Outcome State Fault Refusal :=
  .next (whenRunning (ldeltaMessage m) (s.advance t))

def execLfullMessage (t : Nat) (m : LinkMsg) (s : State) : Host.Outcome State Fault Refusal :=
  .next (whenRunning (lfullMessage m) (s.advance t))

def execDoorbellMessage (t : Nat) (m : LinkMsg) (s : State) : Host.Outcome State Fault Refusal :=
  .next (whenRunning (doorbellMessage m) (s.advance t))

def execMessageDiscarded (t : Nat) (s : State) : Host.Outcome State Fault Refusal :=
  .next (whenRunning messageDiscarded (s.advance t))

def execLinkTrained (t : Nat) (s : State) : Host.Outcome State Fault Refusal := .next (whenAwake linkTrained (s.advance t))

def execLinkLoss (t : Nat) (lanes : BitVec 4) (s : State) : Host.Outcome State Fault Refusal :=
  .next (whenAwake (linkLoss lanes) (s.advance t))

def execStatusTimeout (t : Nat) (s : State) : Host.Outcome State Fault Refusal :=
  .next (whenRunning statusTimeout (s.advance t))

def execAligned (t : Nat) (s : State) : Host.Outcome State Fault Refusal := .next (whenRunning alignedNow (s.advance t))

def execDriveIntervalComplete (t : Nat) (s : State) : Host.Outcome State Fault Refusal :=
  .next (whenAwake driveComplete (s.advance t))

def execDriveAgeHour (t : Nat) (s : State) : Host.Outcome State Fault Refusal := .next (driveHour (s.advance t))

def execZlSet (t : Nat) (c : Cmd) (s : State) : Host.Outcome State Fault Refusal :=
  .next (command 0x0280 false 4 0 c (zlSet c.payload) (s.advance t))

def execZlStatus (t : Nat) (c : Cmd) (s : State) : Host.Outcome State Fault Refusal :=
  .next (command 0x0281 false 0 48 c zlStatus (s.advance t))

/-- ZL_PDB is accepted before and after sealing; a write with fewer than four byte enables is counted (R4). -/
def execZlPdbWrite (t : Nat) (v : Word) (be : BitVec 4) (s : State) : Host.Outcome State Fault Refusal :=
  .next (whenHost (fun s => if allEnables be then pdbWrite v s else hpErr 1 false 0x49030 v s) (s.advance t))

end Sys2Proof.Machine
end

