-- ==== Sys2Proof/Machine/Vital.lean ====
section
/-! DEFINITION. The vital status port (R212 to R227): a lane's reads and their aborts, the armed CRC failure, and the
VSP_ registers. -/
namespace Sys2Proof.Machine

/-- A lane held low returns zeros (R223). -/
def heldLow (l : Lane) (s : State) : State := s.modLane l (fun x => { x with bits := List.replicate 576 false })

/-- A read begins at edge S: the lane loads its copy. A read still in progress had VSP_SYNC_x sampled low at the edge before
(R213 to R215). -/
def vspRead (l : Lane) (i : ReadInput) (s : State) : State :=
  let s := abortRead l s
  match laneServes s l, loadFrame s i with
  | true, some f =>
    s.modLane l (fun x => { x with read := some (startRead s l f i), loaded := x.loaded || !loadsOld s i })
  | _, _ => heldLow l s

/-- VSP_TEST: the named lanes complement their next complete CRC, once (R227). -/
def armCrcFail (v : Word) (s : State) : State :=
  let arm (l : Lane) (s : State) : State := if bit v (laneIdx l) then s.modLane l (fun x => { x with crcFail := true }) else s
  arm .c (arm .b (arm .a (endReads s)))

/-- A pre-seal write of VSP_CTRL; a lane that it disables is held low (R223). -/
def vspPreSeal (v : Word) (s : State) : State :=
  let off (l : Lane) (s : State) : State := if bit v (laneIdx l) then s else cutRead l s
  let s := off .c (off .b (off .a s))
  { s with vsp := { s.vsp with ctrl := v &&& 7 } }

/-! ### Registers (R227) -/

def vspHdr (s : State) : Word :=
  match s.vsp.frame with
  | some f => f.hdr
  | none => 0

def vspCheck (s : State) : Word :=
  match s.vsp.frame with
  | some f => f.check
  | none => 0

/-- VSP_LANE_STATx, of the lane as a read that has ended leaves it. -/
def laneStat (x : LaneSt) : Word :=
  put 31 1 (b2n x.clkOk) ||| put 30 1 (b2n x.read.isSome) ||| put 0 24 x.lastSeq.toNat
def laneFreq (x : LaneSt) : Word := put 0 16 (satNat 16 x.edges)
def laneCnt (x : LaneSt) : Word := put 24 8 x.missed ||| put 16 8 x.aborted ||| put 0 16 x.complete

/-! ### Meanings -/

def execVspRead (t : Nat) (l : Lane) (i : ReadInput) (s : State) : Host.Outcome State Fault Refusal :=
  .next (vspRead l i (s.advance t))

def execVspReadAbort (t : Nat) (l : Lane) (s : State) : Host.Outcome State Fault Refusal :=
  .next (abortRead l (s.advance t))

/-- VSP_TEST is accepted before and after sealing; a write with fewer than four byte enables is counted (R4). -/
def execVspTestCrcFail (t : Nat) (v : Word) (be : BitVec 4) (s : State) : Host.Outcome State Fault Refusal :=
  .next (whenHost (fun s => if allEnables be then armCrcFail v s else hpErr 1 false 0x48004 v s) (s.advance t))

end Sys2Proof.Machine
end

