-- ==== Sys2Proof/Machine/Irq.lean ====
section
/-! DEFINITION. The interrupt controller (R285 to R300): messages, source states, arbitration and commit, MSI-X delivery,
end of interrupt, masks and their aliases, the storm guard, head event counters. -/
namespace Sys2Proof.Machine

/-! ### Words of 512-bit maps -/

/-- Word k of a map of sources. -/
def mapWord (m : BitVec 512) (k : Fin 16) : Word := BitVec.ofNat 32 (m.toNat / 2 ^ (32 * k.val))

/-- A word in place k, zero elsewhere. -/
def mapPlace (k : Fin 16) (v : Word) : BitVec 512 := BitVec.ofNat 512 (v.toNat * 2 ^ (32 * k.val))

/-- Replace word k. -/
def mapPut (m : BitVec 512) (k : Fin 16) (v : Word) : BitVec 512 := (m &&& ~~~ mapPlace k 0xFFFFFFFF) ||| mapPlace k v

/-- One source. -/
def srcBit (n : SrcId) : BitVec 512 := BitVec.ofNat 512 (2 ^ n.val)

def State.modIrq (s : State) (f : Irq → Irq) : State := { s with irq := f s.irq }

/-! ### Messages and commits (R290 to R293, R296) -/

/-- The oldest message is applied: its source becomes PENDING or ACTIVE_PENDING (R291). -/
def applyMessage (s : State) : State :=
  match s.irq.msgs with
  | [] => s
  | n :: rest => s.modIrq (fun q => { q with msgs := rest, pend := q.pend ||| srcBit n.src })

/-- The PENDING, unmasked source with the lowest number. -/
def winner (s : State) : Option SrcId :=
  (lowestBit 512 (s.irq.pend &&& ~~~ s.irq.mask).toNat).map (fun n => Fin.ofNat 512 n)

/-- The conditions of R292 on the function; the core die is awake, so it is not in eclipse. -/
def mayCommit (s : State) : Bool := s.irq.active.isNone && s.hp.msixEn && canMaster s

/-- A message leaves. -/
def sendMsix (v : SrcId) (s : State) : State :=
  let e := tget s.irq.table v
  { s with out := .msix e.addr e.data :: s.out }

/-- Deliver the active source by a vector: the write, or the pending-bit array (R293). -/
def deliver (v : SrcId) (s : State) : State :=
  if s.hp.funcMask || (tget s.irq.table v).masked then
    s.modIrq (fun q => { q with held := true, pba := q.pba ||| srcBit v })
  else sendMsix v s

/-- Count a commit of a source in the storm window; at STORM the guard masks it (R296). -/
def stormCount (n : SrcId) (s : State) : State :=
  let old := match s.irq.commits.find? (fun c => c.1 == n.val) with
    | some c => c.2
    | none => 0
  let s := s.modIrq (fun q => { q with commits := (n.val, old + 1) :: q.commits.filter (fun c => c.1 != n.val) })
  if 16 ≤ n.val ∧ fld s.irq.cfg 0 8 ≠ 0 ∧ old + 1 = fld s.irq.cfg 0 8 then
    s.modIrq (fun q => { q with
      mask := q.mask ||| srcBit n, storm := q.storm ||| srcBit n, storms := (q.storms + 1) % 65536 })
  else s

/-- The commit of a source. It takes the PCI Express link out of L1 and L1.1, masked message or not, and the message
follows in L0 (R298). -/
def commitSource (n : SrcId) (s : State) : State :=
  let v := tget s.irq.target n
  let s := { s with hp := { s.hp with linkPm := .l0 } }
  let s := s.modIrq (fun q => { q with
    pend := q.pend &&& ~~~ srcBit n, active := some n, held := false, deliv := (q.deliv + 1) % 2 ^ 32 })
  stormCount n (deliver v s)

/-- Arbitration. -/
def arbitrate (s : State) : State :=
  match winner s with
  | some n => if mayCommit s then commitSource n s else s
  | none => s

/-- The held message is issued once nothing masks its entry. -/
def releaseHeld (s : State) : State :=
  if s.irq.held && s.hp.msixEn && canMaster s && !s.hp.funcMask then
    match lowestBit 512 s.irq.pba.toNat with
    | some v =>
      if (tget s.irq.table (Fin.ofNat 512 v)).masked then s
      else sendMsix (Fin.ofNat 512 v) (s.modIrq (fun q => { q with held := false, pba := 0 }))
    | none => s
  else s

/-- A write that can clear an MSI-X mask: Message Control, or a table entry (R260, R293). -/
def msixWrite (w : MsixWrite) (s : State) : State :=
  match w with
  | .control en fm => releaseHeld { s with hp := { s.hp with msixEn := en, funcMask := fm } }
  | .entry v a d m =>
    if s.hp.d3hot then s
    else releaseHeld (s.modIrq (fun q => { q with table := tset q.table v { addr := a, data := d, masked := m } }))

/-- A configuration or memory request of the host reaches the endpoint. -/
def whenHostUp (f : State → State) (s : State) : State := if awake s && hostUp s then f s else s

/-! ### Host writes (R288, R289, R291, R294, R297) -/

/-- A write with fewer than four byte enables is counted (R4). -/
def enabled (be : BitVec 4) (off : Nat) (v : Word) (f : State → State) (s : State) : State :=
  if allEnables be then f s else hpErr 1 false off v s

/-- IRQ_EOI. -/
def eoi (v : Word) (s : State) : State :=
  let n : SrcId := Fin.ofNat 512 (fld v 0 9)
  if s.irq.active = some n then
    s.modIrq (fun q => { q with active := none, held := false, pba := if q.held then 0 else q.pba })
  else hpErr 7 false 0x10008 v (s.modIrq (fun q => { q with badEoi := (q.badEoi + 1) % 65536 }))

/-- IRQ_HDRAIN: SAT clears when the result is below 255. -/
def hdrain (v : Word) (s : State) : State :=
  let h : HeadId := Fin.ofNat 256 (fld v 16 8)
  s.modIrq (fun q => { q with hcnt := tmod q.hcnt h (fun c =>
    let n := c.count - fld v 0 8
    { count := n, sat := c.sat && decide (255 ≤ n) }) })

def maskSet (k : Fin 16) (v : Word) (s : State) : State := s.modIrq (fun q => { q with mask := q.mask ||| mapPlace k v })
def maskClr (k : Fin 16) (v : Word) (s : State) : State :=
  s.modIrq (fun q => { q with mask := q.mask &&& ~~~ mapPlace k v })
def maskWrite (k : Fin 16) (v : Word) (s : State) : State := s.modIrq (fun q => { q with mask := mapPut q.mask k v })
def pendDiscard (k : Fin 16) (v : Word) (s : State) : State :=
  s.modIrq (fun q => { q with pend := q.pend &&& ~~~ mapPlace k v })
def stormClear (k : Fin 16) (v : Word) (s : State) : State :=
  s.modIrq (fun q => { q with storm := q.storm &&& ~~~ mapPlace k v })

/-- The host's doorbell at BAR2 + 0x8000 (R289). -/
def irqDoorbell (v : Word) (be : BitVec 4) (s : State) : State :=
  if allEnables be && decide (288 ≤ v.toNat ∧ v.toNat ≤ 511) then raise v.toNat (s.modIrq (fun q => { q with lastDb := v }))
  else hpErr 5 true 0x8000 v s

/-! ### Registers (R300) -/

def irqActive (s : State) : Word :=
  match s.irq.active with
  | some n =>
    put 31 1 1 ||| put 30 1 (b2n (s.irq.pend.getLsbD n.val)) ||| put 29 1 (b2n s.irq.held) ||| put 0 9 n.val
  | none => 0

def irqErrWord (s : State) : Word := put 16 16 s.irq.storms ||| put 0 16 s.irq.badEoi

/-- IRQ_HCNTh with the live causes of R287. -/
def irqHcnt (s : State) (h : HeadId) : Word :=
  let c := tget s.irq.hcnt h
  let x := s.head h
  put 20 1 (b2n (x.trn.fault != 0)) ||| put 19 1 (b2n (x.cmp.fault != 0)) ||| put 18 1 (b2n (x.flt.fault != 0)) |||
    put 17 1 (b2n (x.xs.fault != 0)) ||| put 16 1 (b2n (x.fe.fault != 0)) ||| put 8 1 (b2n c.sat) ||| put 0 8 c.count

/-! ### Meanings -/

def execInterruptMessage (t : Nat) (s : State) : Host.Outcome State Fault Refusal :=
  .next (whenAwake applyMessage (s.advance t))

def execInterruptCommit (t : Nat) (s : State) : Host.Outcome State Fault Refusal :=
  .next (whenAwake arbitrate (s.advance t))

def execMsixUnmask (t : Nat) (w : MsixWrite) (s : State) : Host.Outcome State Fault Refusal :=
  .next (whenHostUp (msixWrite w) (s.advance t))

def execIrqEoi (t : Nat) (v : Word) (be : BitVec 4) (s : State) : Host.Outcome State Fault Refusal :=
  .next (whenHost (enabled be 0x10008 v (eoi v)) (s.advance t))

def execIrqHdrain (t : Nat) (v : Word) (be : BitVec 4) (s : State) : Host.Outcome State Fault Refusal :=
  .next (whenHost (enabled be 0x11400 v (hdrain v)) (s.advance t))

def execIrqMaskSet (t : Nat) (k : Fin 16) (v : Word) (be : BitVec 4) (s : State) : Host.Outcome State Fault Refusal :=
  .next (whenHost (enabled be (0x10280 + 4 * k.val) v (maskSet k v)) (s.advance t))

def execIrqMaskClr (t : Nat) (k : Fin 16) (v : Word) (be : BitVec 4) (s : State) : Host.Outcome State Fault Refusal :=
  .next (whenHost (enabled be (0x10300 + 4 * k.val) v (maskClr k v)) (s.advance t))

def execIrqPendDiscard (t : Nat) (k : Fin 16) (v : Word) (be : BitVec 4) (s : State) : Host.Outcome State Fault Refusal :=
  .next (whenHost (enabled be (0x10100 + 4 * k.val) v (pendDiscard k v)) (s.advance t))

def execIrqDoorbellWrite (t : Nat) (v : Word) (be : BitVec 4) (s : State) : Host.Outcome State Fault Refusal :=
  .next (whenHost (irqDoorbell v be) (s.advance t))

end Sys2Proof.Machine
end

