-- ==== Sys2Proof/Machine/Read.lean ====
section
/-! DEFINITION. The BAR0 register map as a read shows it (R65, R66, R84, R85, R116, R117, R142, R143, R167, R168, R197,
R198, R211, R227, R257, R283, R284, R300, R324, R325, R342, R343, R352): every register's value, and which of its bits
are RW. Reads here have no side effect (R313); the reads that capture are commands of their own. -/
namespace Sys2Proof.Machine

/-- A register as a read shows it, with the mask of its RW fields. -/
structure RegView where
  val : Word
  rw  : Word
deriving DecidableEq, Repr

def ro (v : Word) : Option RegView := some { val := v, rw := 0 }
def rw (v mask : Word) : Option RegView := some { val := v, rw := mask }

/-- The k-th word of a list of RO registers. -/
def roAt (l : List Word) (k : Nat) : Option RegView := (l[k]?).map (fun v => { val := v, rw := 0 })

/-- Bit j of a map word is `p (32 k + j)`. -/
def mapOf (k : Nat) (p : Nat → Bool) : Word :=
  word (((List.range 32).map (fun j => if p (32 * k + j) then 2 ^ j else 0)).foldl (· + ·) 0)

/-- How many of the first n numbers satisfy p. -/
def countOf (n : Nat) (p : Nat → Bool) : Nat := ((List.range n).filter p).length

/-- A register of an array of n words from `base`: its index. -/
def inArray (o base n : Nat) : Option Nat := if base ≤ o ∧ o < base + 4 * n then some ((o - base) / 4) else none

/-! ### Host port and orbits -/

/-- HP_STAT: link width and speed are the host link's own (assumption log 10). -/
def hpStat (s : State) : Word :=
  let v := (Config.live 0x24 s.free).toNat
  put 8 1 (b2n s.hp.bme) ||| put 4 4 (2 ^ (v % 3)) ||| put 0 4 (1 + v / 3 % 3)

def longCount (s : State) : Nat := (s.hp.inflight.filter (·.long)).length

def hpView (s : State) (o : Nat) : Option RegView :=
  let p := s.hp
  if o = 0x00 then ro 0x25601F3A
  else if o = 0x04 then ro 0x10
  else if o = 0x08 then ro (word Config.serial.toNat)
  else if o = 0x0C then ro (word (Config.serial.toNat / 2 ^ 32))
  else if o = 0x10 then ro 0x08100100
  else if o = 0x20 then ro (put 0 1 (b2n p.isSealed))
  else if o = 0x24 then ro (hpStat s)
  else if o = 0x28 then ro (put 0 16 p.errCount)
  else if o = 0x2C then ro p.errLog
  else if o = 0x30 then ro 0
  else if o = 0x34 then rw p.diagCfg 7
  else if o = 0x38 then ro (put 16 16 p.refused ||| put 0 16 p.completed)
  else if o = 0x3C then ro (put 16 4 (longCount s) ||| put 0 7 p.inflight.length)
  else if o = 0x40 then ro (put 16 16 p.flrCount ||| put 0 16 p.flrLost)
  else none

/-- The command orbit whose commands an orbit carries or completes (R265). -/
def servedOrbit (k : Fin 16) : Option (Fin 4) :=
  if k.val < 4 then some (Fin.ofNat 4 k.val) else if k.val < 8 then some (Fin.ofNat 4 (k.val - 4)) else none

/-- Type code of an orbit (R284). -/
def orbType (k : Fin 16) : Nat :=
  if k.val < 4 then 0 else if k.val < 8 then 1 else if k.val < 12 then 2 else if k.val < 14 then 3 else 4

/-- Clearing EN on a completion orbit waits for its command orbit: disabled, and nothing in progress (R266). -/
def mayDisable (s : State) (k : Fin 16) : Bool :=
  if 4 ≤ k.val ∧ k.val < 8 then
    let j : Fin 4 := Fin.ofNat 4 (k.val - 4)
    !(s.orbit (cmdOrbit j)).en && (inProgress j s).isEmpty
  else true

/-- Commands of an orbit, or served by it, are in progress; or a clear of EN was refused and would be refused still
(R266, R284; assumption log 82). -/
def orbBusy (s : State) (k : Fin 16) : Bool :=
  ((s.orbit k).clrRefused && !mayDisable s k) ||
    match servedOrbit k with
    | some j => !(inProgress j s).isEmpty
    | none => false

def orbStat (s : State) (k : Fin 16) : Word :=
  let o := s.orbit k
  let j : Fin 4 := Fin.ofNat 4 k.val
  let wait := decide (k.val < 4) && orbitReady j s && noSlot j s
  put 16 16 o.drops ||| put 8 3 (orbType k) ||| put 3 1 (b2n wait) ||| put 2 1 (b2n (decide (k.val < 4) && fencedNow j s)) |||
    put 1 1 (b2n (orbBusy s k)) ||| put 0 1 (b2n o.halt)

def orbView (s : State) (k : Fin 16) (o : Nat) : Option RegView :=
  let b := s.orbit k
  if o = 0x00 then rw (word b.base.toNat) 0xFFFFF000
  else if o = 0x04 then rw (word (b.base.toNat / 2 ^ 32)) 0xFFFFFFFF
  else if o = 0x08 then rw (word b.shadow.toNat) 0xFFFFFFF8
  else if o = 0x0C then rw (word (b.shadow.toNat / 2 ^ 32)) 0xFFFFFFFF
  else if o = 0x10 then rw b.cfg 0xFF01011F
  else if o = 0x14 then ro b.hostIdx
  else if o = 0x18 then ro b.devIdx
  else if o = 0x1C then ro (orbStat s k)
  else if o = 0x20 then ro b.fault
  else none

def irqView (s : State) (o : Nat) : Option RegView :=
  let q := s.irq
  let k16 (base : Nat) : Fin 16 := Fin.ofNat 16 ((o - base) / 4)
  if o = 0x00 then rw q.cfg 0xFF
  else if o = 0x04 then ro (irqActive s)
  else if o = 0x08 then ro 0
  else if o = 0x0C then ro (irqErrWord s)
  else if o = 0x10 then ro (word q.deliv)
  else if (inArray o 0x40 16).isSome then ro (mapWord q.storm (k16 0x40))
  else if (inArray o 0x100 16).isSome then ro (mapWord q.pend (k16 0x100))
  else if (inArray o 0x200 16).isSome then rw (mapWord q.mask (k16 0x200)) 0xFFFFFFFF
  else if (inArray o 0x280 16).isSome then ro (mapWord q.mask (k16 0x280))
  else if (inArray o 0x300 16).isSome then ro (mapWord q.mask (k16 0x300))
  else if (inArray o 0x800 512).isSome then
    rw (put 0 9 (tget q.target (Fin.ofNat 512 ((o - 0x800) / 4))).val) 0x1FF
  else if (inArray o 0x1000 256).isSome then ro (irqHcnt s (Fin.ofNat 256 ((o - 0x1000) / 4)))
  else if o = 0x1400 then ro 0
  else none

/-! ### Field-die and device blocks -/

def toneByte (v : Tone) : Nat :=
  match v.slot with
  | some w => 64 + 32 * w.sys.idx + w.head.val % 32
  | none => 0

/-- The slices of a die that are overdue. -/
def dieOverdue (s : State) (d : DieId) : Nat :=
  ((dieSlices d).filter (fun p => ((s.head p.1).fe.imp.get p.2).overdue)).length

def feDieView (s : State) (d : DieId) (o : Nat) : Option RegView :=
  let v := s.die d
  let g (i : Nat) : Tone := tget v.tg (Fin.ofNat 4 i)
  if o = 0x00 then ro (word (((List.range 4).map (fun i => if (g i).sweep.isSome then 2 ^ i else 0)).foldl (· + ·) 0))
  else if o = 0x04 then
    ro (put 24 8 (toneByte (g 3)) ||| put 16 8 (toneByte (g 2)) ||| put 8 8 (toneByte (g 1)) ||| put 0 8 (toneByte (g 0)))
  else if o = 0x08 then ro (put 16 7 (dieOverdue s d) ||| put 0 16 v.checks)
  else none

def xsDevView (s : State) (o : Nat) : Option RegView :=
  if o = 0x00 then rw s.dev.plan 0xFFFFFFFF
  else if o = 0x04 then ro s.dev.planStat
  else if (inArray o 0x10 16).isSome then rw (tget s.dev.uband (Fin.ofNat 16 ((o - 0x10) / 4))) ubandMask
  else if (inArray o 0x80 8).isSome then ro (xsDie (Fin.ofNat 8 ((o - 0x80) / 4)) s)
  else if o = 0xA0 then ro (put 16 10 (runSlices s).length ||| put 0 10 (lockedCount s))
  else none

/-- Unowned slots of a die. -/
def freeSlots (v : Die) : Nat := (v.slots.toList.filter (fun b => !b.owned)).length

def fltDieView (s : State) (d : DieId) (o : Nat) : Option RegView :=
  let v := s.die d
  if (inArray o 0 128).isSome then ro (slotWord s d (Fin.ofNat 128 (o / 4)))
  else if o = 0x200 then ro (put 28 4 v.bankRes ||| put 16 8 v.bankSlot ||| put 0 8 (freeSlots v))
  else none

/-- The trip line of a slice index reads tripped (R124). -/
def lineTripped (s : State) (j : Nat) : Bool :=
  !lineReleased s (Fin.ofNat 256 (j / 2)) (if j % 2 = 0 then .sys1 else .sys2)

def latchOf (s : State) (n : Nat) : Bool := (s.sec (Fin.ofNat 256 n)).latch

def cmpDevView (s : State) (o : Nat) : Option RegView :=
  if (inArray o 0 8).isSome then ro (mapOf (o / 4) (latchOf s))
  else if (inArray o 0x20 16).isSome then ro (mapOf ((o - 0x20) / 4) (lineTripped s))
  else if o = 0x60 then ro (put 16 9 (countOf 256 (latchOf s)) ||| put 0 10 (countOf 512 (lineTripped s)))
  else if o = 0x64 then ro (put 16 10 s.dev.railSlice ||| put 0 16 s.dev.railCount)
  else none

def heldTotal (s : State) : Nat := (s.heads.toList.map (fun x => x.trn.held.length)).foldl (· + ·) 0

def trnDevView (s : State) (o : Nat) : Option RegView :=
  if (inArray o 0 4).isSome then ro (word (tget s.dev.drop (Fin.ofNat 4 (o / 4))))
  else if o = 0x10 then
    ro (put 16 11 (heldTotal s) ||| put 0 9 (countOf 256 (fun h => !trnIdle s (Fin.ofNat 256 h))))
  else if o = 0x14 then ro (put 24 8 s.dev.rejHead ||| put 20 4 s.dev.rejReason ||| put 0 16 s.dev.rejCount)
  else none

/-- Sections in a state. -/
def inState (s : State) (st : SecState) : Nat := countOf 256 (fun n => (s.sec (Fin.ofNat 256 n)).core.state == st)

/-- A section was in a state at the last boundary: the state its ephemeris latched. -/
def latchedState (s : State) (st : SecState) (n : Nat) : Bool := (tget s.zl.eph (Fin.ofNat 256 n)).state == st

def secDevView (s : State) (o : Nat) : Option RegView :=
  if o = 0x00 then rw (put 31 1 (b2n s.key.isSome) ||| (s.dev.secAuth &&& 0xFFFFFF)) 0xFFFFFF
  else if o = 0x04 then
    ro (put 16 10 (allBindings s) ||| put 0 9 (countOf 256 (fun n => (s.sec (Fin.ofNat 256 n)).core.service)))
  else if o = 0x08 then ro (put 16 9 (inState s .occupied) ||| put 0 9 (inState s .clear))
  else if o = 0x0C then ro (put 16 9 (inState s .restoring) ||| put 0 9 (inState s .disturbed))
  else if (inArray o 0x10 8).isSome then ro (mapOf ((o - 0x10) / 4) (latchedState s .clear))
  else if (inArray o 0x30 8).isSome then ro (mapOf ((o - 0x30) / 4) (latchedState s .disturbed))
  else none

/-- EPC_PHASE: track tick and SCLK periods since the boundary. -/
def epcPhase (s : State) : Word :=
  let e := s.now - s.epc.start
  put 16 4 (min 9 (e / us 10)) ||| put 0 12 (min 2399 (e * 24 / us 1))

def epcView (s : State) (o : Nat) : Option RegView :=
  let e := s.epc
  if o = 0x00 then ro (word e.seq)
  else if o = 0x04 then ro (put 0 16 e.seqHi)
  else if o = 0x08 then ro (epcPhase s)
  else if o = 0x0C then rw e.cfg 0xFFFF
  else if o = 0x10 then ro e.last
  else if o = 0x14 then ro (put 24 8 e.minSlack ||| put 0 16 e.minAt)
  else if o = 0x18 then ro (put 16 16 e.paceMin ||| put 0 16 e.pace)
  else if o = 0x1C then ro (word e.cntLate)
  else if o = 0x20 then ro (word e.cntDrop)
  else if o = 0x24 then ro e.fault
  else if o = 0x28 then ro e.fdLate
  else if o = 0x2C then ro 0
  else if o = 0x30 then ro (word e.floor)
  else if o = 0x34 then ro (put 0 16 (e.floor / 2 ^ 32))
  else if (inArray o 0x40 4).isSome then
    let k := (o - 0x40) / 4
    ro (put 16 16 (tget e.fdPace (Fin.ofNat 8 (2 * k + 1))) ||| put 0 16 (tget e.fdPace (Fin.ofNat 8 (2 * k))))
  else none

def vspView (s : State) (o : Nat) : Option RegView :=
  let v := (endReads s).vsp
  if o = 0x00 then rw v.ctrl 7
  else if o = 0x04 then ro 0
  else if o = 0x08 then ro (vspHdr s)
  else if o = 0x0C then ro (vspCheck s)
  else if (inArray o 0x10 3).isSome then roAt [laneStat v.a, laneStat v.b, laneStat v.c] ((o - 0x10) / 4)
  else if (inArray o 0x20 3).isSome then roAt [laneFreq v.a, laneFreq v.b, laneFreq v.c] ((o - 0x20) / 4)
  else if (inArray o 0x30 3).isSome then roAt [laneCnt v.a, laneCnt v.b, laneCnt v.c] ((o - 0x30) / 4)
  else if o = 0x40 then ro v.fault
  else none

def zlView (s : State) (o : Nat) : Option RegView :=
  if o = 0x00 then rw s.zl.cfg 0x00FF0101
  else if (inArray o 0 12).isSome then roAt (zlRegs s) (o / 4)
  else if o = 0x30 then ro 0
  else if (inArray o 0x40 8).isSome then ro (zlLocal ((o - 0x40) / 4) s)
  else if (inArray o 0x60 8).isSome then ro (zlUnsync ((o - 0x60) / 4) s)
  else none

def tbView (s : State) (o : Nat) : Option RegView :=
  let b := s.tb
  if o = 0x00 then ro (word (tbNow s s.now))
  else if o = 0x04 then ro b.nowHi
  else if o = 0x08 then ro (word (tbEpoch s))
  else if o = 0x0C then ro b.epochHi
  else if o = 0x10 then rw b.cfg 3
  else if o = 0x14 then rw b.disc 0xFFFFFFFF
  else if o = 0x18 then ro (tbStat s)
  else if o = 0x1C then ro (put 0 16 s.aon.tbGen.toNat)
  else if o = 0x20 then ro (word (twos 32 (satInt 32 b.ppsErr)))
  else if o = 0x24 then ro (word (twos 32 (satInt 32 b.dev)))
  else if o = 0x28 then ro (word (twos 32 (satInt 32 b.lastStep)))
  else if o = 0x2C then ro b.fault
  else none

/-! ### Recorder, power, clocks, eclipse -/

/-- REC_WIN_STAT: a load is taken to last the 5 us that R320 allows (assumption log 63). -/
def winStat (s : State) : Word :=
  let r := s.rcd
  let busy := match r.winAt with
    | some t => decide (s.now < t + us 5)
    | none => false
  put 1 1 (b2n busy) ||| put 3 1 (b2n r.winGone) ||| put 2 1 (b2n r.winStale) ||| put 0 1 (b2n (r.winNo.isSome && !busy))

/-- Places taken in the staging queue, by triggers alone (assumption log 43). -/
def stageFill (s : State) : Nat := (s.rcd.staging.filter (fun e => e.ty == 0x20)).length

def recView (s : State) (o : Nat) : Option RegView :=
  let r := s.rcd
  if o = 0x00 then rw r.cfg 0xFFFFFF0F
  else if o = 0x04 then rw r.period 0xFFFF
  else if o = 0x08 then rw r.trigEn 0x7FFE
  else if o = 0x0C then rw r.eclEn 0x7FFE
  else if (inArray o 0x10 16).isSome then ro (tget r.sel (Fin.ofNat 16 ((o - 0x10) / 4)))
  else if o = 0x50 then ro (put 0 8 r.selgen)
  else if o = 0x54 then ro (word s.aon.next)
  else if o = 0x58 then ro (word s.aon.oldest)
  else if o = 0x5C then ro (word r.passes)
  else if o = 0x60 then
    ro (match r.open_ with
        | some w => put 31 1 1 ||| put 0 16 w.rep
        | none => 0)
  else if o = 0x64 then ro (put 16 16 r.ovf ||| put 0 6 (stageFill s))
  else if o = 0x68 then ro (word r.nonce.toNat)
  else if o = 0x6C then ro (word (r.nonce.toNat / 2 ^ 32))
  else if o = 0x70 then ro (put 28 4 r.authRes ||| put 0 16 r.fails)
  else if o = 0x74 then ro r.fault
  else if o = 0x78 then ro 0
  else if o = 0x7C then rw r.cursor 0xFFFFFFFF
  else if o = 0x80 then ro (winStat s)
  else if (inArray o 0x100 32).isSome then ro (word (field r.window (o - 0x100) 4))
  else none

/-- PWR_CAUSE with its count. -/
def pwrCause (s : State) : Word := put 16 16 s.aon.resets ||| s.aon.cause

/-- The switches of a die are closed: at start-up die n follows 0.25 ms × n after the release (R338). -/
def dieOn (s : State) (d : DieId) : Bool := s.pwr.on.getLsbD d.val && decide (tget s.pwr.onAt d ≤ s.now)

def pwrFldStat (s : State) : Word :=
  let p := s.pwr
  put 28 4 p.result ||| put 16 8 p.supplyOk.toNat ||| put 8 8 p.inReset.toNat |||
    (mapOf 0 (fun i => decide (i < 8) && dieOn s (Fin.ofNat 8 i)))

def pwrDom (s : State) : Word := put 2 1 (b2n s.pwr.linkUp) ||| put 1 1 (b2n s.pwr.hostUp)

/-- PWR_EST: the dies' driver dissipation, and the device's estimate, a free value (R342, assumption log 10). -/
def pwrEst (s : State) : Word :=
  put 16 16 ((s.dies.toList.map (·.pdrv)).foldl (· + ·) 0 / 10) ||| put 0 16 (fld (Config.live 0x4C024 s.free) 0 16)

def pwrView (s : State) (o : Nat) : Option RegView :=
  if o = 0x00 then rw (put 0 8 s.pwr.fldEn.toNat) 0xFF
  else if o = 0x04 then ro (pwrFldStat s)
  else if o = 0x08 then ro (pwrDom s)
  else if (inArray o 0x0C 3).isSome then ro (Config.live (0x4C000 + o) s.free)
  else if o = 0x18 then ro s.pwr.fault
  else if o = 0x1C then ro s.pwr.dieFault
  else if o = 0x20 then ro (pwrCause s)
  else if o = 0x24 then ro (pwrEst s)
  else none

/-- The PWR_STATUS response (R340). -/
def pwrStatusWords (s : State) : List Word :=
  [put 0 8 s.pwr.fldEn.toNat, pwrFldStat s, pwrDom s, Config.live 0x4C00C s.free, Config.live 0x4C010 s.free,
   Config.live 0x4C014 s.free, s.pwr.fault, pwrCause s]

def clkStat (s : State) : Word :=
  let c := s.clk
  put 28 4 c.result ||| put 4 1 (b2n s.tb.refOk) ||| put 3 1 (b2n c.hclkOk) ||| put 2 1 (b2n c.zlock) |||
    put 1 1 (b2n c.lock) ||| put 0 1 (b2n c.refOk)

def clkView (s : State) (o : Nat) : Option RegView :=
  let c := s.clk
  if o = 0x00 then rw c.cfg 0xFF01
  else if o = 0x04 then ro (clkStat s)
  else if o = 0x08 then ro (put 16 16 c.vsTb.toNat ||| put 0 16 c.vsHclk.toNat)
  else if o = 0x0C then ro c.fault
  else if o = 0x10 then ro (put 16 16 c.glitch ||| put 0 16 c.zrelock)
  else none

def eclView (s : State) (o : Nat) : Option RegView :=
  if o = 0x00 then rw s.ecl.cfg 1
  else if o = 0x04 then ro s.aon.eclLast
  else if o = 0x08 then ro (word s.aon.eclEpoch)
  else if o = 0x0C then ro (put 0 16 (s.aon.eclEpoch / 2 ^ 32))
  else if o = 0x10 then ro (put 0 16 s.aon.eclCnt)
  else if o = 0x14 then ro (put 0 1 (b2n (!s.ecl.pinLow)))
  else none

/-! ### Head and section blocks -/

/-- PHASE of FE_ROUTE_STAT (R65). -/
def phaseCode : RoutePhase → Nat
  | .steady => 0
  | .ramp => 1
  | .break1 => 1
  | .break2 => 1
  | .disch => 2
  | .make => 3

def feRouteStat (s : State) (h : HeadId) : Word :=
  let b := (s.head h).fe
  put 16 8 b.seq ||| put 8 4 b.result ||| put 4 1 (b2n (routeBusy s h)) ||| put 2 2 (phaseCode b.route.phase) |||
    put 0 2 b.route.cur.mode.toNat

def feLeak (s : State) (h : HeadId) : Word :=
  let b := (s.head h).fe
  put 13 1 (b2n b.leakFault) ||| put 12 1 (b2n (decide (leakWarnOf b.bias ≤ b.leak))) ||| put 0 12 b.leak

/-- The slice of the head that is under tone. -/
def toneOn (s : State) (h : HeadId) : Option Sys :=
  ((s.die (dieOf h)).tg.toList.filterMap (fun v =>
    match v.slot with
    | some w => if w.head = h then some w.sys else none
    | none => none)).head?

def feImpStat (s : State) (h : HeadId) : Word :=
  let b := (s.head h).fe
  let act := match toneOn s h with
    | some x => put 27 1 x.idx ||| put 26 1 1
    | none => 0
  act ||| put 25 1 (b2n b.imp.two.overdue) ||| put 24 1 (b2n b.imp.one.overdue) ||| put 16 8 b.interf |||
    put 8 8 b.aborts ||| put 4 3 b.imp.two.cls.toNat ||| put 0 3 b.imp.one.cls.toNat

def feInputStat (s : State) (h : HeadId) : Word :=
  let f := (s.head h).flt.slice
  let run (x : Sys) (p : InvRun → Bool) : Nat :=
    match (f.get x).inv with
    | some r => b2n (p r)
    | none => 0
  put 7 1 (b2n (deferral s h)) ||| put 6 1 (b2n (!trnIdle s h)) ||| put 5 1 (b2n (healthOut s h .sys2)) |||
    put 4 1 (b2n (healthOut s h .sys1)) ||| put 3 1 (run .sys2 (·.cmNow)) ||| put 2 1 (run .sys1 (·.cmNow)) |||
    put 1 1 (run .sys2 (·.ovrNow)) ||| put 0 1 (run .sys1 (·.ovrNow))

/-- A crosspoint pin; the registers of a fixed head read 0 (R65). -/
def xpWord (s : State) (h : HeadId) (k : Nat) : Word :=
  if isFlex h then
    put 8 1 (b2n (ownsPin s h k)) ||| (put 0 8 ((tget (s.head h).fe.xp (Fin.ofNat 14 k)).toNat) &&& 0x37)
  else 0

def feView (s : State) (h : HeadId) (o : Nat) : Option RegView :=
  let b := (s.head h).fe
  if o = 0x00 then rw (b.headCfg ||| put 4 1 (b2n (isFlex h))) 0xFF03
  else if o = 0x04 then rw b.gain 0x77
  else if o = 0x08 then rw b.routeCtrl 3
  else if o = 0x0C then ro (feRouteStat s h)
  else if o = 0x10 then rw b.bias 0xFFFFFFFF
  else if o = 0x14 then ro (feLeak s h)
  else if (inArray o 0x20 14).isSome then rw (xpWord s h ((o - 0x20) / 4)) (if isFlex h then 0x37 else 0)
  else if o = 0x60 then rw b.impCfg 0x3FFFFFFF
  else if o = 0x64 then rw b.impTol 0x003F3F3F
  else if o = 0x68 then rw b.impRef.one 0x81FFFFFF
  else if o = 0x6C then rw b.impRef.two 0x81FFFFFF
  else if o = 0x70 then rw b.kref 0xFFFFFFFF
  else if o = 0x74 then ro b.impRes.one
  else if o = 0x78 then ro b.impRes.two
  else if o = 0x7C then ro b.kres
  else if o = 0x80 then ro (feImpStat s h)
  else if o = 0x84 then ro b.fault
  else if o = 0x88 then ro (feInputStat s h)
  else none

def regCode : RegState → Nat
  | .off => 0
  | .rampUp => 1
  | .acquire => 2
  | .track => 3
  | .hold => 4
  | .rampDown => 5
  | .listen => 6

/-- CLIPn: the driver drives and stands at its clip level (R70). -/
def clipping (v : XsSlice) : Bool := regDrives v.reg && v.reg != .listen && v.clip

/-- XS_STAT. -/
def xsStat (s : State) (h : HeadId) : Word :=
  let b := (s.head h).xs
  put 28 4 b.planResult ||| put 16 8 b.chgSeq ||| put 8 3 (regCode b.slice.two.reg) ||| put 4 3 (regCode b.slice.one.reg) |||
    put 3 1 (b2n b.chg.isSome) ||| put 1 1 (b2n (clipping b.slice.two)) ||| put 0 1 (b2n (clipping b.slice.one))

def xsListen (v : XsSlice) : Word :=
  put 31 1 (b2n v.locked) ||| put 30 1 (b2n v.mismatch) ||| put 22 8 (twos 8 v.phErr) ||| put 0 22 (twos 22 v.trim)

/-- The XS_ words that the core die holds (R330). -/
def xsPlanView (s : State) (h : HeadId) (o : Nat) : Option RegView :=
  let b := (s.head h).xs
  if o = 0x100 then rw b.freq.one 0x1FFFF
  else if o = 0x104 then rw b.freq.two 0x1FFFF
  else if o = 0x108 then rw b.amp 0x07FF07FF
  else if o = 0x10C then rw b.ilim 0x3F3F
  else if o = 0x110 then rw b.phase 0xFFFFFFFF
  else if o = 0x114 then rw b.reg 0xFF
  else if o = 0x118 then rw b.bands 0xFF
  else if (inArray o 0x120 4).isSome then rw (tget b.adj (Fin.ofNat 4 ((o - 0x120) / 4))) adjMask
  else none

def xsView (s : State) (h : HeadId) (o : Nat) : Option RegView :=
  let b := (s.head h).xs
  if o = 0x134 then ro (xsStat s h)
  else if o = 0x138 then ro b.fault
  else if o = 0x13C then ro b.slice.one.meas
  else if o = 0x140 then ro b.slice.two.meas
  else if o = 0x144 then ro (xsListen b.slice.one)
  else if o = 0x148 then ro (xsListen b.slice.two)
  else xsPlanView s h o

def fltBank (v : FltSlice) : Word := put 24 8 v.queued.toNat ||| put 16 8 v.next.toNat ||| put 0 8 v.act.toNat

def fltLat (s : State) (h : HeadId) (x : Sys) : Word := put 16 16 (latNotch s h x) ||| put 0 16 (latTotal s h x)

def fltStat (s : State) (h : HeadId) : Word :=
  let f := (s.head h).flt
  put 28 4 f.result ||| put 16 8 f.seq ||| put 7 1 (b2n f.alignErr) ||| put 6 1 (b2n f.queue.isSome) |||
    put 5 1 (b2n (f.slice.two.next != 0xFF)) ||| put 4 1 (b2n (f.slice.one.next != 0xFF)) |||
    put 1 1 (b2n (settled s h .sys2)) ||| put 0 1 (b2n (settled s h .sys1))

def fltSettle (s : State) (h : HeadId) (x : Sys) : Word :=
  put 16 10 (targetOf s h x) ||| put 0 10 (min (targetOf s h x) ((s.head h).flt.slice.get x).settleCount)

def fltGap (v : FltSlice) : Word := put 24 8 v.gapLast ||| put 0 16 v.gapBridged

def fltMag (v : Sample) : Word :=
  put 31 1 (b2n v.valid) ||| put 30 1 (b2n v.settled) ||| put 29 1 (b2n v.bridged) ||| put 0 20 v.mag

def fltView (s : State) (h : HeadId) (o : Nat) : Option RegView :=
  let f := (s.head h).flt
  if o = 0x200 then rw f.cfg 0xFF010303
  else if o = 0x204 then rw f.delay 0x0FFF0FFF
  else if o = 0x208 then rw (fltBank f.slice.one) 0xFF
  else if o = 0x20C then rw (fltBank f.slice.two) 0xFF
  else if o = 0x210 then rw f.fade 0x7FF
  else if o = 0x214 then ro (put 16 16 (s.firOf h .sys2 / 10) ||| put 0 16 (s.firOf h .sys1 / 10))
  else if (inArray o 0x220 4).isSome then rw (tget f.notch.one (Fin.ofNat 4 ((o - 0x220) / 4))) 0xFFFFFFFF
  else if (inArray o 0x230 4).isSome then rw (tget f.notch.two (Fin.ofNat 4 ((o - 0x230) / 4))) 0xFFFFFFFF
  else if o = 0x240 then ro (fltLat s h .sys1)
  else if o = 0x244 then ro (fltLat s h .sys2)
  else if o = 0x248 then ro (fltStat s h)
  else if o = 0x24C then ro (fltSettle s h .sys1)
  else if o = 0x250 then ro (fltSettle s h .sys2)
  else if o = 0x254 then ro f.fault
  else if o = 0x258 then ro (fltGap f.slice.one)
  else if o = 0x25C then ro (fltGap f.slice.two)
  else if o = 0x260 then ro (fltMag f.slice.one.sample)
  else if o = 0x264 then ro (fltMag f.slice.two.sample)
  else none

/-- The CMP_ registers; a threshold register reads the staged value (R127). -/
def cmpView (s : State) (h : HeadId) (o : Nat) : Option RegView :=
  let c := (s.head h).cmp
  if o = 0x300 then rw c.staged.pres.one 0x03FF03FF
  else if o = 0x304 then rw c.staged.pres.two 0x03FF03FF
  else if o = 0x308 then rw c.staged.health.one 0x03FF03FF
  else if o = 0x30C then rw c.staged.health.two 0x03FF03FF
  else if o = 0x310 then rw c.staged.cfg 0x1F0FFFFF
  else if o = 0x314 then rw c.staged.brake 0x03FFFFFF
  else if o = 0x318 then ro (cmpStat s h)
  else if o = 0x31C then ro c.fault
  else if o = 0x320 then ro c.rbA.one
  else if o = 0x324 then ro c.rbB.one
  else if o = 0x328 then ro c.rbA.two
  else if o = 0x32C then ro c.rbB.two
  else if o = 0x330 then ro (cmpCnt s h)
  else if o = 0x334 then ro (cmpHold s h)
  else none

/-- RW masks of TRN_GEOM to TRN_CAL. -/
def trnMasks : List Word := [0x000F01FF, 0x03FF03FF, 0xFFFF00FF, 0x00FF00FF, 0x03FF01FF, 0x03FF01FF, 0x3FFFFFFF]

def trnView (s : State) (h : HeadId) (o : Nat) : Option RegView :=
  match inArray o 0x400 18 with
  | some k => ((trnRegs s h)[k]?).map (fun v => { val := v, rw := trnMasks.getD k 0 })
  | none => none

/-- A register of a head block. -/
def headRegs (s : State) (h : HeadId) (o : Nat) : Option RegView :=
  if o < 0x100 then feView s h o
  else if o < 0x200 then xsView s h o
  else if o < 0x300 then fltView s h o
  else if o < 0x400 then cmpView s h o
  else trnView s h o

/-- The XS_ words that the core die holds. -/
def isPlanField (o : Nat) : Bool := decide (0x100 ≤ o ∧ o < 0x130)

/-- A register of a head block; while its FLD domain is off everything but the plan fields reads zero (R332). -/
def headView (s : State) (h : HeadId) (o : Nat) : Option RegView :=
  if headUp s h || isPlanField o then headRegs s h o
  else (headRegs s h o).map (fun v => { v with val := 0 })

/-- RW masks of SEC_CFG to SEC_BIND7. -/
def secMasks (k : Nat) : Word := if k = 0 then cfgMask ||| 1 else if k = 1 then matchMask else if k < 10 then 0x81FF else 0

def secView (s : State) (n : SecId) (o : Nat) : Option RegView :=
  match inArray o 0 24 with
  | some k => ((secRegs (s.sec n))[k]?).map (fun v => { val := v, rw := secMasks k })
  | none => none

/-! ### The map (R261) -/

/-- The blocks from 0x0004_0000 to 0x0004_EFFF. -/
def devView (s : State) (off : Nat) : Option RegView :=
  if off < 0x40800 then feDieView s (Fin.ofNat 8 ((off - 0x40000) / 0x100)) (off % 0x100)
  else if off < 0x41000 then none
  else if off < 0x41100 then xsDevView s (off - 0x41000)
  else if off < 0x42000 then none
  else if off < 0x44000 then fltDieView s (Fin.ofNat 8 ((off - 0x42000) / 0x400)) (off % 0x400)
  else if off < 0x44100 then cmpDevView s (off - 0x44000)
  else if off < 0x45000 then none
  else if off < 0x45100 then trnDevView s (off - 0x45000)
  else if off < 0x46000 then none
  else if off < 0x46100 then secDevView s (off - 0x46000)
  else if off < 0x47000 then none
  else if off < 0x47100 then epcView s (off - 0x47000)
  else if off < 0x48000 then none
  else if off < 0x48100 then vspView s (off - 0x48000)
  else if off < 0x49000 then none
  else if off < 0x49100 then zlView s (off - 0x49000)
  else if off < 0x4A000 then none
  else if off < 0x4B000 then tbView s (off - 0x4A000)
  else if off < 0x4C000 then recView s (off - 0x4B000)
  else if off < 0x4D000 then pwrView s (off - 0x4C000)
  else if off < 0x4E000 then clkView s (off - 0x4D000)
  else if off < 0x4F000 then eclView s (off - 0x4E000)
  else none

/-- The register at a BAR0 offset; none where it is unmapped or not a multiple of 4. -/
def regView (s : State) (off : Nat) : Option RegView :=
  if off % 4 ≠ 0 then none
  else if off < 0x1000 then hpView s off
  else if off < 0x1400 then orbView s (Fin.ofNat 16 ((off - 0x1000) / 0x40)) (off % 0x40)
  else if off < 0x10000 then none
  else if off < 0x20000 then irqView s (off - 0x10000)
  else if off < 0x40000 then none
  else if off < 0x4F000 then devView s off
  else if off < 0x100000 then none
  else if off < 0x200000 then headView s (Fin.ofNat 256 ((off - 0x100000) / 0x1000)) (off % 0x1000)
  else if off < 0x240000 then secView s (Fin.ofNat 256 ((off - 0x200000) / 0x400)) (off % 0x400)
  else none

/-- A read of a register; an unmapped address reads zero (R262). -/
def readReg (s : State) (off : Nat) : Word :=
  match regView s off with
  | some v => v.val
  | none => 0

end Sys2Proof.Machine
end

