-- ==== Sys2Proof/Machine/Eclipse.lean ====
section
/-! DEFINITION. Eclipse (R344 to R347): the requests and the entry. The TAP and the read-out are in Machine/Tap.lean. -/
namespace Sys2Proof.Machine

/-! ### Requests and entry (R344, R345) -/

/-- Entry: ECL_LAST, the epoch and the count in AON; output stages high-impedance and the interlock released; every read of
a lane cut off and every stage stalled. The entry is one step (assumption log 41). -/
def enterEclipse (cause cls : Nat) (s : State) : State :=
  let s := cutReads s
  { s with
    phase := .eclipse
    free := s.free + 1
    ecl := { s.ecl with since := s.now, seed := s.free }
    aon := { s.aon with
      eclLast := put 31 1 1 ||| put 8 8 cls ||| put 0 3 cause
      eclEpoch := s.epc.seq
      eclCnt := (s.aon.eclCnt + 1) % 65536 }
    zl := { s.zl with claim := .none, holdOut := false, wantSince := none, wonAt := none } }

/-- A request takes effect. A later one, before the stall, is recorded in CAUSE and changes nothing else; while the core
die is in reset it has no effect. -/
def requestEclipse (cause cls : Nat) (s : State) : State :=
  match s.phase with
  | .reset => s
  | .eclipse =>
    if entering s then { s with aon := { s.aon with eclLast := s.aon.eclLast ||| put 0 3 cause } } else s
  | _ => enterEclipse cause cls s

/-- ECLIPSE_N has been low for 200 ns. -/
def eclipsePin (s : State) : State := requestEclipse 1 0 { s with ecl := { s.ecl with pinLow := true } }

/-- ECL_ENTER at admission: no completion is written for one that is admitted. The block has no RESULT field, so DETAIL
is 0 (R273). -/
def eclEnter (p : List Byte) (seq : Nat) (s : State) : State :=
  if !bit s.ecl.cfg 0 then refuse seq .conflict 0 s
  else if wordArg p 0 ≠ 0x0EC11950 then refuse seq .conflict 0 s
  else requestEclipse 2 0 s

/-- Pre-seal write of ECL_CFG. -/
def eclPreSeal (v : Word) (s : State) : State := { s with ecl := { s.ecl with cfg := v &&& 1 } }

/-! ### Meanings -/

def execEclEnter (t : Nat) (c : Cmd) (s : State) : Host.Outcome State Fault Refusal :=
  .next (command 0x02D0 false 4 0 c (fun seq => eclEnter c.payload seq) (s.advance t))

def execEclipseRequest (t : Nat) (s : State) : Host.Outcome State Fault Refusal := .next (eclipsePin (s.advance t))

end Sys2Proof.Machine
end

