-- ==== Sys2Proof/Machine/Recorder.lean ====
section
/-! DEFINITION. The event recorder (R310 to R325): triggers and snapshots, coalescing, records and their writing, SURVEY,
reading, clearing, the cursor window. -/
namespace Sys2Proof.Machine

/-! ### The CRC of a record (R314) -/

/-- The CRC of a record: bytes 0 to 123, bytes 48 to 53 taken as zero (R314). -/
def recordCrc (b : List Byte) : Word := crc32 (b.take 48 ++ zeros 6 ++ (b.drop 54).take 70)

def recordValid (b : List Byte) : Bool := recordCrc b == word (field b 124 4)

/-! ### Records (R314) -/

/-- A record of a type other than EVENT, at the present instant, with SOURCE 0xFFFF. -/
def plainEntry (s : State) (ty : Nat) (detail : Word) : RecEntry :=
  { ty := ty, trig := 0, ecl := false, source := 0xFFFF, epoch := s.epc.seq, tbGen := (tbNowStamp s).2,
    tbTime := (tbNowStamp s).1, detail := detail, selgen := s.rcd.selgen, role := s.zl.role, data := zeros 14,
    snaps := [], snapData := zeros 64, rep := 0, lastEp := 0, latest := s.epc.seq, job := none, ok := false,
    status := .ok, result := 0 }

/-- The 124 bytes of a record before its CRC. -/
def entryBody (e : RecEntry) (recno lost : Nat) (detail : Word) : List Byte :=
  le 1 e.ty ++ le 1 e.trig ++ le 1 (b2n e.ecl) ++ le 1 e.snaps.length ++ le 2 e.source ++ le 2 lost ++ le 4 recno ++
    le 6 e.epoch ++ le 2 e.tbGen.toNat ++ le 8 e.tbTime ++ leWord detail ++ le 1 e.selgen ++ le 1 e.role.toNat ++
    slice e.data 0 14 ++ repeatBytes e.rep e.lastEp ++ zeros 6 ++
    slice (if e.ty = 0x20 then leWords e.snaps else e.snapData) 0 64

/-- The 128 bytes of a record. -/
def entryBytes (e : RecEntry) (recno lost : Nat) (detail : Word) : List Byte :=
  let b := entryBody e recno lost detail
  b ++ leWord (recordCrc b)

/-- A record of the device's own (START, CLEAR, SURVEY) waits in order with the triggers; it takes none of the 32 places,
whose limit is one on triggers (assumption log 43). -/
def stage (e : RecEntry) (s : State) : State := s.modRec (fun r => { r with staging := r.staging ++ [e] })

/-! ### Triggers (R312, R313, R316 to R318) -/

/-- REC_CFG.MODE: 1 SERVICE, 2 SURVEY; 11 is treated as OFF. -/
def recMode (s : State) : Nat := fld s.rcd.cfg 0 2

/-- COALESCE in epochs. -/
def coalesce (s : State) : Nat := fld s.rcd.cfg 16 16

/-- The selected registers, in order. -/
def snapshots (s : State) : List Word :=
  (s.rcd.sel.toList.filter (fun w => bit w 31)).map (fun w => readReg s (fld w 0 23))

/-- A trigger's record. -/
def eventEntry (s : State) (t : Trigger) (ecl : Bool) : RecEntry :=
  { ty := 0x20, trig := t.cls, ecl := ecl, source := t.source, epoch := t.epoch, tbGen := t.tbGen, tbTime := t.tbTime,
    detail := t.detail, selgen := s.rcd.selgen, role := t.role, data := zeros 14, snaps := snapshots s,
    snapData := [], rep := 0, lastEp := 0, latest := t.epoch, job := none, ok := false, status := .ok, result := 0 }

/-- A trigger repeats a record: same identity, and no more than COALESCE epochs after its latest occurrence. -/
def repeats (s : State) (t : Trigger) (ty cls source : Nat) (detail : Word) (latest : Nat) : Bool :=
  decide (coalesce s ≠ 0 ∧ ty = 0x20 ∧ cls = t.cls ∧ source = t.source ∧ detail = t.detail ∧
    t.epoch ≤ latest + coalesce s)

/-- Add a repeat to the newest entry of a queue. -/
def bumpLast (t : Trigger) : List RecEntry → List RecEntry
  | [] => []
  | [e] => [{ e with rep := satNat 16 (e.rep + 1), lastEp := t.epoch % 2 ^ 32, latest := t.epoch }]
  | e :: es => e :: bumpLast t es

/-- A trigger that is not coalesced: it enters the queue, at its head where it is to enter eclipse, or is lost. Its
snapshots of live registers draw a fresh free value. -/
def enterQueue (t : Trigger) (ecl : Bool) (s : State) : State :=
  if 32 ≤ stageFill s then
    flagRec 0 (s.modRec (fun r => { r with ovf := satNat 16 (r.ovf + 1), lost := satNat 16 (r.lost + 1) }))
  else
    let e := eventEntry s t ecl
    let s := s.modRec (fun r => { r with staging := if ecl then e :: r.staging else r.staging ++ [e] })
    { s with free := s.free + 1 }

/-- A trigger in SERVICE. -/
def service (t : Trigger) (s : State) : State :=
  match s.rcd.staging.getLast? with
  | some e =>
    if repeats s t e.ty e.trig e.source e.detail e.latest then
      s.modRec (fun r => { r with staging := bumpLast t r.staging })
    else enterQueue t false s
  | none =>
    match s.rcd.open_ with
    | some o =>
      if repeats s t 0x20 o.cls o.source o.detail o.latest then
        s.modRec (fun r => { r with open_ := some { o with
          rep := satNat 16 (o.rep + 1), lastEp := t.epoch % 2 ^ 32, latest := t.epoch } })
      else enterQueue t false s
    | none => enterQueue t false s

/-- A trigger in SURVEY is counted. -/
def countTrigger (t : Trigger) (s : State) : State :=
  s.modRec (fun r => { r with survey := { r.survey with
    trigs := satNat 32 (r.survey.trigs + 1), classes := r.survey.classes ||| bits t.cls 1 } })

/-- Handle a trigger by MODE and REC_ECL_EN. -/
def handleTrigger (t : Trigger) (s : State) : State :=
  let m := recMode s
  if m ≠ 1 ∧ m ≠ 2 then s
  else
    let s := if m = 2 then countTrigger t s else s
    if bit s.rcd.eclEn t.cls then enterQueue t true s else if m = 1 then service t s else s

/-- The oldest trigger raised. -/
def nextTrigger (s : State) : State :=
  match s.rcd.raised with
  | [] => s
  | t :: rest => handleTrigger t (s.modRec (fun r => { r with raised := rest }))

/-- Every trigger raised so far is handled: a change of the recorder's set-up applies to triggers after it (R323). -/
def settleTriggers (s : State) : State := foldOver s.rcd.raised (fun _ => nextTrigger) s

/-! ### Writing (R316 to R318, R321, R322) -/

/-- REPEAT and LAST_EPOCH of the open record are written into its slot. -/
def writeBack (s : State) : State :=
  match s.rcd.open_ with
  | some o => s.modRec (fun r => { r with
      mem := memWrite r.mem (slotAddr o.recno + 48) (repeatBytes o.rep o.lastEp)
      open_ := some { o with wroteBack := s.epc.seq } })
  | none => s

/-- The open record closes. -/
def closeOpen (s : State) : State := (writeBack s).modRec (fun r => { r with open_ := none })

/-- DETAIL of an entry: a CLEAR record tells its result, and how many records an applied clear makes unreachable. -/
def writtenDetail (s : State) (e : RecEntry) : Word :=
  if e.ty = 0x23 then put 0 8 e.result ||| put 8 24 (if e.ok then recDist s.aon.oldest s.aon.next else 0) else e.detail

/-- The header block is written, at the end of each pass, into the copy whose turn it is (R322). -/
def writeHeader (s : State) : State :=
  let h : RecHeader := { next := s.aon.next, oldest := s.aon.oldest, passes := s.rcd.passes }
  s.modRec (fun r => { r with header := if h.passes % 2 = 0 then { r.header with one := h } else { r.header with two := h } })

/-- NEXT steps; OLDEST follows a full ring or an applied clear; the passes of the ring are counted. -/
def stepRing (e : RecEntry) (s : State) : State :=
  let n := s.aon.next
  let next := (n + 1) % 2 ^ 32
  let oldest := if e.ok then n else if ringSize < recDist s.aon.oldest next then recDist ringSize next else s.aon.oldest
  let passes := if next % ringSize = 0 then s.rcd.passes + 1 else s.rcd.passes
  let s := { s with aon := { s.aon with next := next, oldest := oldest }, rcd := { s.rcd with passes := passes } }
  let s := if next % ringSize = 0 then writeHeader s else s
  if next % ringSize = 0 ∧ passes = 90000000 then flagRec 3 s else s

/-- An EVENT record stays open while coalescing is on. -/
def openOf (s : State) (n : Nat) (e : RecEntry) : Option OpenRec :=
  if e.ty = 0x20 ∧ coalesce s ≠ 0 then
    some { recno := n, cls := e.trig, source := e.source, detail := e.detail, rep := e.rep, lastEp := e.lastEp,
           latest := e.latest, opened := s.epc.seq, wroteBack := s.epc.seq }
  else none

/-- What follows a written record: the live stream, the clear's flag and completion, an eclipse request. -/
def afterWrite (e : RecEntry) (bytes : List Byte) (s : State) : State :=
  let s := if bit s.rcd.cfg 2 then (offer 12 bytes s).1 else s
  let s := if e.ok then flagRec 2 s else s
  let s := completeJob e.job e.status e.result s
  if e.ecl then requestEclipse 4 e.trig s else s

/-- The next staged record is written into its slot. -/
def writeEntry (e : RecEntry) (s : State) : State :=
  let s := closeOpen s
  let n := s.aon.next
  let bytes := entryBytes e n s.rcd.lost (writtenDetail s e)
  let o := openOf s n e
  let s := s.modRec (fun r => { r with
    mem := memWrite r.mem (slotAddr n) bytes
    open_ := o
    lost := 0
    lastWrite := some s.now
    winStale := r.winStale || (match r.winNo with
      | some w => decide (w % ringSize = n % ringSize)
      | none => false) })
  afterWrite e bytes (stepRing e s)

/-- A write starts no sooner than 20 us after the start of the previous one. -/
def mayWrite (s : State) : Bool :=
  match s.rcd.lastWrite with
  | some t => decide (t + us 20 ≤ s.now)
  | none => true

def recWrite (s : State) : State :=
  match s.rcd.staging with
  | [] => s
  | e :: rest => if mayWrite s then writeEntry e (s.modRec (fun r => { r with staging := rest })) else s

/-- The write-backs of R317: COALESCE epochs have passed without a repeat, or 65,536 epochs since the last one. -/
def recWriteBack (s : State) : State :=
  match s.rcd.open_ with
  | some o =>
    if o.latest + coalesce s < s.epc.seq then closeOpen s
    else if o.wroteBack + 65536 ≤ s.epc.seq then writeBack s
    else s
  | none => s

/-! ### SURVEY (R315) -/

/-- A new period starts at an epoch. -/
def surveyStart (seq : Nat) (s : State) : State :=
  s.modRec (fun r => { r with survey :=
    { Survey.reset with startSeq := seq, top := if bit r.cfg 3 then 0 else -512 } })

/-- Epochs of a period; 0 is treated as 1. -/
def surveyLen (s : State) : Nat := 100 * max 1 (fld s.rcd.period 0 16)

/-- The SURVEY record of the period. A period without a sample has no lowest and no highest: FREE VALUES (assumption log
44). -/
def surveyEntry (s : State) : RecEntry :=
  let v := s.rcd.survey
  let none_ := decide (v.hi < v.lo)
  let lo := if none_ then fld (Config.live 0x21 s.free) 0 16 else v.lo
  let hi := if none_ then fld (Config.live 0x21 s.free) 16 16 else v.hi
  let head := bit s.rcd.cfg 3
  let mid := if head then le 2 v.a ++ le 2 v.b else le 4 v.a
  { plainEntry s 0x21 v.classes with
    trig := b2n head
    source := if head then fld s.rcd.cfg 8 8 else 0xFFFF
    data := le 2 lo ++ le 2 hi ++ mid ++ le 4 v.trigs ++ le 2 (twos 16 v.top)
    snapData := v.bins.toList.flatMap (fun n => le 4 n) }

def surveyPeriod (s : State) : State :=
  if recMode s = 2 ∧ s.rcd.survey.startSeq + surveyLen s ≤ s.epc.seq then
    let s := settleTriggers s
    let s' := surveyStart (s.rcd.survey.startSeq + surveyLen s) (stage (surveyEntry s) s)
    { s' with free := s.free + 1 }
  else s

/-! ### Commands (R313, R319, R321, R323) -/

/-- REC_SET: the open record closes; a change of REC_CFG or REC_PERIOD starts a new period. -/
def recSet (cfg period trigEn eclEn : Word) (s : State) : State :=
  let s := closeOpen (settleTriggers s)
  let c := cfg &&& 0xFFFFFF0F
  let p := period &&& 0xFFFF
  let fresh := decide (c ≠ s.rcd.cfg ∨ p ≠ s.rcd.period)
  let s := s.modRec (fun r => { r with cfg := c, period := p, trigEn := trigEn &&& 0x7FFE, eclEn := eclEn &&& 0x7FFE })
  if fresh then surveyStart s.epc.seq s else s

/-- Pre-seal writes of REC_CFG, REC_PERIOD, REC_TRIG_EN and REC_ECL_EN: REC_SET for that register alone. -/
def recPreSeal (off : Nat) (v : Word) (s : State) : State :=
  let r := s.rcd
  if off = 0x4B000 then recSet v r.period r.trigEn r.eclEn s
  else if off = 0x4B004 then recSet r.cfg v r.trigEn r.eclEn s
  else if off = 0x4B008 then recSet r.cfg r.period v r.eclEn s
  else recSet r.cfg r.period r.trigEn v s

/-- REC_SELECT. -/
def recSelect (p : List Byte) (seq : Nat) (s : State) : State :=
  let n := field p 0 1
  let offs := (List.range n).map (fun i => field p (4 + 4 * i) 4)
  if 16 < n ∨ offs.any (fun o => (regView s o).isNone) then refuse seq .conflict 1 s
  else
    let s := settleTriggers s
    done seq (s.modRec (fun r => { r with
      selgen := (r.selgen + 1) % 256
      sel := tabulate 16 (fun k => if k < n then put 31 1 1 ||| put 0 23 (offs.getD k 0) else 0) }))

/-- REC_READ. -/
def recRead (p : List Byte) (seq : Nat) (s : State) : State :=
  let count := field p 4 2
  if count = 0 ∨ 8192 < count then refuse seq .conflict 1 s
  else readChunk { seq := seq, next := readStart s (field p 0 4), left := count, first := none, offered := 0,
                   dropped := 0, overrun := 0, oldest := s.aon.oldest } s

/-- A CLEAR record carries the outcome of a REC_CLEAR, which completes when it has been written. -/
def queueClear (seq : Nat) (st : Status) (code : Nat) (s : State) : State :=
  let s := s.modRec (fun r => { r with authRes := code })
  stage { plainEntry s 0x23 0 with job := some seq, ok := code == 0, status := st, result := code } s

/-- REC_CLEAR. -/
def recClear (p : List Byte) (seq : Nat) (s : State) : State :=
  match s.key with
  | none => complete seq .notAuthorised 3 [] (s.modRec (fun r => { r with authRes := 3 }))
  | some key =>
    let s := settleTriggers s
    let nonce := s.rcd.nonce
    let d := s.draw
    let s := d.2.modRec (fun r => { r with nonce := d.1 })
    let etok := field p 0 6
    if !tokenWindow s etok then queueClear seq .notAuthorised 4 s
    else if slice p 8 8 ≠ token key 0x02A3 0 etok nonce then
      queueClear seq .notAuthorised 5 (flagRec 1 (s.modRec (fun r => { r with fails := satNat 16 (r.fails + 1) })))
    else queueClear seq .ok 0 (closeOpen s)

/-! ### Mark and cursor (R312, R320) -/

/-- REC_MARK. -/
def recMark (v : Word) (s : State) : State := trig 14 0xFFFF v s

/-- REC_CURSOR: a copy of the record is loaded, or GONE is set and the window reads zero. -/
def recCursor (v : Word) (s : State) : State :=
  let n := v.toNat
  let ok := reachable s n
  s.modRec (fun r => { r with
    cursor := v
    window := if ok then recordBytes s n else zeros 128
    winNo := if ok then some n else none
    winStale := false
    winGone := !ok
    winAt := some s.now })

/-! ### Start-up (R200, R311) -/

/-- Slots that hold a listed byte. -/
def listedSlots (m : Memory) : List Nat :=
  m.foldl (fun l c => if l.head? = some (c.1 / 128) then l else (c.1 / 128) :: l) []

/-- The largest EPOCH among the slots whose CRC is valid; a slot with nothing listed has none. -/
def newestEpoch (m : Memory) : Option Nat :=
  (listedSlots m).foldl (fun best k =>
    let b := memRead m (128 * k) 128
    if recordValid b then some (max (best.getD 0) (field b 12 6)) else best) none

/-- The floor plus 65,536, rounded up to a multiple of 65,536. -/
def resumeFrom (floor : Nat) : Nat := (floor + 65536 + 65535) / 65536 * 65536

/-- Where the run begins, with DETAIL of its START record. -/
def runStart (s : State) : Nat × Word :=
  match s.aon.floor with
  | some f => (resumeFrom f, 0)
  | none =>
    match newestEpoch s.rcd.mem with
    | some e => (resumeFrom e, 1)
    | none => (0, 2)

/-- The epoch floor is set and the START record queued. -/
def startRecord (s : State) : State :=
  let r := runStart s
  let s := { s with
    epc := { s.epc with seq := r.1, floor := r.1 }
    aon := { s.aon with floor := some r.1 } }
  stage (plainEntry s 0x22 r.2) s

/-! ### Meanings -/

def execRecSet (t : Nat) (c : Cmd) (s : State) : Host.Outcome State Fault Refusal :=
  .next (command 0x02A0 false 16 0 c (fun seq s => done seq
    (recSet (wordArg c.payload 0) (wordArg c.payload 4) (wordArg c.payload 8) (wordArg c.payload 12) s)) (s.advance t))

def execRecSelect (t : Nat) (c : Cmd) (s : State) : Host.Outcome State Fault Refusal :=
  .next (command 0x02A1 false 68 0 c (fun seq => recSelect c.payload seq) (s.advance t))

def execRecRead (t : Nat) (c : Cmd) (s : State) : Host.Outcome State Fault Refusal :=
  .next (command 0x02A2 true 8 20 c (fun seq => recRead c.payload seq) (s.advance t))

def execRecClear (t : Nat) (c : Cmd) (s : State) : Host.Outcome State Fault Refusal :=
  .next (command 0x02A3 true 16 0 c (fun seq => recClear c.payload seq) (s.advance t))

def execRecMarkWrite (t : Nat) (v : Word) (be : BitVec 4) (s : State) : Host.Outcome State Fault Refusal :=
  .next (whenHost (enabled be 0x4B078 v (recMark v)) (s.advance t))

def execRecCursorWrite (t : Nat) (v : Word) (be : BitVec 4) (s : State) : Host.Outcome State Fault Refusal :=
  .next (whenHost (enabled be 0x4B07C v (recCursor v)) (s.advance t))

def execRecTrigger (t : Nat) (s : State) : Host.Outcome State Fault Refusal :=
  .next (whenAwake nextTrigger (s.advance t))

def execRecWrite (t : Nat) (s : State) : Host.Outcome State Fault Refusal := .next (whenAwake recWrite (s.advance t))

def execRecWriteBack (t : Nat) (s : State) : Host.Outcome State Fault Refusal :=
  .next (whenAwake recWriteBack (s.advance t))

def execRecSurveyPeriod (t : Nat) (s : State) : Host.Outcome State Fault Refusal :=
  .next (whenRunning surveyPeriod (s.advance t))

end Sys2Proof.Machine
end

