-- ==== Sys2Proof/Machine/Power.lean ====
section
/-! DEFINITION. Power, clocks and reset (R326 to R343): the resets and their reach, supply monitors, field dies in service,
start-up, clock supervision, and the PWR_ and CLK_ blocks. -/
namespace Sys2Proof.Machine

def State.modPwr (s : State) (f : Pwr → Pwr) : State := { s with pwr := f s.pwr }
def State.modClk (s : State) (f : Clk → Clk) : State := { s with clk := f s.clk }

/-! ### Flags and triggers (R341) -/

/-- DETAIL of a trigger for a PWR_ flag. -/
def pwrDetail (s : State) : Word := put 16 8 (fld s.pwr.dieFault 0 8) ||| put 0 16 (fld s.pwr.fault 0 16)

/-- Set flags of PWR_FAULT and PWR_DIE_FAULT: source 1 and one trigger where any of them rises; the trigger's SOURCE is the
die for DIE_SUPPLY (R341). -/
def flagPwr (flags die : Word) (source : Nat) (s : State) : State :=
  let old := s.pwr
  let s := s.modPwr (fun p => { p with fault := p.fault ||| flags, dieFault := p.dieFault ||| die })
  if flags &&& ~~~ old.fault = 0 ∧ die &&& ~~~ old.dieFault = 0 then s else trig 9 source (pwrDetail s) (raise 1 s)

/-! ### The endpoint's reset (R280, R281, R283, R299) -/

/-- Commands in progress run on; their completions will not be written. -/
def loseInflight (l : List InFlight) : List InFlight := l.map (fun c => { c with lost := true })

/-- HP_ except HP_SEAL, identification and HP_FLR; ORB_ and IRQ_, the MSI-X table and the configuration space at their reset
values. -/
def endpointReset (s : State) : State :=
  { s with
    hp := { Hp.reset with
      isSealed := s.hp.isSealed, flrCount := s.hp.flrCount, flrLost := s.hp.flrLost, admSeq := s.hp.admSeq,
      inflight := loseInflight s.hp.inflight, readData := s.hp.readData, aerLogged := s.hp.aerLogged }
    orbits := Vector.replicate 16 Orbit.reset
    irq := Irq.reset }

/-! ### Field-die reset (R330 to R332) -/

/-- The XS_ words that the core die holds, reloaded into the die: what its slices carry until the next make. -/
def reloadXs (b : XsHead) : XsHead :=
  let sl (x : Sys) : XsSlice :=
    { XsSlice.reset (fld (b.freq.get x) 0 17) with
      amp := max 10 (fld b.amp (16 * x.idx) 11), phase := fld b.phase (16 * x.idx) 16 }
  { XsHead.reset with
    freq := b.freq, amp := b.amp, ilim := b.ilim, phase := b.phase, reg := b.reg, bands := b.bands, adj := b.adj,
    slice := ⟨sl .sys1, sl .sys2⟩ }

/-- A head block after its die's reset: all but the XS_ plan words, and the stamp that COVER entries give until the device's
own reset (R239). -/
def resetHead (x : Head) : Head :=
  { Head.reset with xs := reloadXs x.xs, trn := { Head.reset.trn with lastStamp := x.trn.lastStamp } }

/-- What waits on a head whose die goes down: a route request completes with POWER (R48); a carrier change and bank swaps
complete with RANGE, as commands that name the head do (R332; assumption log 45). -/
def endHeadJobs (h : HeadId) (s : State) : State :=
  let x := s.head h
  let s := completeJob x.fe.route.job .conflict 5 s
  let s := match x.xs.chg with
    | some c => completeJob c.job .conflict 1 s
    | none => s
  let swap (o : Option Swap) (s : State) : State :=
    match o with
    | some w => completeJob w.job .conflict 1 s
    | none => s
  swap x.flt.queue (swap x.flt.fading s)

/-- A sweep on a die that goes down stops, as at its time limit (R62; assumption log 45). -/
def endDieSweeps (d : DieId) (s : State) : State :=
  foldOver (allFin 4) (fun g s =>
    match (s.tone d g).sweep with
    | some w => endSweep d g w 9 s
    | none => s) s

/-- The field-die notice (R184): one item for each section bound to a head of the die. -/
def dieNotice (d : DieId) (s : State) : State :=
  let heads := dieHeads d
  let s := foldOver heads activity s
  foldOver (allFin 256) (fun n s =>
    match heads.find? (fun h => boundTo h (s.sec n)) with
    | some h => pushItem { kind := .notice 8, head := h, seq := 0, stamp := stampOf s.now, at_ := s.now } n s
    | none => s) s

/-- FLD reset of a die: its head blocks, its die blocks and bank slots, the event counters of its heads; its trip lines read
tripped and the latches of the bound sections are set. -/
def resetDie (d : DieId) (s : State) : State :=
  let heads := dieHeads d
  let s := endDieSweeps d (foldOver heads endHeadJobs s)
  let s := foldOver heads setLatches s
  let s := s.modPwr (fun p => { p with inReset := p.inReset ||| BitVec.ofNat 8 (2 ^ d.val) })
  let s := foldOver heads (fun h s => s.modHead h resetHead) s
  let s := s.modDie d (fun v => { Die.reset with tj := v.tj, pdrv := v.pdrv, thermOff := v.thermOff, thermWarn := v.thermWarn })
  foldOver heads (fun h s => s.modIrq (fun q => { q with hcnt := tset q.hcnt h { count := 0, sat := false } })) s

/-- A die that runs begins to power down or enters reset: the notice of R184, then the reset. -/
def dieDown (d : DieId) (s : State) : State := if dieUp s d then resetDie d (dieNotice d s) else s

/-- A monitor resets a die; the trigger of R341 tells that its reset is asserted. -/
def monitorDie (d : DieId) (s : State) : State :=
  let up := dieUp s d
  let s := (dieDown d s).modPwr (fun p => { p with held := p.held ||| BitVec.ofNat 8 (2 ^ d.val) })
  if up then trig 9 d.val (put 28 4 2) s else s

/-! ### Core die reset (R329, R330) -/

/-- The bit of PWR_CAUSE. -/
def causeBit : ResetCause → Nat
  | .pin => 1
  | .vcoreUv => 2
  | .vioUv => 3
  | .clock => 4
  | .wdog => 5

/-- The interlock logic in AON is not reached; a claim starts anew where eclipse had withdrawn it (R231, R345). -/
def keepInterlock (s : State) : Zl :=
  let z := s.zl
  let anew := s.phase == .eclipse && z.roleIn == 2
  { Zl.reset with
    pins := z.pins, roleIn := z.roleIn, deposed := z.deposed, holdIn := z.holdIn, holdOut := z.holdOut,
    claim := if anew then .waiting else z.claim, claimAt := z.claimAt,
    wantSince := if anew then some s.now else z.wantSince, wonAt := z.wonAt, roleAt := z.roleAt }

/-- CORE, HOST, LINK and every FLD domain at their reset values, with fresh nonces (R188); what is kept: AON, the recorder's
memory, the customer key, the inputs, and what has left the device. -/
def clearCore (s : State) : State :=
  let p := s.pwr
  let c := s.clk
  { State.reset with
    pending := s.pending, now := s.now, free := s.free + 257, resetAt := s.now, out := s.out, key := s.key, subsys := s.subsys, aon := s.aon
    sections := tabulate 256 (fun n => Section.reset (Config.random (s.free + n)))
    rcd := { Rec.reset (Config.random (s.free + 256)) with
      mem := s.rcd.mem, header := s.rcd.header, passes := s.rcd.passes }
    zl := keepInterlock s
    tb := { Tb.reset with refOk := s.tb.refOk }
    dies := tabulate 8 (fun d =>
      let v := s.die (Fin.ofNat 8 d)
      { Die.reset with tj := v.tj, pdrv := v.pdrv, thermOff := v.thermOff, thermWarn := v.thermWarn })
    pwr := { Pwr.reset with
      supplyOk := p.supplyOk, held := p.held, coreHeld := p.coreHeld, hostHeld := p.hostHeld, linkHeld := p.linkHeld }
    clk := { Clk.reset with refOk := c.refOk, hclkOk := c.hclkOk }
    ecl := { Ecl.reset with pinLow := s.ecl.pinLow } }

/-- A supply is lost within 20 us of the start of a record write: where the write had not ended, its record is torn, and
its CRC fails (R310, R316). -/
def tearWrite (s : State) : State :=
  match s.rcd.lastWrite with
  | some t =>
    if s.now < t + us 20 ∧ Config.writeEnded s.free = false then
      let body := (List.range 124).map (Config.tornByte s.free)
      s.modRec (fun r => { r with
        mem := memWrite r.mem (slotAddr ((s.aon.next + 2 ^ 32 - 1) % 2 ^ 32)) (body ++ leWord (~~~ recordCrc body)) })
    else s
  | none => s

/-- Core die reset: the cause and the count in AON, the TB generation increments (R308). The clock-fault reset and the
watchdog do not act in eclipse, but end its entry (R344, R345); a core die in reset stays in it. -/
def coreReset (cause : ResetCause) (s : State) : State :=
  if s.phase = .reset ∨ (s.phase = .eclipse ∧ entering s = false ∧ (cause = .clock ∨ cause = .wdog)) then s
  else
    let s := clearCore (if cause = .vcoreUv ∨ cause = .vioUv then tearWrite s else s)
    { s with aon := { s.aon with
      tbGen := s.aon.tbGen + 1
      cause := s.aon.cause ||| bits (causeBit cause) 1
      resets := (s.aon.resets + 1) % 65536 } }

/-- The newer of the header's two copies. -/
def newestHeader (r : Rec) : RecHeader := if r.header.two.passes ≤ r.header.one.passes then r.header.one else r.header.two

/-- AON power-on reset: everything but the one-time-programmable storage and the recorder's memory; its pointers are reloaded
from the header (R310, R329; assumption log 46). The AON domain stays in reset until VAON is good again (R327). -/
def aonReset (s : State) : State :=
  let c := clearCore (tearWrite s)
  let h := newestHeader s.rcd
  { c with
    zl := Zl.reset
    pwr := { Pwr.reset with aonHeld := true }
    clk := Clk.reset
    ecl := Ecl.reset
    rcd := { c.rcd with passes := h.passes }
    aon := { Aon.reset with next := h.next, oldest := h.oldest, hourAt := s.now } }

/-! ### Supply monitors (R327) -/

/-- VSER: HOST and LINK domains reset. -/
def vserTrip (s : State) : State :=
  let s := linkToDown (endpointReset (cutReads s))
  flagPwr (bits 3 1) 0 0xFFFF (s.modPwr (fun p => { p with
    hostUp := false, linkUp := false, hostHeld := true, linkHeld := true }))

/-- A monitor's condition has lasted its filter time. While the core die is in reset or in eclipse only the hold is taken
in. -/
def monitorTrip (m : Monitor) (s : State) : State :=
  match m with
  | .vcoreUv => (coreReset .vcoreUv s).modPwr (fun p => { p with coreHeld := true })
  | .vioUv => (coreReset .vioUv s).modPwr (fun p => { p with coreHeld := true })
  | .vserUv => if awake s then vserTrip s else s.modPwr (fun p => { p with hostHeld := true, linkHeld := true })
  | .vanaUv =>
    if awake s then foldOver (allFin 8) monitorDie (flagPwr (bits 2 1) 0 0xFFFF s)
    else s.modPwr (fun p => { p with held := 0xFF })
  | .vfldUv =>
    if awake s then foldOver (allFin 8) monitorDie (flagPwr (bits 0 1) 0 0xFFFF s)
    else s.modPwr (fun p => { p with held := 0xFF })
  | .vfldOv =>
    if awake s then foldOver (allFin 8) monitorDie (flagPwr (bits 1 1) 0 0xFFFF s)
    else s.modPwr (fun p => { p with held := 0xFF })
  | .dieSupply d =>
    let s := s.modPwr (fun p => { p with supplyOk := p.supplyOk &&& ~~~ BitVec.ofNat 8 (2 ^ d.val) })
    if awake s then monitorDie d (flagPwr (bits 4 1) (bits d.val 1) d.val s)
    else s.modPwr (fun p => { p with held := p.held ||| BitVec.ofNat 8 (2 ^ d.val) })

/-! ### Field dies in service (R331) -/

/-- A die leaves the jobs of a kind that wait for it; a job without one left completes OK. -/
def finishDie (of : FldJob → Bool) (d : DieId) (s : State) : State :=
  let jobs := s.pwr.jobs.map (fun j => if of j then { j with left := j.left &&& ~~~ BitVec.ofNat 8 (2 ^ d.val) } else j)
  let s := s.modPwr (fun p => { p with jobs := jobs.filter (fun j => j.left != 0) })
  foldOver (jobs.filter (fun j => j.left == 0)) (fun j s => completeJob j.job .ok 0 s) s

/-- The switches of a die close. -/
def closeSwitches (d : DieId) (s : State) : State :=
  s.modPwr (fun p => { p with on := p.on ||| BitVec.ofNat 8 (2 ^ d.val), onAt := tset p.onAt d s.now })

/-- A die begins to power down by command. -/
def turnOff (d : DieId) (s : State) : State :=
  (dieDown d s).modPwr (fun p => { p with goingOff := p.goingOff ||| BitVec.ofNat 8 (2 ^ d.val) })

def maskHas (m : BitVec 8) (d : DieId) : Bool := m.getLsbD d.val

/-- The dies of a mask. -/
def maskDies (m : BitVec 8) : List DieId := (allFin 8).filter (maskHas m)

/-- A die is already in the requested state. -/
def dieDone (s : State) (on : Bool) (d : DieId) : Bool :=
  if on then maskHas s.pwr.on d && !maskHas s.pwr.goingOff d && dieUp s d else !maskHas s.pwr.on d

/-- The tests of R331 in order: RANGE, CLEAR_BOUND, SUPPLY; 0 where all pass. -/
def fldTest (s : State) (mask : BitVec 8) (op : Nat) (force : Bool) : Nat :=
  if mask = 0 ∨ 1 < op then 1
  else if op = 0 && !force && (maskDies mask).any (fun d => (dieHeads d).any (clearBound s)) then 2
  else if op = 1 && (maskDies mask).any (fun d => !maskHas s.pwr.supplyOk d) then 3
  else 0

/-- Turn a die on: close its switches, unless it still goes down, when they close once it is off. -/
def turnOn (d : DieId) (s : State) : State :=
  if maskHas s.pwr.on d then s else closeSwitches d s

/-- An admitted PWR_FLD: the enables, the dies, and the job that waits for those not in the requested state. -/
def fldAdmit (mask : BitVec 8) (on : Bool) (job : Option Nat) (s : State) : State :=
  let todo := (maskDies mask).filter (fun d => !dieDone s on d)
  let left := todo.foldl (fun m d => m ||| BitVec.ofNat 8 (2 ^ d.val)) (0 : BitVec 8)
  let s := s.modPwr (fun p => { p with
    result := 0
    fldEn := if on then p.fldEn ||| mask else p.fldEn &&& ~~~ mask
    jobs := if left = 0 then p.jobs else p.jobs ++ [{ left := left, on := on, job := job }] })
  let s := foldOver todo (if on then turnOn else turnOff) s
  if left = 0 then completeJob job .ok 0 s else s

/-- PWR_FLD. -/
def pwrFld (p : List Byte) (seq : Nat) (s : State) : State :=
  let mask : BitVec 8 := BitVec.ofNat 8 (field p 0 1)
  let op := field p 1 1
  let code := fldTest s mask op (decide (field p 2 1 % 2 = 1))
  if code ≠ 0 then refuse seq .conflict code (s.modPwr (fun w => { w with result := code }))
  else fldAdmit mask (op == 1) (some seq) s

/-- Pre-seal write of PWR_FLD_EN: PWR_FLD without FORCE for the dies whose bit falls, then for those whose bit rises; one
failed test refuses the whole write (assumption log 47). -/
def fldPreSeal (v : Word) (s : State) : State :=
  let new : BitVec 8 := BitVec.ofNat 8 (fld v 0 8)
  let off := s.pwr.fldEn &&& ~~~ new
  let on := new &&& ~~~ s.pwr.fldEn
  let code := if off ≠ 0 ∧ fldTest s off 0 false ≠ 0 then fldTest s off 0 false
              else if on ≠ 0 then fldTest s on 1 false else 0
  if code ≠ 0 then hpErr 4 false 0x4C000 v (s.modPwr (fun w => { w with result := code }))
  else
    let s := s.modPwr (fun w => { w with result := 0 })
    let s := if off = 0 then s else fldAdmit off false none s
    if on = 0 then s else fldAdmit on true none s

/-- The switches of a die that goes down open: ON reads 0, FLD_OFF, the trigger, the command. A die wanted on again follows
at once. -/
def powerDownDone (d : DieId) (s : State) : State :=
  if !maskHas s.pwr.goingOff d then s
  else
    let bit_ : BitVec 8 := BitVec.ofNat 8 (2 ^ d.val)
    let s := s.modPwr (fun p => { p with on := p.on &&& ~~~ bit_, goingOff := p.goingOff &&& ~~~ bit_ })
    let s := trig 9 d.val (put 28 4 1) (flagPwr (bits 5 1) 0 0xFFFF s)
    if maskHas s.pwr.fldEn d then closeSwitches d (finishDie (fun j => !j.on) d s) else finishDie (fun _ => true) d s

/-- The reset of a die is released: plan words reloaded, heads ISOLATED with TYPE 00, slices forced (R48, R139). A slice
not checked yet counts its INTERVAL from here. -/
def releaseDie (d : DieId) (s : State) : State :=
  let s := foldOver (dieHeads d) (fun h s => (s.modHead h resetHead).modFe h (fun b =>
    { b with imp := b.imp.both (fun i => { i with lastDone := s.now }) })) s
  s.modPwr (fun p => { p with inReset := p.inReset &&& ~~~ BitVec.ofNat 8 (2 ^ d.val) })

/-- The die may leave reset: switches closed, no monitor holds it, and it does not go down. -/
def mayReleaseDie (s : State) (d : DieId) : Bool :=
  awake s && !dieUp s d && dieOn s d && !maskHas s.pwr.goingOff d && !maskHas s.pwr.held d && maskHas s.pwr.supplyOk d

/-- A die turned on by command comes out of reset: the command completes, with a POWER trigger whose DETAIL the manual does
not give (R331; a FREE VALUE, assumption log 44). -/
def dieReleased (d : DieId) (s : State) : State :=
  if mayReleaseDie s d then
    let byCommand := s.pwr.jobs.any (fun j => j.on && maskHas j.left d)
    let s := finishDie (fun _ => true) d (releaseDie d s)
    if byCommand then
      let s := trig 9 d.val (Config.live 0x4C000 s.free) s
      { s with free := s.free + 1 }
    else s
  else s

/-- Every monitor that acts on a domain has been good for 1.0 ms; VAON for 2.0 ms. -/
def recovered (dom : Domain) (s : State) : State :=
  match dom with
  | .aon => s.modPwr (fun p => { p with aonHeld := false })
  | .core => s.modPwr (fun p => { p with coreHeld := false })
  | .host => s.modPwr (fun p => { p with hostHeld := false, hostUp := p.hostUp || awake s })
  | .link => whenAwake linkStart (s.modPwr (fun p => { p with linkHeld := false, linkUp := p.linkUp || awake s }))
  | .fld d =>
    dieReleased d (s.modPwr (fun p => { p with
      held := p.held &&& ~~~ BitVec.ofNat 8 (2 ^ d.val), supplyOk := p.supplyOk ||| BitVec.ofNat 8 (2 ^ d.val) }))

/-! ### Start-up (R338) -/

/-- Core die reset released: PLL locked, domains up, field dies powering up at 0.25 ms × n, the epoch floor, START and then
POWER; ECLIPSE_N low takes effect here (R344). -/
def release (i : StartInput) (s : State) : State :=
  let s := { s with
    phase := .starting
    resetAt := s.now
    epc := { s.epc with start := s.now }
    tb := { s.tb with accAt := s.now, acc := 0 }
    ecl := { s.ecl with pinLow := i.eclipseLow }
    clk := { s.clk with refOk := true, lock := true }
    pwr := { s.pwr with
      supplyOk := i.supplyOk
      held := s.pwr.held ||| ~~~ i.supplyOk
      on := s.pwr.fldEn
      onAt := tabulate 8 (fun n => s.now + us 250 * n)
      hostUp := !s.pwr.hostHeld
      linkUp := !s.pwr.linkHeld } }
  let s := trig 9 0xFFFF (put 28 4 3 ||| put 0 16 (fld s.aon.cause 0 16)) (startRecord s)
  if i.eclipseLow then requestEclipse 1 0 s else s

def startUp (i : StartInput) (s : State) : State := 
  if s.phase = .reset ∧ s.pwr.aonHeld = false ∧ s.pwr.coreHeld = false then release i s else s

/-! ### Clocks (R334 to R337, R340) -/

/-- TOL is 5 to 100; ZEN stays 1 in a pair. -/
def clkTest (s : State) (v : Word) : Nat :=
  if fld v 8 8 < 5 ∨ 100 < fld v 8 8 then 1 else if bit v 0 = false ∧ bit s.zl.cfg 0 = true then 3 else 0

/-- The ZCLK PLL stands as ZEN asks: locked, or stopped. -/
def zclkAsked (v : Word) (s : State) : Bool := if bit v 0 then s.clk.zlock else !bit s.clk.cfg 0 && !s.clk.zlock

/-- An admitted CLK_SET. -/
def clkStore (v : Word) (job : Option Nat) (s : State) : State :=
  let there := zclkAsked v s
  let s := s.modClk (fun c => { c with
    cfg := v &&& 0xFF01, result := 0, jobs := if there then c.jobs else c.jobs ++ job.toList })
  if there then completeJob job .ok 0 s else s

def clkSet (p : List Byte) (seq : Nat) (s : State) : State :=
  let v := wordArg p 0
  let code := clkTest s v
  if code ≠ 0 then refuse seq .conflict code (s.modClk (fun c => { c with result := code })) else clkStore v (some seq) s

/-- Pre-seal write of CLK_CFG. -/
def clkPreSeal (v : Word) (s : State) : State :=
  let code := clkTest s v
  if code ≠ 0 then hpErr 4 false 0x4D000 v (s.modClk (fun c => { c with result := code })) else clkStore v none s

/-- The ZCLK PLL locks, or stops where ZEN is 0. A lock after the first since core die reset is a relock. -/
def zclkLock (s : State) : State :=
  let run := bit s.clk.cfg 0
  let jobs := s.clk.jobs
  let s := s.modClk (fun c => { c with
    zlock := run
    zrelock := if run && !c.zlock && c.zSeen then (c.zrelock + 1) % 65536 else c.zrelock
    zSeen := c.zSeen || run
    jobs := [] })
  foldOver jobs (fun j s => complete j .ok 0 [] s) s

/-- The ZCLK PLL loses lock: the link falls to TRAIN, and the flags come in the order of their trigger classes (R312). -/
def zpllLoss (s : State) : State := flagClk (bits 3 1) (linkToTrain (s.modClk (fun c => { c with zlock := false })))

/-- CLKREF lost: the clock-fault reset. In eclipse no cell changes (R346). -/
def clkrefLoss (s : State) : State :=
  if s.phase = .eclipse ∧ entering s = false then s
  else coreReset .clock (s.modClk (fun c => { c with refOk := false, lock := false }))

def clkrefGlitch (s : State) : State := flagClk (bits 0 1) (s.modClk (fun c => { c with glitch := (c.glitch + 1) % 65536 }))

/-- A deviation, in 0.1 ppm, is beyond TOL. -/
def beyondTol (s : State) (v : Option Int) : Bool :=
  match v with
  | some d => decide (100 * fld s.clk.cfg 8 8 < d.natAbs)
  | none => false

/-- CLK_SCLK_PPM takes a deviation in 0.1 ppm, 0x8000 where the clock is absent. -/
def ppmCode (v : Option Int) : BitVec 16 :=
  match v with
  | some d => BitVec.ofNat 16 (twos 16 (satInt 16 d))
  | none => 0x8000

/-- PCIE_REFCLK stops. -/
def refclkLoss (s : State) : State :=
  flagClk (bits 4 1) (s.modClk (fun c => { c with hclkOk := false, vsHclk := 0x8000 }))

/-- The comparison of SCLK each millisecond, with the slew removed, against the clocks that are present; one that was
present and is not is lost (R305, R334). -/
def freqCheck (vsHclk vsTb : Option Int) (s : State) : State :=
  let s := if s.clk.hclkOk && vsHclk.isNone then refclkLoss s else s
  let s := if s.tb.refOk && vsTb.isNone then tenMhzLoss s else s
  let s := { s with
    clk := { s.clk with vsHclk := ppmCode vsHclk, vsTb := ppmCode vsTb, hclkOk := vsHclk.isSome }
    tb := { s.tb with refOk := vsTb.isSome } }
  flagClk (put 1 1 (b2n (beyondTol s vsHclk)) ||| put 2 1 (b2n (beyondTol s vsTb))) s

/-- No boundary for 1.0 ms, of a core die that is out of reset. -/
def watchdog (s : State) : State :=
  if s.phase ≠ .reset ∧ s.epc.start + ms 1 ≤ s.now then coreReset .wdog s else s

/-- PWR_STATUS; its live measurements draw a fresh free value. -/
def pwrStatus (seq : Nat) (s : State) : State :=
  let words := pwrStatusWords s
  complete seq .ok 0 (leWords words) { s with free := s.free + 1 }

/-! ### Meanings -/

def execPwrFld (t : Nat) (c : Cmd) (s : State) : Host.Outcome State Fault Refusal :=
  .next (command 0x02B0 true 4 0 c (fun seq => pwrFld c.payload seq) (s.advance t))

def execPwrStatus (t : Nat) (c : Cmd) (s : State) : Host.Outcome State Fault Refusal :=
  .next (command 0x02B1 false 0 32 c pwrStatus (s.advance t))

def execClkSet (t : Nat) (c : Cmd) (s : State) : Host.Outcome State Fault Refusal :=
  .next (command 0x02C0 true 4 0 c (fun seq => clkSet c.payload seq) (s.advance t))

def execSupplyMonitorTrip (t : Nat) (m : Monitor) (s : State) : Host.Outcome State Fault Refusal :=
  .next (monitorTrip m (s.advance t))

def execSupplyRecovery (t : Nat) (dom : Domain) (s : State) : Host.Outcome State Fault Refusal :=
  .next (recovered dom (s.advance t))

def execAonPowerOnReset (t : Nat) (s : State) : Host.Outcome State Fault Refusal := .next (aonReset (s.advance t))

def execCoreDieReset (t : Nat) (cause : ResetCause) (s : State) : Host.Outcome State Fault Refusal :=
  .next (coreReset cause (s.advance t))

def execStartUp (t : Nat) (i : StartInput) (s : State) : Host.Outcome State Fault Refusal := .next (startUp i (s.advance t))

def execFldPowerDownDone (t : Nat) (d : DieId) (s : State) : Host.Outcome State Fault Refusal :=
  .next (whenAwake (powerDownDone d) (s.advance t))

def execFldResetRelease (t : Nat) (d : DieId) (s : State) : Host.Outcome State Fault Refusal :=
  .next (dieReleased d (s.advance t))

def execClkrefLoss (t : Nat) (s : State) : Host.Outcome State Fault Refusal := .next (clkrefLoss (s.advance t))

def execClkrefGlitch (t : Nat) (s : State) : Host.Outcome State Fault Refusal :=
  .next (whenAwake clkrefGlitch (s.advance t))

def execSclkFrequencyCheck (t : Nat) (vsHclk vsTb : Option Int) (s : State) : Host.Outcome State Fault Refusal :=
  .next (whenAwake (freqCheck vsHclk vsTb) (s.advance t))

def execZpllLoss (t : Nat) (s : State) : Host.Outcome State Fault Refusal := .next (whenAwake zpllLoss (s.advance t))

def execZclkPllLock (t : Nat) (s : State) : Host.Outcome State Fault Refusal := .next (whenAwake zclkLock (s.advance t))

def execPcieRefclkLoss (t : Nat) (s : State) : Host.Outcome State Fault Refusal :=
  .next (whenAwake refclkLoss (s.advance t))

def execEpochWatchdog (t : Nat) (s : State) : Host.Outcome State Fault Refusal := .next (watchdog (s.advance t))

end Sys2Proof.Machine
end

