-- ==== Sys2Proof/Machine/HostPort.lean ====
section
/-! DEFINITION. The host port (R258 to R284): sealing, register writes, orbits and doorbells, the host-port commands, stream
flushes, DMA errors, and the resets of the endpoint. -/
namespace Sys2Proof.Machine

def State.modHp (s : State) (f : Hp → Hp) : State := { s with hp := f s.hp }

/-! ### Sealing and the HP_ block (R264, R283) -/

/-- A write to HP_SEAL. The whole word is compared: 0x5EA1_0001 with ones in the reserved bits [15:1] does not seal and
counts cause 7 (assumption log 79). -/
def sealWrite (v : Word) (s : State) : State :=
  if v = 0x5EA10001 then s.modHp (fun p => { p with isSealed := true }) else hpErr 7 false 0x20 v s

/-- A write to HP_CTRL. -/
def errClr (v : Word) (s : State) : State :=
  if bit v 0 then s.modHp (fun p => { p with errCount := 0, errLog := 0 }) else s

def hpWriteReg (off : Nat) (v : Word) (s : State) : State :=
  if off = 0x20 then sealWrite v s
  else if off = 0x30 then errClr v s
  else if off = 0x34 then s.modHp (fun p => { p with diagCfg := v &&& 7 })
  else s

/-! ### Orbit configuration (R266) -/

/-- Address of an orbit's register. -/
def orbOff (k : Fin 16) (o : Nat) : Nat := 0x1000 + 0x40 * k.val + o

/-- A write to ORB_CFG: 4 for a size out of range, 6 for a change that EN forbids. -/
def orbCfgTest (s : State) (k : Fin 16) (v : Word) : Nat :=
  let o := s.orbit k
  if fld v 0 5 < 6 ∨ 16 < fld v 0 5 then 4
  else if o.en = true ∧ fld v 0 5 ≠ fld o.cfg 0 5 then 6
  else if o.en = true ∧ bit v 8 = false ∧ mayDisable s k = false then 6
  else 0

/-- Setting EN from 0 to 1 sets both indices to zero and clears HALT; an orbit that is disabled keeps no buffer and no
descriptor. -/
def orbCfgStore (v : Word) (o : Orbit) : Orbit :=
  let c := v &&& 0xFF01011F
  if bit v 8 && !o.en then
    { o with cfg := c, clrRefused := false, hostIdx := 0, devIdx := 0, halt := false, posted := [], waiting := none }
  else if bit v 8 then { o with cfg := c, clrRefused := false }
  else { o with cfg := c, clrRefused := false, posted := [], waiting := none }

/-- A write to ORB_CFG; a refused clear of EN on a completion orbit shows in BUSY. -/
def orbCfgWrite (k : Fin 16) (v : Word) (s : State) : State :=
  let code := orbCfgTest s k v
  if code = 0 then s.modOrbit k (orbCfgStore v)
  else
    let refused := (s.orbit k).en && !bit v 8 && !mayDisable s k
    hpErr code false (orbOff k 0x10) v (if refused then s.modOrbit k (fun o => { o with clrRefused := true }) else s)

/-- ORB_BASE and ORB_SHADOW with one half replaced. -/
def orbAddr (o : Nat) (v : Word) (b : Orbit) : Orbit :=
  let lo (a : BitVec 64) (w : Word) : BitVec 64 := BitVec.ofNat 64 (a.toNat / 2 ^ 32 * 2 ^ 32 + w.toNat)
  let hi (a : BitVec 64) (w : Word) : BitVec 64 := BitVec.ofNat 64 (w.toNat * 2 ^ 32 + a.toNat % 2 ^ 32)
  if o = 0x00 then { b with base := lo b.base (v &&& 0xFFFFF000) }
  else if o = 0x04 then { b with base := hi b.base v }
  else if o = 0x08 then { b with shadow := lo b.shadow (v &&& 0xFFFFFFF8) }
  else { b with shadow := hi b.shadow v }

def orbWriteReg (k : Fin 16) (o : Nat) (v : Word) (s : State) : State :=
  if o < 0x10 then
    if (s.orbit k).en && decide (orbAddr o v (s.orbit k) ≠ s.orbit k) then hpErr 6 false (orbOff k o) v s
    else if (s.orbit k).en then s else s.modOrbit k (orbAddr o v)
  else if o = 0x10 then orbCfgWrite k v s
  else if o = 0x20 then s.modOrbit k (fun b => { b with fault := w1c b.fault v 0x1F })
  else s

/-! ### Doorbells and stream buffers (R267, R276) -/

/-- Bytes of one record of a stream orbit (R265). -/
def recordSize (k : Fin 16) : Nat := if k.val = 12 ∨ k.val = 13 then 128 else 64

/-- Descriptors shorter than one record are handed back at once, with SKIPPED. -/
def skipShort (k : Fin 16) : List Buf → State → State
  | [], s => s
  | b :: rest, s => if b.len < recordSize k then skipShort k rest (handBack k { b with used := 0, first := none } 5 s) else s

/-- Where the device may write and the orbit runs. -/
def skipNow (k : Fin 16) (s : State) : State :=
  if (s.orbit k).en && !(s.orbit k).halt && canMaster s then skipShort k (s.orbit k).posted s else s

/-- The flags that a doorbell value earns: DB_RANGE where more than the size would lie between the indices, DB_BACK where
the host's index would move back. -/
def doorbellFlags (k : Fin 16) (o : Orbit) (v : Word) : Word :=
  let gap := if 4 ≤ k.val ∧ k.val < 8 then o.devIdx - v else v - o.devIdx
  put 0 1 (b2n (decide (o.size < gap.toNat))) ||| put 1 1 (b2n (decide (o.size < (v - o.hostIdx).toNat)))

/-- The buffers of the descriptors that an accepted value covers; one not given has LEN 0. -/
def newBufs (n : Nat) (descs : List StreamDesc) : List Buf :=
  (List.range n).map (fun i =>
    match descs[i]? with
    | some d => { addr := d.addr, len := d.len.toNat, used := 0, first := none }
    | none => { addr := 0, len := 0, used := 0, first := none })

/-- An accepted doorbell value; a stream orbit gains the buffers it covers. -/
def takeDoorbell (k : Fin 16) (v : Word) (descs : List StreamDesc) (s : State) : State :=
  let o := s.orbit k
  let s := s.modOrbit k (fun o => { o with hostIdx := v, lastDb := v })
  if k.val < 8 ∨ o.halt = true then s
  else skipNow k (s.modOrbit k (fun b => { b with posted := b.posted ++ newBufs (v - o.hostIdx).toNat descs }))

/-- A doorbell write (R267). -/
def doorbell (k : Fin 16) (v : Word) (be : BitVec 4) (descs : List StreamDesc) (s : State) : State :=
  let o := s.orbit k
  let off := k.val * 0x800
  if !allEnables be then hpErr 5 true off v s
  else if !o.en then hpErr 5 true off v (orbFault k (bits 4 1) s)
  else if doorbellFlags k o v = 0 then takeDoorbell k v descs s
  else hpErr 5 true off v (orbFault k (doorbellFlags k o v) s)

/-- The oldest buffer is handed back at the boundary that ends the epoch FLUSH epochs after that of its first record. -/
def flushStream (k : Fin 16) (s : State) : State :=
  let o := s.orbit k
  match o.posted with
  | [] => s
  | b :: _ =>
    match b.first with
    | none => s
    | some e =>
      if o.en && !o.halt && canMaster s && decide (e + fld o.cfg 24 8 < s.epc.seq) then skipNow k (handBack k b 3 s) else s

/-! ### Register writes (R4, R5, R9, R262) -/

def irqWriteReg (off : Nat) (v : Word) (s : State) : State :=
  let k (base : Nat) : Fin 16 := Fin.ofNat 16 ((off - base) / 4)
  if off = 0x10000 then s.modIrq (fun q => { q with cfg := v &&& 0xFF })
  else if off = 0x10008 then eoi v s
  else if (inArray off 0x10040 16).isSome then stormClear (k 0x10040) v s
  else if (inArray off 0x10100 16).isSome then pendDiscard (k 0x10100) v s
  else if (inArray off 0x10200 16).isSome then maskWrite (k 0x10200) v s
  else if (inArray off 0x10280 16).isSome then maskSet (k 0x10280) v s
  else if (inArray off 0x10300 16).isSome then maskClr (k 0x10300) v s
  else if (inArray off 0x10800 512).isSome then
    s.modIrq (fun q => { q with target := tset q.target (Fin.ofNat 512 ((off - 0x10800) / 4)) (Fin.ofNat 512 (fld v 0 9)) })
  else if off = 0x11400 then hdrain v s
  else s

/-- The W1C registers of the device blocks, and the WO registers and REC_CURSOR that act before and after sealing; none for
any other offset. -/
def devAct (off : Nat) (v : Word) (s : State) : Option State :=
  if off = 0x47024 then some { s with epc := { s.epc with fault := w1c s.epc.fault v 0x1F } }
  else if off = 0x47028 then some { s with epc := { s.epc with fdLate := w1c s.epc.fdLate v 0xFF } }
  else if off = 0x4702C then some (epcCtrl v s)
  else if off = 0x48004 then some (armCrcFail v s)
  else if off = 0x48040 then
    let s := endReads s
    some { s with vsp := { s.vsp with fault := w1c s.vsp.fault v 0x777777 } }
  else if off = 0x4902C then some { s with zl := { s.zl with fault := w1c s.zl.fault v 0x1FFF } }
  else if off = 0x49030 then some (pdbWrite v s)
  else if off = 0x4A02C then some { s with tb := { s.tb with fault := w1c s.tb.fault v 0x3F } }
  else if off = 0x4B074 then some (s.modRec (fun r => { r with fault := w1c r.fault v 0xF }))
  else if off = 0x4B078 then some (recMark v s)
  else if off = 0x4B07C then some (recCursor v s)
  else if off = 0x4C018 then some (s.modPwr (fun p => { p with fault := w1c p.fault v 0x3F }))
  else if off = 0x4C01C then some (s.modPwr (fun p => { p with dieFault := w1c p.dieFault v 0xFF }))
  else if off = 0x4C020 then some { s with aon := { s.aon with cause := w1c s.aon.cause v 0x3F } }
  else if off = 0x4D00C then some (s.modClk (fun c => { c with fault := w1c c.fault v 0x1F }))
  else none

/-- The fault register of a head at an offset. -/
def headFaultAt (o : Nat) : Option HeadReg :=
  if o = 0x084 then some .fe
  else if o = 0x138 then some .xs
  else if o = 0x254 then some .flt
  else if o = 0x31C then some .cmp
  else if o = 0x444 then some .trn
  else none

/-- Pre-seal stores of the FE_ registers that only a later route request or check uses (R65). -/
def feStore (o : Nat) (v : Word) (b : FeHead) : FeHead :=
  if o = 0x00 then { b with headCfg := v &&& 0xFF03 }
  else if o = 0x04 then { b with gain := v &&& 0x77 }
  else if 0x20 ≤ o ∧ o < 0x58 then { b with xp := tset b.xp (Fin.ofNat 14 ((o - 0x20) / 4)) (BitVec.ofNat 8 (fld v 0 8) &&& 0x37) }
  else if o = 0x60 then { b with impCfg := v &&& 0x3FFFFFFF }
  else if o = 0x64 then { b with impTol := impTolOf (fld v 0 6) (fld v 8 6) (fld v 16 6) }
  else if o = 0x68 then { b with impRef := b.impRef.set .sys1 (v &&& 0x81FFFFFF) }
  else if o = 0x6C then { b with impRef := b.impRef.set .sys2 (v &&& 0x81FFFFFF) }
  else if o = 0x70 then { b with kref := v }
  else b

/-- Pre-seal writes of the FE_ block of a head: a tone outside 2 to 12 kHz is refused; new thresholds are evaluated at
once (R53, R64). -/
def fePreSeal (h : HeadId) (o : Nat) (v : Word) (s : State) : State :=
  if o = 0x10 then
    let was := decide (leakWarnOf (s.head h).fe.bias ≤ (s.head h).fe.leak)
    leakEval h was (s.modFe h (fun b => { b with bias := v }))
  else if o = 0x60 ∧ (fld v 16 14 < 2000 ∨ 12000 < fld v 16 14) then
    hpErr 4 false (headOff h o) v (s.modFe h (fun b => { b with result := 6 }))
  else s.modFe h (feStore o v)

/-- A pre-seal write to an RW register of a head block (R332 for a die that is off). -/
def headPreSeal (h : HeadId) (o : Nat) (v : Word) (s : State) : State :=
  if isPlanField o then xsPreSeal h o v s
  else if o < 0x100 then fePreSeal h o v s
  else if o < 0x200 then s
  else if o < 0x300 then fltPreSeal h o v s
  else if o < 0x400 then cmpPreSeal h o v s
  else trnPreSeal h o v s

/-- A pre-seal write to an RW register of a device block, handled as its block's command. -/
def devPreSeal (off : Nat) (v : Word) (s : State) : State :=
  if off < 0x42000 then xsDevPreSeal off v s
  else if off = 0x46000 then secAuthWrite v s
  else if off = 0x4700C then { s with epc := { s.epc with cfg := v &&& 0xFFFF } }
  else if off = 0x48000 then vspPreSeal v s
  else if off = 0x49000 then zlPreSeal v s
  else if off = 0x4A010 ∨ off = 0x4A014 then tbPreSeal off v s
  else if 0x4B000 ≤ off ∧ off < 0x4B010 then recPreSeal off v s
  else if off = 0x4C000 then fldPreSeal v s
  else if off = 0x4D000 then clkPreSeal v s
  else if off = 0x4E000 then eclPreSeal v s
  else s

/-- A write after sealing keeps every RW field, and counts where it would have changed one (R9). -/
def sealedWrite (off : Nat) (v : Word) (r : RegView) (s : State) : State :=
  if (v ^^^ r.val) &&& r.rw = 0 then s else hpErr 2 false off v s

/-- A write to a register of a head block. -/
def headWrite (h : HeadId) (o : Nat) (v : Word) (r : RegView) (s : State) : State :=
  if o = 0x08 then routeCtrlWrite h v s
  else if !s.hp.isSealed && !headUp s h && !isPlanField o then hpErr 4 false (headOff h o) v s
  else
    match headFaultAt o with
    | some f => s.modHead h (fun x => setHeadFault f (w1c (headFault f x) v 0xFFF) x)
    | none =>
      if s.hp.isSealed then sealedWrite (headOff h o) v r s
      else if r.rw = 0 then s else headPreSeal h o v s

/-- A write to a register of a section block. -/
def secWrite (n : SecId) (o : Nat) (v : Word) (r : RegView) (s : State) : State :=
  if o = 0x5C then s.modSec n (fun x => { x with core := { x.core with fault := w1c x.core.fault v 0x7FF } })
  else if s.hp.isSealed then sealedWrite (0x200000 + n.val * 0x400 + o) v r s
  else if r.rw = 0 then s else secPreSeal n o v s

/-- A write to a register of a device block from 0x0004_0000. -/
def devWrite (off : Nat) (v : Word) (r : RegView) (s : State) : State :=
  match devAct off v s with
  | some s' => s'
  | none =>
    if s.hp.isSealed then sealedWrite off v r s
    else if r.rw = 0 then s else devPreSeal off v s

/-- A single-doubleword write with all byte enables to BAR0. -/
def writeReg (off : Nat) (v : Word) (s : State) : State :=
  match regView s off with
  | none => hpErr 3 false off v s
  | some r =>
    if off < 0x1000 then hpWriteReg off v s
    else if off < 0x1400 then orbWriteReg (Fin.ofNat 16 ((off - 0x1000) / 0x40)) (off % 0x40) v s
    else if off < 0x20000 then irqWriteReg off v s
    else if off < 0x100000 then devWrite off v r s
    else if off < 0x200000 then headWrite (Fin.ofNat 256 ((off - 0x100000) / 0x1000)) (off % 0x1000) v r s
    else secWrite (Fin.ofNat 256 ((off - 0x200000) / 0x400)) (off % 0x400) v r s

/-- A write to BAR2: the doorbells of the orbits, and the software sources (R289). -/
def writeBar2 (off : Nat) (v : Word) (be : BitVec 4) (s : State) : State :=
  if off = 0x8000 then irqDoorbell v be s
  else if off < 0x8000 ∧ off % 0x800 = 0 then doorbell (Fin.ofNat 16 (off / 0x800)) v be [] s
  else hpErr 3 true off v s

/-- A write to one doubleword of the MSI-X table, which can clear an entry's mask; the pending-bit array is read-only
(R260, R293). -/
def writeBar4 (off : Nat) (v : Word) (s : State) : State :=
  if off < 0x2000 then
    let n : SrcId := Fin.ofNat 512 (off / 16)
    let e := tget s.irq.table n
    let hi := BitVec.ofNat 32 (e.addr.toNat / 2 ^ 32)
    msixWrite (if off % 16 = 0 then .entry n (hi ++ (v &&& 0xFFFFFFFC)) e.data e.masked
      else if off % 16 = 4 then .entry n (v ++ BitVec.ofNat 32 e.addr.toNat) e.data e.masked
      else if off % 16 = 8 then .entry n e.addr v e.masked
      else .entry n e.addr e.data (bit v 0)) s
  else s

/-- A write of the host (R262): of more than one doubleword, then byte enables, then the map. -/
def busWrite (bar : Bar) (off : Nat) (v : Word) (be : BitVec 4) (dwords : Nat) (s : State) : State :=
  match bar with
  | .bar0 =>
    if 1 < dwords then hpErr 3 false off v s
    else if !allEnables be then hpErr 1 false off v s
    else writeReg off v s
  | .bar2 => if 1 < dwords then hpErr 3 true off v s else writeBar2 off v be s
  | .bar4 => if 1 < dwords || !allEnables be then s else writeBar4 off v s

/-! ### The host-port commands (R275) -/

def hpSeal (seq : Nat) (s : State) : State :=
  if s.hp.isSealed then complete seq .sealed 0 [] s
  else complete seq .ok 0 [] (s.modHp (fun p => { p with isSealed := true }))

/-- The result code of the block at an offset; 0 where it has no RESULT field. -/
def resultAt (off : Nat) (s : State) : Nat :=
  if 0x41000 ≤ off ∧ off < 0x42000 then fld s.dev.planStat 0 4
  else if 0x4A000 ≤ off ∧ off < 0x4B000 then s.tb.result
  else if 0x4C000 ≤ off ∧ off < 0x4D000 then s.pwr.result
  else if 0x4D000 ≤ off ∧ off < 0x4E000 then s.clk.result
  else if 0x100000 ≤ off ∧ off < 0x200000 then
    let h : HeadId := Fin.ofNat 256 ((off - 0x100000) / 0x1000)
    let o := off % 0x1000
    let x := s.head h
    if !headUp s h && !isPlanField o then (if o < 0x100 then 6 else 1)
    else if o < 0x100 then x.fe.result
    else if o < 0x200 then x.xs.planResult
    else if o < 0x300 then x.flt.result
    else if o < 0x400 then x.cmp.result
    else x.trn.result
  else if 0x200000 ≤ off then (s.sec (Fin.ofNat 256 ((off - 0x200000) / 0x400))).statRes
  else 0

/-- HP_WRITE: its refusal is not counted but completed. -/
def hpWrite (p : List Byte) (seq : Nat) (s : State) : State :=
  let off := field p 0 4
  if s.hp.isSealed then complete seq .sealed 0 [] s
  else if (regView s off).isNone then complete seq .conflict 0xF4 [] s
  else
    let s := writeReg off (wordArg p 4) (s.modHp (fun h => { h with muted := some 0 }))
    let bad := s.hp.muted != some 0
    let s := s.modHp (fun h => { h with muted := none })
    if bad then complete seq .conflict (resultAt off s) [] s else complete seq .ok 0 [] s

/-- HP_IDENT, which captures EPC_SEQ_HI. -/
def hpIdent (seq : Nat) (s : State) : State :=
  let s := { s with epc := { s.epc with seqHi := s.epc.seq / 2 ^ 32 % 65536 } }
  complete seq .ok 0 (leWords ([0x00, 0x04, 0x08, 0x0C, 0x10, 0x20, 0x47000, 0x47004].map (readReg s))) s

/-- A descriptor whose opcode is not in the table: nothing is read beyond it (R274). -/
def badOpcode (opcode : BitVec 16) (c : Cmd) (s : State) : State :=
  if admissible opcode c s then
    let seq := s.hp.admSeq
    complete seq .badOpcode 0 [] (admitCmd opcode false c s)
  else holdBack opcode c s

/-! ### DMA errors (R279) -/

def logAer (s : State) : State := s.modHp (fun p => { p with aerLogged := p.aerLogged + 1 })

/-- A read of a descriptor fails: the orbit halts. A completion orbit has no descriptor that the device reads. -/
def descriptorError (k : Fin 16) (s : State) : State :=
  let o := s.orbit k
  let reads := if k.val < 4 then orbitReady (Fin.ofNat 4 k.val) s && o.waiting.isNone else decide (8 ≤ k.val) && o.en && !o.halt && canMaster s
  if reads then
    let s := s.modOrbit k (fun o => { o with halt := true })
    hpErr 8 false 0 0 (orbFault k (bits 2 1) (logAer s))
  else s

/-- A read of a payload fails: the command completes BAD_LENGTH and changes nothing. -/
def payloadError (opcode : BitVec 16) (c : Cmd) (s : State) : State :=
  if admissible opcode c s then
    let seq := s.hp.admSeq
    complete seq .badLength 0xF1 [] (hpErr 8 false 0 0 (logAer (admitCmd opcode false c s)))
  else holdBack opcode c s

def dmaError (r : DmaRead) (s : State) : State :=
  match r with
  | .descriptor k => descriptorError k s
  | .payload opcode c => payloadError opcode c s

/-! ### Resets and power states of the function (R280, R281) -/

/-- Function-level reset: HP_FLR counts it, and LOST starts anew. -/
def functionReset (s : State) : State :=
  (endpointReset s).modHp (fun p => { p with flrCount := (p.flrCount + 1) % 65536, flrLost := 0 })

/-- D3hot to D0, which counts as well; LOST goes on from the entry into D3hot. -/
def leaveD3 (s : State) : State :=
  if s.hp.d3hot then (endpointReset s).modHp (fun p => { p with flrCount := (p.flrCount + 1) % 65536 }) else s

/-- D0 to D3hot: completions of commands in progress will be lost. -/
def enterD3 (s : State) : State :=
  if s.hp.d3hot then s
  else s.modHp (fun p => { p with d3hot := true, flrLost := 0, inflight := loseInflight p.inflight })

/-- Bus Master Enable. -/
def setBme (on : Bool) (s : State) : State := releaseHeld (s.modHp (fun p => { p with bme := on }))

/-! ### Meanings -/

def execHpNop (t : Nat) (c : Cmd) (s : State) : Host.Outcome State Fault Refusal :=
  .next (command 0x0001 false 0 0 c (fun seq => done seq) (s.advance t))

def execHpSeal (t : Nat) (c : Cmd) (s : State) : Host.Outcome State Fault Refusal :=
  .next (command 0x0002 false 0 0 c hpSeal (s.advance t))

def execHpWrite (t : Nat) (c : Cmd) (s : State) : Host.Outcome State Fault Refusal :=
  .next (command 0x0003 false 8 0 c (fun seq => hpWrite c.payload seq) (s.advance t))

def execHpIdent (t : Nat) (c : Cmd) (s : State) : Host.Outcome State Fault Refusal :=
  .next (command 0x0004 false 0 32 c hpIdent (s.advance t))

def execCommandBadOpcode (t : Nat) (opcode : BitVec 16) (c : Cmd) (s : State) : Host.Outcome State Fault Refusal :=
  .next (badOpcode opcode c (s.advance t))

def execHpSealWrite (t : Nat) (v : Word) (be : BitVec 4) (s : State) : Host.Outcome State Fault Refusal :=
  .next (whenHost (enabled be 0x20 v (sealWrite v)) (s.advance t))

def execHpCtrlErrClr (t : Nat) (v : Word) (be : BitVec 4) (s : State) : Host.Outcome State Fault Refusal :=
  .next (whenHost (enabled be 0x30 v (errClr v)) (s.advance t))

def execOrbDoorbell (t : Nat) (k : Fin 16) (v : Word) (be : BitVec 4) (descs : List StreamDesc) (s : State) :
    Host.Outcome State Fault Refusal :=
  .next (whenHost (doorbell k v be descs) (s.advance t))

def execOrbCfgWrite (t : Nat) (k : Fin 16) (v : Word) (be : BitVec 4) (s : State) : Host.Outcome State Fault Refusal :=
  .next (whenHost (enabled be (orbOff k 0x10) v (orbCfgWrite k v)) (s.advance t))

def execRegisterWrite (t : Nat) (bar : Bar) (off : Nat) (v : Word) (be : BitVec 4) (dwords : Nat) (s : State) :
    Host.Outcome State Fault Refusal :=
  .next (whenHost (busWrite bar off v be dwords) (s.advance t))

def execFunctionLevelReset (t : Nat) (s : State) : Host.Outcome State Fault Refusal :=
  .next (whenHostUp functionReset (s.advance t))

def execD3hotToD0 (t : Nat) (s : State) : Host.Outcome State Fault Refusal := .next (whenHostUp leaveD3 (s.advance t))

def execConventionalReset (t : Nat) (s : State) : Host.Outcome State Fault Refusal :=
  .next (whenAwake endpointReset (s.advance t))

def execDmaReadError (t : Nat) (r : DmaRead) (s : State) : Host.Outcome State Fault Refusal :=
  .next (whenAwake (dmaError r) (s.advance t))

def execPoisonedWrite (t : Nat) (s : State) : Host.Outcome State Fault Refusal := .next (whenHost logAer (s.advance t))

def execStreamFlush (t : Nat) (k : Fin 16) (s : State) : Host.Outcome State Fault Refusal :=
  .next (whenRunning (flushStream k) (s.advance t))

def execD0ToD3hot (t : Nat) (s : State) : Host.Outcome State Fault Refusal := .next (whenHostUp enterD3 (s.advance t))

def execBusMasterEnableChange (t : Nat) (on : Bool) (s : State) : Host.Outcome State Fault Refusal :=
  .next (whenHostUp (setBme on) (s.advance t))

end Sys2Proof.Machine
end

