-- ==== Sys2Proof/Machine/HostRead.lean ====
section
/-! DEFINITION. What the host reads: BAR0 with the captures of R211, R302 and R324, the doorbells, the MSI-X table and the
pending-bit array, and the fields of the configuration space that the manual gives (R4, R258 to R260, R262, R298). -/
namespace Sys2Proof.Machine

/-! ### Words of the BARs (R260, R262) -/

/-- A doubleword of BAR2: the last value accepted at a doorbell, zero where no doorbell lies (R262, R289). -/
def bar2Word (s : State) (off : Nat) : Word :=
  if off = 0x8000 then s.irq.lastDb
  else if off < 0x8000 ∧ off % 0x800 = 0 then (s.orbit (Fin.ofNat 16 (off / 0x800))).lastDb
  else 0

/-- A doubleword of an MSI-X table entry: address, data, mask. -/
def msixWord (e : MsixEntry) (k : Nat) : Word :=
  if k = 0 then word e.addr.toNat
  else if k = 1 then word (e.addr.toNat / 2 ^ 32)
  else if k = 2 then e.data
  else put 0 1 (b2n e.masked)

/-- A doubleword of BAR4: the MSI-X table from 0x0000, the pending-bit array from 0x2000. -/
def bar4Word (s : State) (off : Nat) : Word :=
  if off < 0x2000 then msixWord (tget s.irq.table (Fin.ofNat 512 (off / 16))) (off / 4 % 4)
  else if off < 0x2040 then mapWord s.irq.pba (Fin.ofNat 16 ((off - 0x2000) / 4))
  else 0

def barWord (bar : Bar) (s : State) (off : Nat) : Word :=
  match bar with
  | .bar0 => readReg s off
  | .bar2 => bar2Word s off
  | .bar4 => bar4Word s off

/-! ### A read request (R4, R262) -/

/-- A read of 1 to 16 doublewords that stays within one 4 KiB page is completed; any other is an Unsupported Request. -/
def readOk (r : BusRead) : Bool :=
  decide (1 ≤ r.dwords ∧ r.dwords ≤ 16 ∧ r.off / 4096 = (r.off + 4 * r.dwords - 1) / 4096)

/-- The byte enables of doubleword k of a request: the first's, the last's, and all of those between. -/
def readEnables (r : BusRead) (k : Nat) : BitVec 4 :=
  if k = 0 then r.firstBe else if k + 1 = r.dwords then r.lastBe else 0xF

/-- The bytes of a doubleword that its enables select. -/
def enabledBytes (be : BitVec 4) (v : Word) : List Byte :=
  ((leWord v).zipIdx.filter (fun b => be.getLsbD b.2)).map (·.1)

/-- The bytes that reach the host; none for Unsupported Request. -/
def readAnswer (bar : Bar) (r : BusRead) (s : State) : Option (List Byte) :=
  if readOk r then
    some ((List.range r.dwords).flatMap (fun k => enabledBytes (readEnables r k) (barWord bar s (r.off + 4 * k))))
  else none

/-- The request includes the doubleword at an offset. -/
def readIncludes (r : BusRead) (off : Nat) : Bool := decide (r.off ≤ off ∧ off < r.off + 4 * r.dwords)

/-- What a read of BAR0 captures: only the registers whose own doubleword it includes (R262). -/
def readCaptures (r : BusRead) (s : State) : State :=
  let s := if readIncludes r 0x47000 then readSeq s else s
  let s := if readIncludes r 0x4A000 then readTbNow s else s
  if readIncludes r 0x4A008 then readTbEpoch s else s

/-- A read of BAR0: captures first, so that a request sees what it captured. -/
def busRead (r : BusRead) (s : State) : State :=
  let s := if readOk r then readCaptures r s else s
  s.modHp (fun p => { p with readData := readAnswer .bar0 r s })

/-! ### Configuration space (R258, R259, R260, R298)

The fields that the manual gives; their places are the PCI Express Base Specification's. -/

/-- A field of the configuration space. -/
inductive ConfigField
  | vendorId | deviceId | revisionId | classCode | headerType | subsystemVendorId | subsystemId | interruptPin
  | busMasterEnable | bar0Size | bar2Size | bar4Size | barBits | barPrefetchable
  | maxLinkSpeed | maxLinkWidth | aspmSupport | l1ExitLatency | l11Supported | l12Supported | linkState
  | powerState | noSoftReset | functionLevelReset | maxPayloadSupported | maxPayload | maxReadRequest
  | extendedTag | tag10Bit | timeoutRanges | timeoutDefault | relaxedOrdering | noSnoop | ecrc
  | msixTableSize | msixTableBar | msixTableOffset | msixPbaBar | msixPbaOffset | msixEnable | msixFunctionMask
  | serialNumber
deriving DecidableEq, Repr

/-- The link state as a number: 0 for L0, 1 for L1, 2 for L1.1. -/
def linkCode : LinkPm → Nat
  | .l0 => 0
  | .l1 => 1
  | .l1_1 => 2

/-- Subsystem Vendor ID and Subsystem ID, as programmed or as they read while unprogrammed (R259). -/
def subsystem (s : State) : BitVec 16 × BitVec 16 := s.subsys.getD (0x1F3A, 0x0000)

/-- What a field reads. Sizes are in bytes; ASPM support and the completion timeout are coded as in the PCI Express Base
Specification. -/
def configField (s : State) : ConfigField → Nat
  | .vendorId => 0x1F3A
  | .deviceId => 0x2560
  | .revisionId => 0x10
  | .classCode => 0x118000
  | .headerType => 0
  | .subsystemVendorId => (subsystem s).1.toNat
  | .subsystemId => (subsystem s).2.toNat
  | .interruptPin => 0
  | .busMasterEnable => b2n s.hp.bme
  | .bar0Size => 0x800000
  | .bar2Size => 0x10000
  | .bar4Size => 0x4000
  | .barBits => 64
  | .barPrefetchable => 0
  | .maxLinkSpeed => 3
  | .maxLinkWidth => 4
  | .aspmSupport => 2
  | .l1ExitLatency => 4
  | .l11Supported => 1
  | .l12Supported => 0
  | .linkState => linkCode s.hp.linkPm
  | .powerState => if s.hp.d3hot then 3 else 0
  | .noSoftReset => 0
  | .functionLevelReset => 1
  | .maxPayloadSupported => 512
  | .maxPayload => s.hp.maxPayload
  | .maxReadRequest => s.hp.maxRead
  | .extendedTag => 1
  | .tag10Bit => 0
  | .timeoutRanges => 3
  | .timeoutDefault => 0
  | .relaxedOrdering => 0
  | .noSnoop => 0
  | .ecrc => 0
  | .msixTableSize => 512
  | .msixTableBar => 4
  | .msixTableOffset => 0x0000
  | .msixPbaBar => 4
  | .msixPbaOffset => 0x2000
  | .msixEnable => b2n s.hp.msixEn
  | .msixFunctionMask => b2n s.hp.funcMask
  | .serialNumber => Config.serial.toNat

/-! ### Meanings -/

def execEpcSeqLoRead (t : Nat) (r : BusRead) (s : State) : Host.Outcome State Fault Refusal :=
  .next (whenHost (busRead r) (s.advance t))

def execTbNowLoRead (t : Nat) (r : BusRead) (s : State) : Host.Outcome State Fault Refusal :=
  .next (whenHost (busRead r) (s.advance t))

def execTbEpochLoRead (t : Nat) (r : BusRead) (s : State) : Host.Outcome State Fault Refusal :=
  .next (whenHost (busRead r) (s.advance t))

end Sys2Proof.Machine
end

