-- ==== Sys2Proof/Machine/Tap.lean ====
section
/-! DEFINITION. The TAP and the state read-out (R348 to R351): the boundary-scan chain, the cells that a hierarchy path
names, and the TAP instructions. The manual names the cells of most stages and gives them no places; the places here
are the model's (assumption log 85). -/
namespace Sys2Proof.Machine

/-! ### The boundary-scan chain (R349) -/

/-- The pins of the chain; the order in which they shift is in Woficon's BSDL file. -/
def scanPins : List ScanPin :=
  [.vspClk .a, .vspClk .b, .vspClk .c, .vspSync .a, .vspSync .b, .vspSync .c, .vspD .a, .vspD .b, .vspD .c, .role1, .role0,
   .deposeN, .holdOut, .holdIn, .tbPps, .tb10m, .porstN, .perstN, .eclipseN, .trstN]

/-- The level of VSP_D_x; with the LINK domain down the pin floats, and its level is a FREE VALUE. -/
def laneLevel (s : State) (l : Lane) : Bool :=
  match padLevel s l, (s.vsp.lane l).read with
  | .highZ, _ => Config.pinLevel s.free (.vspD l)
  | .data, some r => (readBits s l r).getD (r.launchedBy s.now - 1) false
  | _, _ => false

/-- The level of a pin: what the device drives, or what it has taken in; a pin that it takes in otherwise than as a level is
a FREE VALUE. -/
def scanLevel (s : State) (p : ScanPin) : Bool :=
  match p with
  | .vspD l => laneLevel s l
  | .role1 => s.zl.pins.getLsbD 1
  | .role0 => s.zl.pins.getLsbD 0
  | .deposeN => !s.zl.deposed
  | .holdOut => holdLine s
  | .holdIn => s.zl.holdIn
  | .eclipseN => !s.ecl.pinLow
  | .vspClk _ | .vspSync _ | .tbPps | .tb10m | .porstN | .perstN | .trstN => Config.pinLevel s.free p

/-- What Capture-DR loads into the chain. -/
def scanCapture (s : State) : List (ScanPin × Bool) := scanPins.map (fun p => (p, scanLevel s p))

/-! ### Cells (R350) -/

/-- The fields of the path register. -/
def pathDie (p : BitVec 48) : Nat := p.toNat / 2 ^ 44
def pathHead (p : BitVec 48) : Nat := p.toNat / 2 ^ 36 % 256
def pathSlice (p : BitVec 48) : Nat := p.toNat / 2 ^ 34 % 4
def pathStage (p : BitVec 48) : Nat := p.toNat / 2 ^ 24 % 1024
def pathCell (p : BitVec 48) : Nat := p.toNat % 2 ^ 24

/-- Levels of a stage: slice, head, die, core, substrate. -/
inductive Level | slice | head | die | core | sub
deriving DecidableEq, Repr

/-- Level and number of cells of a stage; 2^24 where the manual gives no number (R350). -/
def stageOf (stage : Nat) : Option (Level × Nat) :=
  if stage = 0x011 then some (.slice, 7)
  else if 1 ≤ stage ∧ stage ≤ 3 ∨ 0x010 ≤ stage ∧ stage ≤ 0x017 then some (.slice, 2 ^ 24)
  else if stage = 0x020 then some (.head, 2 ^ 24)
  else if stage = 0x021 then some (.head, 0x400)
  else if stage = 0x030 then some (.die, 8192)
  else if stage = 0x100 then some (.core, 65536)
  else if stage = 0x101 then some (.core, 0x140000)
  else if stage = 0x102 then some (.core, 8)
  else if stage = 0x103 then some (.core, 36)
  else if stage = 0x104 ∨ stage = 0x105 then some (.core, 2 ^ 24)
  else if stage = 0x106 then some (.core, 2 ^ 23)
  else if stage = 0x107 then some (.core, 0x200000)
  else if stage = 0x200 then some (.sub, 32)
  else none

/-- A path names a cell: die, head, slice, stage and cell agree. -/
def pathOk (p : BitVec 48) : Bool :=
  match stageOf (pathStage p) with
  | none => false
  | some (l, n) =>
    let onDie := decide (pathDie p < 8)
    let hasHead := decide (pathHead p / 32 = pathDie p)
    decide (pathCell p < n) && decide (pathSlice p ≠ 3) &&
      (match l with
       | .slice => onDie && hasHead && decide (pathSlice p = 1 ∨ pathSlice p = 2)
       | .head => onDie && hasHead && decide (pathSlice p = 0)
       | .die => onDie
       | .core => decide (pathDie p = 8)
       | .sub => decide (pathDie p = 9))

/-- What a cell without a stated layout holds at this entry: a FREE VALUE. -/
def freeCell (s : State) (p : BitVec 48) : Word := Config.cell s.ecl.seed p.toNat

/-- A cell of which the manual gives the low `n` bits. -/
def lowBits (s : State) (p : BitVec 48) (n v : Nat) : Word := setFld (freeCell s p) 0 n v

/-- CIC: integrators, comb outputs, output. Each comb's output is what the next one's delay holds (R89). -/
def cicCell (c : Cic) (k : Nat) : Nat :=
  ([c.int1, c.int2, c.int3, c.dly2, c.dly3, c.out, c.out].getD k 0).toNat

/-- Word k of a stage whose words are `l`; what lies beyond them is a FREE VALUE. -/
def stageCell (s : State) (p : BitVec 48) (l : List Word) (k : Nat) : Word := l.getD k (freeCell s p)

/-- A whole number in a cell: its low 32 bits, in two's complement. -/
def intCell (v : Int) : Word := word (twos 32 v)

/-- A number of up to 64 bits in two cells, the low one first. -/
def wideCell (v : Nat) : List Word := [word v, word (v / 2 ^ 32)]

/-- Two whole numbers, I and Q. -/
def iqCell (v : Int × Int) : List Word := [intCell v.1, intCell v.2]

/-- FE: route and switches, gain, impedance stage. -/
def feCells (s : State) (h : HeadId) (x : Sys) : List Word :=
  let b := (s.head h).fe
  let i := b.imp.get x
  let c := b.route.cur
  [put 16 2 c.type.toNat ||| put 2 2 (phaseCode b.route.phase) ||| put 0 2 c.mode.toNat,
   put 0 3 (match x with
     | .sys1 => c.gain1.toNat
     | .sys2 => c.gain2.toNat),
   put 6 1 (b2n i.fresh) ||| put 5 1 (b2n i.urgent) ||| put 4 1 (b2n i.overdue) ||| put 3 1 (b2n i.dueSince.isSome) |||
     put 0 3 i.cls.toNat,
   b.impRes.get x] ++ wideCell i.lastDone

/-- ENV: envelope bandwidths, comparator states, DACs, and what is left of the occultation timer in ns. -/
def envCells (s : State) (h : HeadId) (x : Sys) : List Word :=
  let c := (s.head h).cmp
  let v := c.slice.get x
  [c.force.cfg,
   put 5 1 (b2n v.brk) ||| put 4 1 (b2n v.forced) ||| put 3 1 (b2n v.railHold) ||| put 2 1 (b2n v.highOut) |||
     put 1 1 (b2n v.lowOut) ||| put 0 1 (b2n v.asserted),
   c.force.pres.get x, c.force.health.get x, c.force.brake, word ((v.occEnd.getD s.now - s.now) / 1000)]

/-- XS: accumulator, increment, TRIM, regulator. -/
def xsCells (s : State) (h : HeadId) (x : Sys) : List Word :=
  let v := (s.head h).xs.slice.get x
  wideCell (v.syn.at (xclkTicks s)) ++ wideCell v.syn.inc ++
    [intCell v.trim, put 0 3 (regCode v.reg), word v.drive, word v.preset]

/-- DEMOD to RSMP and DLY. -/
def dspCells (v : FltSlice) (stage : Nat) : List Word :=
  let d := v.dsp
  if stage = 0x012 then iqCell d.iq ++ iqCell d.held
  else if stage = 0x013 then
    iqCell d.sum ++ [word d.sumN, word v.dacc] ++ iqCell d.fir ++ [word d.fadeN] ++ d.avg.flatMap iqCell
  else if stage = 0x014 then (d.notch.getD []).flatMap (fun l => l.map intCell)
  else if stage = 0x015 then d.mags.map word ++ d.med.map word
  else if stage = 0x016 then
    match d.rsmp with
    | some q => [intCell q.1, word q.2]
    | none => []
  else if stage = 0x017 then [fltMag v.sample]
  else []

/-- An instant on internal time in 100 ns with a mark that it is there. -/
def stampCell (v : Option Int) : List Word :=
  match v with
  | some i => [1, intCell i]
  | none => [0, 0]

/-- The edges of one slice. -/
def edgeCells (e : Edges) : List Word := stampCell e.te ++ stampCell e.tx ++ stampCell e.out ++ [word e.peak]

/-- A passage: ENTRY, FROM, LASTX with flags, the state's start, edges. -/
def passCells (q : Passage) : List Word :=
  [put 6 1 (b2n q.brake) ||| put 5 1 (b2n q.bridged) ||| put 4 1 (b2n q.reversal) ||| put 3 1 (b2n q.order) |||
     put 2 1 (b2n q.start) ||| put 1 1 q.from_.idx ||| put 0 1 q.entry.idx,
   match q.lastx with
     | some x => put 1 1 1 ||| put 0 1 x.idx
     | none => 0,
   word q.reversals] ++ wideCell q.stateSince ++ wideCell q.endAt ++ edgeCells q.edges.one ++ edgeCells q.edges.two

/-- TRN: state, the passage in progress, the held passages, the depth histories. -/
def trnCells (s : State) (h : HeadId) : List Word :=
  let t := (s.head h).trn
  let hist (x : Sys) : List Word := let l := (t.slice.get x).hist; word l.length :: l.map word
  [put 8 1 (b2n t.pass.isSome) ||| put 0 3 (trnCode t.st)] ++ t.pass.toList.flatMap passCells ++
    [word t.held.length] ++ t.held.flatMap passCells ++ hist .sys1 ++ hist .sys2

/-- SEC: the registers of a section as committed, and with the private copy from word 128. -/
def secCell (s : State) (p : BitVec 48) (k : Nat) : Word :=
  let x := s.sec (Fin.ofNat 256 (k / 256))
  if k % 256 < 128 then stageCell s p (secRegs x) (k % 256)
  else
    match x.priv with
    | some v => stageCell s p (secRegs { x with core := v.core }) (k % 256 - 128)
    | none => freeCell s p

/-- Ledger: signatures by section and entry index, then tags (R175). -/
def ledgerCell (s : State) (p : BitVec 48) (k : Nat) : Word :=
  if k < 0x100000 then
    match (s.sec (Fin.ofNat 256 (k / 4096))).core.ledger[k % 4096 / 4]? with
    | some e => word (field e.sig (4 * (k % 4)) 4)
    | none => freeCell s p
  else
    match (s.sec (Fin.ofNat 256 ((k - 0x100000) / 1024))).core.ledger[(k - 0x100000) % 1024]? with
    | some e => put 0 8 e.head.val ||| put 8 1 (b2n e.wildcard) ||| put 9 1 (b2n e.brake) ||| put 16 16 e.epoch.toNat
    | none => freeCell s p

/-- QUEUE: section × 65,536, the number of items, then eight words an item. -/
def queueCell (s : State) (p : BitVec 48) (k : Nat) : Word :=
  let q := (s.sec (Fin.ofNat 256 (k / 65536))).queue
  let item (i : Item) : List Word :=
    let kd : Word × List Byte := match i.kind with
      | .transit rev sig => (put 8 1 (b2n rev), sig)
      | .reject => (1, zeros 16)
      | .notice reason => (put 8 8 reason ||| 2, zeros 16)
    [kd.1 ||| put 16 8 i.head.val, word i.seq, intCell i.stamp, word i.at_] ++
      (List.range 4).map (fun j => word (field kd.2 (4 * j) 4))
  stageCell s p (word q.length :: q.flatMap item) (k % 65536)

/-- REC: 32 words for each staged record, whose RECNO and lost count are still 0; the open record from word 1,024. -/
def recCell (s : State) (p : BitVec 48) (k : Nat) : Word :=
  if k < 1024 then
    match s.rcd.staging[k / 32]? with
    | some e => if k % 32 < 31 then word (field (entryBody e 0 0 e.detail) (4 * (k % 32)) 4) else freeCell s p
    | none => freeCell s p
  else
    match s.rcd.open_ with
    | some o =>
      stageCell s p [word o.recno, word o.cls, word o.source, o.detail, word o.rep, word o.lastEp, word o.latest,
        word o.opened, word o.wroteBack] (k - 1024)
    | none => freeCell s p

/-- TRIPNET: rail TA of the 512 lines, then rail TB: released is TA high and TB low (R131). Rails that disagree are a FREE
VALUE. -/
def tripnetCell (s : State) (p : BitVec 48) (k : Nat) : Word :=
  mapOf (k % 16) (fun j =>
    let x : Sys := if j % 2 = 0 then .sys1 else .sys2
    if ((s.head (Fin.ofNat 256 (j / 2))).cmp.slice.get x).railHold then bit (freeCell s p) (j % 32)
    else lineTripped s j == decide (16 ≤ k))

/-- Sixteen codes as a word of a frame, the first digit first. -/
def codeWord (f : Nat → BitVec 2) (k : Nat) : Word :=
  word ((List.range 16).foldl (fun a i => 4 * a + (f (16 * k + i)).toNat) 0)

/-- Word k of a frame's 18. -/
def frameWord (f : Frame) (k : Nat) : Word :=
  if k = 0 then f.hdr
  else if k = 17 then f.check
  else codeWord (fun n => tget f.codes (Fin.ofNat 256 n)) (k - 1)

/-- The latched frame, then the build buffer: what the next boundary would latch. -/
def frameCell (s : State) (p : BitVec 48) (k : Nat) : Word :=
  if k < 18 then
    match s.vsp.frame with
    | some f => frameWord f k
    | none => freeCell s p
  else frameWord (buildFrame s s.zl.roleIn (s.epc.seq + 1)) (k - 18)

/-- A coefficient of a loaded slot. -/
def bankCell (s : State) (p : BitVec 48) (k : Nat) : Word :=
  let b := tget (s.die (Fin.ofNat 8 (pathDie p))).slots (Fin.ofNat 128 (k / 64))
  match b.coef[k % 64]? with
  | some c => lowBits s p 20 c.toNat
  | none => freeCell s p

/-- The word that a slice's stage holds. -/
def sliceCell (s : State) (p : BitVec 48) : Word :=
  let k := pathCell p
  let h : HeadId := Fin.ofNat 256 (pathHead p)
  let x : Sys := if pathSlice p = 2 then .sys2 else .sys1
  let f := (s.head h).flt.slice.get x
  if pathStage p = 0x001 then stageCell s p (feCells s h x) k
  else if pathStage p = 0x002 then stageCell s p (envCells s h x) k
  else if pathStage p = 0x003 then stageCell s p (xsCells s h x) k
  else if pathStage p = 0x011 then lowBits s p 24 (cicCell f.cic k)
  else stageCell s p (dspCells f (pathStage p)) k

/-- The word that a valid path names. -/
def cellWord (s : State) (p : BitVec 48) : Word :=
  let k := pathCell p
  let h : HeadId := Fin.ofNat 256 (pathHead p)
  match pathStage p with
  | 0x020 => stageCell s p (trnCells s h) k
  | 0x021 => readReg s (headOff h (4 * k))
  | 0x030 => bankCell s p k
  | 0x100 => secCell s p k
  | 0x101 => ledgerCell s p k
  | 0x102 => mapOf k (latchOf s)
  | 0x103 => frameCell s p k
  | 0x104 => queueCell s p k
  | 0x105 => recCell s p k
  | 0x106 => word (unle 4 (memRead s.rcd.mem (4 * k) 4))
  | 0x107 => readReg s (4 * k)
  | 0x200 => tripnetCell s p k
  | _ => sliceCell s p

/-- The field die that holds a BAR0 register: that of a head block, less the plan words of the core die (R330), or of an FE_
or FLT_ die block. -/
def regDie (off : Nat) : Option DieId :=
  if 0x40000 ≤ off ∧ off < 0x40800 then some (Fin.ofNat 8 ((off - 0x40000) / 0x100))
  else if 0x42000 ≤ off ∧ off < 0x44000 then some (Fin.ofNat 8 ((off - 0x42000) / 0x400))
  else if 0x100000 ≤ off ∧ off < 0x200000 ∧ isPlanField (off % 0x1000) = false then
    some (Fin.ofNat 8 ((off - 0x100000) / 0x20000))
  else none

/-- The field die that holds the cell of a path. -/
def cellDie (p : BitVec 48) : Option DieId :=
  if pathStage p = 0x107 then regDie (4 * pathCell p)
  else if pathStage p = 0x021 then regDie (headOff (Fin.ofNat 256 (pathHead p)) (4 * pathCell p))
  else if pathDie p < 8 then some (Fin.ofNat 8 (pathDie p)) else none

/-- The cell's domain has no power. -/
def cellOff (s : State) (p : BitVec 48) : Bool :=
  match cellDie p with
  | some d => !dieOn s d || s.pwr.held.getLsbD d.val
  | none => false

/-- The device as it stalled: no cell has changed since, registers that count with the clocks among them (R346). -/
def stalled (s : State) : State := { s with now := s.ecl.since, free := s.ecl.seed }

/-- Status and data of a capture (R351). -/
def eclCapture (s : State) : BitVec 40 :=
  let p := s.tap.path
  let st := if s.phase ≠ .eclipse then 2 else if !pathOk p then 1 else if cellOff s p then 3 else 0
  BitVec.ofNat 40 (st * 2 ^ 38 + if st = 0 then (cellWord (stalled s) p).toNat else 0)

/-- The next cell: CELL increments by one and wraps in its field. -/
def nextCell (p : BitVec 48) : BitVec 48 := BitVec.ofNat 48 (p.toNat / 2 ^ 24 * 2 ^ 24 + (p.toNat + 1) % 2 ^ 24)

/-! ### TAP instructions (R348) -/

/-- The TAP stands in the CORE domain: it answers while the core die is out of reset, in eclipse too. -/
def whenTap (f : State → State) (s : State) : State := if s.phase = .reset then s else f s

/-- What the instruction register captures in Capture-IR: 01, with bit 2 set in eclipse. -/
def captureIr (s : State) : Byte := if s.phase = .eclipse then 5 else 1

/-- Select an instruction, with what its data register captures. -/
def selectTap (code : Byte) (dr : BitVec 40) (s : State) : State :=
  { s with tap := { s.tap with ir := code, irOut := captureIr s, dr := dr } }

/-- The boundary-scan chain: the pins are captured, and `cells` are loaded. Of the pins of the chain the device drives VSP_D_x
and ZL_HOLD_OUT alone, whose cells observe only: no level of a pin changes. Each capture draws a fresh free value. -/
def scanChain (code : Byte) (cells : List (ScanPin × Bool)) (s : State) : State :=
  let u := selectTap code 0 s
  { u with tap := { u.tap with scan := scanCapture s, preload := cells }, free := s.free + 1 }

/-- ECL_STATUS: in eclipse, every stage stalled, ECL_LAST[7:0]. -/
def eclStatusWord (s : State) : Word :=
  let e := b2n (s.phase == .eclipse)
  put 8 8 (fld s.aon.eclLast 0 8) ||| put 1 1 e ||| put 0 1 e

/-- ECL_READ: capture, then CELL increments. -/
def eclRead (s : State) : State :=
  let u := selectTap 0x21 (eclCapture s) s
  { u with tap := { u.tap with path := nextCell s.tap.path } }

/-- ECL_PATH: the path register is loaded at Update-DR. -/
def loadPath (v : BitVec 48) (s : State) : State :=
  { s with tap := { s.tap with ir := 0x20, irOut := captureIr s, path := v } }

/-! ### Meanings -/

/-- TAP_RESET reaches the TAP alone (R329). -/
def execTapReset (t : Nat) (s : State) : Host.Outcome State Fault Refusal :=
  .next { s.advance t with tap := Tap.reset }

/-- EXTEST selects the boundary scan in eclipse and acts as BYPASS outside it. -/
def execExtest (t : Nat) (cells : List (ScanPin × Bool)) (s : State) : Host.Outcome State Fault Refusal :=
  .next (whenTap (fun s => if s.phase = .eclipse then scanChain 0x00 cells s else selectTap 0x00 0 s) (s.advance t))

def execIdcode (t : Nat) (s : State) : Host.Outcome State Fault Refusal :=
  .next (whenTap (selectTap 0x01 0x12560A75) (s.advance t))

def execSamplePreload (t : Nat) (cells : List (ScanPin × Bool)) (s : State) : Host.Outcome State Fault Refusal :=
  .next (whenTap (scanChain 0x02 cells) (s.advance t))

/-- HIGHZ: the bypass register, in eclipse and outside it. -/
def execHighz (t : Nat) (s : State) : Host.Outcome State Fault Refusal :=
  .next (whenTap (selectTap 0x04 0) (s.advance t))

/-- CLAMP: the bypass register, in eclipse and outside it. -/
def execClamp (t : Nat) (s : State) : Host.Outcome State Fault Refusal :=
  .next (whenTap (selectTap 0x05 0) (s.advance t))

def execEclPath (t : Nat) (v : BitVec 48) (s : State) : Host.Outcome State Fault Refusal :=
  .next (whenTap (loadPath v) (s.advance t))

def execEclRead (t : Nat) (s : State) : Host.Outcome State Fault Refusal := .next (whenTap eclRead (s.advance t))

def execEclStatus (t : Nat) (s : State) : Host.Outcome State Fault Refusal :=
  .next (whenTap (fun s => selectTap 0x22 ((eclStatusWord s).setWidth 40) s) (s.advance t))

/-- BYPASS, and every code that the table does not name. -/
def execBypass (t : Nat) (code : Byte) (s : State) : Host.Outcome State Fault Refusal :=
  .next (whenTap (selectTap code 0) (s.advance t))

end Sys2Proof.Machine
end

