-- ==== Sys2Proof/Machine/Dispatch.lean ====
section
/-! DEFINITION. The dispatch: one arm per command, one direct call of its meaning. -/
namespace Sys2Proof.Machine

/-- The effect of a command on everything but the queue. -/
def exec (i : Instr) (s : State) : Host.Outcome State Fault Refusal :=
  match i with
  | .hpNop t c => Sys2Proof.Machine.execHpNop t c s
  | .hpSeal t c => Sys2Proof.Machine.execHpSeal t c s
  | .hpWrite t c => Sys2Proof.Machine.execHpWrite t c s
  | .hpIdent t c => Sys2Proof.Machine.execHpIdent t c s
  | .commandBadOpcode t opcode c => Sys2Proof.Machine.execCommandBadOpcode t opcode c s
  | .feRoute t c => Sys2Proof.Machine.execFeRoute t c s
  | .feRouteCtrlGo t h v be => Sys2Proof.Machine.execFeRouteCtrlGo t h v be s
  | .feBiasSet t c => Sys2Proof.Machine.execFeBiasSet t c s
  | .feImpSet t c => Sys2Proof.Machine.execFeImpSet t c s
  | .feImpRun t c => Sys2Proof.Machine.execFeImpRun t c s
  | .feImpSetref t c => Sys2Proof.Machine.execFeImpSetref t c s
  | .feImpSweep t c => Sys2Proof.Machine.execFeImpSweep t c s
  | .xsSet t c => Sys2Proof.Machine.execXsSet t c s
  | .xsAdjSet t c => Sys2Proof.Machine.execXsAdjSet t c s
  | .xsBandsSet t c => Sys2Proof.Machine.execXsBandsSet t c s
  | .xsUbandSet t c => Sys2Proof.Machine.execXsUbandSet t c s
  | .xsPlanSet t c => Sys2Proof.Machine.execXsPlanSet t c s
  | .xsListenReset t c => Sys2Proof.Machine.execXsListenReset t c s
  | .fltSet t c => Sys2Proof.Machine.execFltSet t c s
  | .fltNotchSet t c => Sys2Proof.Machine.execFltNotchSet t c s
  | .fltSwap t c => Sys2Proof.Machine.execFltSwap t c s
  | .fltBankLoad t c => Sys2Proof.Machine.execFltBankLoad t c s
  | .fltBankFree t c => Sys2Proof.Machine.execFltBankFree t c s
  | .fltBankRead t c => Sys2Proof.Machine.execFltBankRead t c s
  | .cmpSet t c => Sys2Proof.Machine.execCmpSet t c s
  | .cmpStatus t c => Sys2Proof.Machine.execCmpStatus t c s
  | .trnSet t c => Sys2Proof.Machine.execTrnSet t c s
  | .trnSetref t c => Sys2Proof.Machine.execTrnSetref t c s
  | .trnStatus t c => Sys2Proof.Machine.execTrnStatus t c s
  | .secBind t c => Sys2Proof.Machine.execSecBind t c s
  | .secSet t c => Sys2Proof.Machine.execSecSet t c s
  | .secService t c => Sys2Proof.Machine.execSecService t c s
  | .secDisturb t c => Sys2Proof.Machine.execSecDisturb t c s
  | .secLedgerRead t c => Sys2Proof.Machine.execSecLedgerRead t c s
  | .secStatus t c => Sys2Proof.Machine.execSecStatus t c s
  | .secKeyProgram t c => Sys2Proof.Machine.execSecKeyProgram t c s
  | .secResetSup t c => Sys2Proof.Machine.execSecResetSup t c s
  | .secResetDir t c => Sys2Proof.Machine.execSecResetDir t c s
  | .zlSet t c => Sys2Proof.Machine.execZlSet t c s
  | .zlStatus t c => Sys2Proof.Machine.execZlStatus t c s
  | .tbSet t c => Sys2Proof.Machine.execTbSet t c s
  | .tbStep t c => Sys2Proof.Machine.execTbStep t c s
  | .recSet t c => Sys2Proof.Machine.execRecSet t c s
  | .recSelect t c => Sys2Proof.Machine.execRecSelect t c s
  | .recRead t c => Sys2Proof.Machine.execRecRead t c s
  | .recClear t c => Sys2Proof.Machine.execRecClear t c s
  | .pwrFld t c => Sys2Proof.Machine.execPwrFld t c s
  | .pwrStatus t c => Sys2Proof.Machine.execPwrStatus t c s
  | .clkSet t c => Sys2Proof.Machine.execClkSet t c s
  | .eclEnter t c => Sys2Proof.Machine.execEclEnter t c s
  | .hpSealWrite t v be => Sys2Proof.Machine.execHpSealWrite t v be s
  | .hpCtrlErrClr t v be => Sys2Proof.Machine.execHpCtrlErrClr t v be s
  | .epcCtrlClr t v be => Sys2Proof.Machine.execEpcCtrlClr t v be s
  | .vspTestCrcFail t v be => Sys2Proof.Machine.execVspTestCrcFail t v be s
  | .zlPdbWrite t v be => Sys2Proof.Machine.execZlPdbWrite t v be s
  | .recMarkWrite t v be => Sys2Proof.Machine.execRecMarkWrite t v be s
  | .recCursorWrite t v be => Sys2Proof.Machine.execRecCursorWrite t v be s
  | .irqEoi t v be => Sys2Proof.Machine.execIrqEoi t v be s
  | .irqHdrain t v be => Sys2Proof.Machine.execIrqHdrain t v be s
  | .irqMaskSet t k v be => Sys2Proof.Machine.execIrqMaskSet t k v be s
  | .irqMaskClr t k v be => Sys2Proof.Machine.execIrqMaskClr t k v be s
  | .irqPendDiscard t k v be => Sys2Proof.Machine.execIrqPendDiscard t k v be s
  | .irqDoorbellWrite t v be => Sys2Proof.Machine.execIrqDoorbellWrite t v be s
  | .orbDoorbell t k v be descs => Sys2Proof.Machine.execOrbDoorbell t k v be descs s
  | .orbCfgWrite t k v be => Sys2Proof.Machine.execOrbCfgWrite t k v be s
  | .epcSeqLoRead t r => Sys2Proof.Machine.execEpcSeqLoRead t r s
  | .tbNowLoRead t r => Sys2Proof.Machine.execTbNowLoRead t r s
  | .tbEpochLoRead t r => Sys2Proof.Machine.execTbEpochLoRead t r s
  | .registerWrite t bar off v be dwords => Sys2Proof.Machine.execRegisterWrite t bar off v be dwords s
  | .functionLevelReset t => Sys2Proof.Machine.execFunctionLevelReset t s
  | .d3hotToD0 t => Sys2Proof.Machine.execD3hotToD0 t s
  | .conventionalReset t => Sys2Proof.Machine.execConventionalReset t s
  | .dmaReadError t r => Sys2Proof.Machine.execDmaReadError t r s
  | .poisonedWrite t => Sys2Proof.Machine.execPoisonedWrite t s
  | .streamFlush t k => Sys2Proof.Machine.execStreamFlush t k s
  | .msixUnmask t w => Sys2Proof.Machine.execMsixUnmask t w s
  | .interruptMessage t => Sys2Proof.Machine.execInterruptMessage t s
  | .interruptCommit t => Sys2Proof.Machine.execInterruptCommit t s
  | .epochBoundary t inp => Sys2Proof.Machine.execEpochBoundary t inp s
  | .sectionGrant t n => Sys2Proof.Machine.execSectionGrant t n s
  | .sectionCommit t n => Sys2Proof.Machine.execSectionCommit t n s
  | .evaluationDeadline t => Sys2Proof.Machine.execEvaluationDeadline t s
  | .trackTick t inp => Sys2Proof.Machine.execTrackTick t inp s
  | .trackSampleLate t h x => Sys2Proof.Machine.execTrackSampleLate t h x s
  | .settleComplete t h x e => Sys2Proof.Machine.execSettleComplete t h x e s
  | .transitStep t h => Sys2Proof.Machine.execTransitStep t h s
  | .passageValidation t h => Sys2Proof.Machine.execPassageValidation t h s
  | .presenceAssert t h x e => Sys2Proof.Machine.execPresenceAssert t h x e s
  | .presenceRelease t h x e => Sys2Proof.Machine.execPresenceRelease t h x e s
  | .occultationExpiry t h x e => Sys2Proof.Machine.execOccultationExpiry t h x e s
  | .presenceEpisodeJudgement t h => Sys2Proof.Machine.execPresenceEpisodeJudgement t h s
  | .healthTrip t h x side e => Sys2Proof.Machine.execHealthTrip t h x side e s
  | .healthReturn t h x side e => Sys2Proof.Machine.execHealthReturn t h x side e s
  | .railFault t h x => Sys2Proof.Machine.execRailFault t h x s
  | .brakeComparatorSet t h x level => Sys2Proof.Machine.execBrakeComparatorSet t h x level s
  | .brakeComparatorClear t h x level => Sys2Proof.Machine.execBrakeComparatorClear t h x level s
  | .brakeRecognitionEnd t h => Sys2Proof.Machine.execBrakeRecognitionEnd t h s
  | .invalidRunStart t h x ovr cm => Sys2Proof.Machine.execInvalidRunStart t h x ovr cm s
  | .invalidRunLong t h x ovr cm => Sys2Proof.Machine.execInvalidRunLong t h x ovr cm s
  | .gapUnbridged t h x => Sys2Proof.Machine.execGapUnbridged t h x s
  | .gapBridged t h x => Sys2Proof.Machine.execGapBridged t h x s
  | .handoverMarkRaise t h x senseFall => Sys2Proof.Machine.execHandoverMarkRaise t h x senseFall s
  | .handoverMarkEnd t h x => Sys2Proof.Machine.execHandoverMarkEnd t h x s
  | .envelopeHoldEnd t h x => Sys2Proof.Machine.execEnvelopeHoldEnd t h x s
  | .routeRampDownDone t h => Sys2Proof.Machine.execRouteRampDownDone t h s
  | .routeBreakExpiry t h => Sys2Proof.Machine.execRouteBreakExpiry t h s
  | .routeDischargeExpiry t h => Sys2Proof.Machine.execRouteDischargeExpiry t h s
  | .routeBreak2Expiry t h => Sys2Proof.Machine.execRouteBreak2Expiry t h s
  | .comparatorTestEnd t h x r => Sys2Proof.Machine.execComparatorTestEnd t h x r s
  | .carrierSwitchPoint t h x => Sys2Proof.Machine.execCarrierSwitchPoint t h x s
  | .regulatorRampUpDone t h x => Sys2Proof.Machine.execRegulatorRampUpDone t h x s
  | .regulatorAcquireDone t h x => Sys2Proof.Machine.execRegulatorAcquireDone t h x s
  | .regulatorAcquireTimeout t h x => Sys2Proof.Machine.execRegulatorAcquireTimeout t h x s
  | .regulatorHoldBegin t h x => Sys2Proof.Machine.execRegulatorHoldBegin t h x s
  | .regulatorHoldEnd t h x => Sys2Proof.Machine.execRegulatorHoldEnd t h x s
  | .regulationFault t h x => Sys2Proof.Machine.execRegulationFault t h x s
  | .driverClipFault t h x => Sys2Proof.Machine.execDriverClipFault t h x s
  | .listenLocked t h x => Sys2Proof.Machine.execListenLocked t h x s
  | .thermWarn t d tj => Sys2Proof.Machine.execThermWarn t d tj s
  | .thermOff t d tj => Sys2Proof.Machine.execThermOff t d tj s
  | .thermOffClear t d tj => Sys2Proof.Machine.execThermOffClear t d tj s
  | .leakFaultTimer t h => Sys2Proof.Machine.execLeakFaultTimer t h s
  | .impCheckDue t h x => Sys2Proof.Machine.execImpCheckDue t h x s
  | .impSlotStart t d g => Sys2Proof.Machine.execImpSlotStart t d g s
  | .impSlotEnd t d g m => Sys2Proof.Machine.execImpSlotEnd t d g m s
  | .impSlotAbort t d g => Sys2Proof.Machine.execImpSlotAbort t d g s
  | .impOverdue t h x => Sys2Proof.Machine.execImpOverdue t h x s
  | .sweepTimeout t d g => Sys2Proof.Machine.execSweepTimeout t d g s
  | .fadeStart t h x => Sys2Proof.Machine.execFadeStart t h x s
  | .fadeComplete t h x => Sys2Proof.Machine.execFadeComplete t h x s
  | .roleInputChange t pins => Sys2Proof.Machine.execRoleInputChange t pins s
  | .depose t => Sys2Proof.Machine.execDepose t s
  | .deposeRelease t => Sys2Proof.Machine.execDeposeRelease t s
  | .interlockClaim t => Sys2Proof.Machine.execInterlockClaim t s
  | .claimWaitExpiry t releasedThroughout => Sys2Proof.Machine.execClaimWaitExpiry t releasedThroughout s
  | .holdTimeout t => Sys2Proof.Machine.execHoldTimeout t s
  | .vspRead t l inp => Sys2Proof.Machine.execVspRead t l inp s
  | .vspReadAbort t l => Sys2Proof.Machine.execVspReadAbort t l s
  | .statusSend t => Sys2Proof.Machine.execStatusSend t s
  | .doorbellSend t => Sys2Proof.Machine.execDoorbellSend t s
  | .statusMessage t m => Sys2Proof.Machine.execStatusMessage t m s
  | .ephMessage t m => Sys2Proof.Machine.execEphMessage t m s
  | .coverMessage t m => Sys2Proof.Machine.execCoverMessage t m s
  | .ldeltaMessage t m => Sys2Proof.Machine.execLdeltaMessage t m s
  | .lfullMessage t m => Sys2Proof.Machine.execLfullMessage t m s
  | .doorbellMessage t m => Sys2Proof.Machine.execDoorbellMessage t m s
  | .linkTrained t => Sys2Proof.Machine.execLinkTrained t s
  | .linkLoss t lanes => Sys2Proof.Machine.execLinkLoss t lanes s
  | .statusTimeout t => Sys2Proof.Machine.execStatusTimeout t s
  | .aligned t => Sys2Proof.Machine.execAligned t s
  | .driveIntervalComplete t => Sys2Proof.Machine.execDriveIntervalComplete t s
  | .driveAgeHour t => Sys2Proof.Machine.execDriveAgeHour t s
  | .ppsEdge t err => Sys2Proof.Machine.execPpsEdge t err s
  | .tbFreqLock t => Sys2Proof.Machine.execTbFreqLock t s
  | .ref10mLoss t => Sys2Proof.Machine.execRef10mLoss t s
  | .ppsLoss t => Sys2Proof.Machine.execPpsLoss t s
  | .referenceReturn t => Sys2Proof.Machine.execReferenceReturn t s
  | .recTrigger t => Sys2Proof.Machine.execRecTrigger t s
  | .recWrite t => Sys2Proof.Machine.execRecWrite t s
  | .recWriteBack t => Sys2Proof.Machine.execRecWriteBack t s
  | .recSurveyPeriod t => Sys2Proof.Machine.execRecSurveyPeriod t s
  | .supplyMonitorTrip t m => Sys2Proof.Machine.execSupplyMonitorTrip t m s
  | .supplyRecovery t dom => Sys2Proof.Machine.execSupplyRecovery t dom s
  | .aonPowerOnReset t => Sys2Proof.Machine.execAonPowerOnReset t s
  | .coreDieReset t cause => Sys2Proof.Machine.execCoreDieReset t cause s
  | .startUp t inp => Sys2Proof.Machine.execStartUp t inp s
  | .fldPowerDownDone t d => Sys2Proof.Machine.execFldPowerDownDone t d s
  | .fldResetRelease t d => Sys2Proof.Machine.execFldResetRelease t d s
  | .clkrefLoss t => Sys2Proof.Machine.execClkrefLoss t s
  | .clkrefGlitch t => Sys2Proof.Machine.execClkrefGlitch t s
  | .sclkFrequencyCheck t vsHclk vsTb => Sys2Proof.Machine.execSclkFrequencyCheck t vsHclk vsTb s
  | .zpllLoss t => Sys2Proof.Machine.execZpllLoss t s
  | .epochWatchdog t => Sys2Proof.Machine.execEpochWatchdog t s
  | .eclipseRequest t => Sys2Proof.Machine.execEclipseRequest t s
  | .tapReset t => Sys2Proof.Machine.execTapReset t s
  | .extest t cells => Sys2Proof.Machine.execExtest t cells s
  | .idcode t => Sys2Proof.Machine.execIdcode t s
  | .samplePreload t cells => Sys2Proof.Machine.execSamplePreload t cells s
  | .highz t => Sys2Proof.Machine.execHighz t s
  | .clamp t => Sys2Proof.Machine.execClamp t s
  | .eclPath t v => Sys2Proof.Machine.execEclPath t v s
  | .eclRead t => Sys2Proof.Machine.execEclRead t s
  | .eclStatus t => Sys2Proof.Machine.execEclStatus t s
  | .bypass t code => Sys2Proof.Machine.execBypass t code s
  | .invalidRunEnd t h x => Sys2Proof.Machine.execInvalidRunEnd t h x s
  | .regulatorRampDownDone t h x => Sys2Proof.Machine.execRegulatorRampDownDone t h x s
  | .messageDiscarded t => Sys2Proof.Machine.execMessageDiscarded t s
  | .zclkPllLock t => Sys2Proof.Machine.execZclkPllLock t s
  | .pcieRefclkLoss t => Sys2Proof.Machine.execPcieRefclkLoss t s
  | .d0ToD3hot t => Sys2Proof.Machine.execD0ToD3hot t s
  | .busMasterEnableChange t on => Sys2Proof.Machine.execBusMasterEnableChange t on s

end Sys2Proof.Machine
end

