-- ==== Sys2Proof/Safety.lean ====
section
/-! DEFINITION. What the statements speak of: the invariants of the block, the parts of the state that a command leaves
alone, the admission and the answer of a command descriptor, and which commands are which. -/
namespace Sys2Proof.Machine

/-- The recorder's memory keeps its canonical form. -/
def MemInv (s : State) : Prop := Memory.wf s.rcd.mem = true

/-- NEXT and OLDEST are record numbers, at most a ring apart. -/
def ringOk (next oldest : Nat) : Prop := next < 2 ^ 32 ∧ oldest < 2 ^ 32 ∧ recDist oldest next ≤ ringSize

/-- The recorder's pointers, and those of its header's two copies, delimit at most a ring (R310). -/
def RingInv (s : State) : Prop :=
  ringOk s.aon.next s.aon.oldest ∧ ringOk s.rcd.header.one.next s.rcd.header.one.oldest ∧
    ringOk s.rcd.header.two.next s.rcd.header.two.oldest

/-- The device apart from what every command may touch in passing: the time, the free counter, the host port with its
orbits and writes to the host, the interrupt controller, and triggers raised for the recorder. States with the same
`device` differ in nothing else. -/
def State.device (s : State) : State :=
  { s with now := 0, free := 0, out := [], hp := Hp.reset, orbits := Vector.replicate 16 Orbit.reset,
           irq := Irq.reset, rcd := { s.rcd with raised := [] } }

/-- The next descriptor of a command orbit, with this opcode, is admitted and passes the host-port checks of R271 and R272:
`long` says whether the opcode is a long command, `need` and `rneed` are its least PLEN and RLEN. -/
def Accepted (op : BitVec 16) (long : Bool) (need rneed : Nat) (c : Cmd) (s : State) : Prop :=
  admissible op c s = true ∧ need ≤ c.plen.toNat ∧ s.hp.inflight.length < 64 ∧
    (long = true → (s.hp.inflight.filter (·.long)).length < 8) ∧ rneed ≤ c.rlen.toNat

/-- Command `c` has been admitted in `s` and is in progress in `u`, the latest of the commands in progress, under the
admission sequence number that was next (R270, R273). -/
def Admitted (c : Cmd) (s u : State) : Prop :=
  u.hp.admSeq = s.hp.admSeq + 1 ∧ ∃ e : InFlight, u.hp.inflight = s.hp.inflight ++ [e] ∧
    e.admSeq = s.hp.admSeq ∧ e.orbit = c.orbit ∧ e.tag = c.tag ∧ e.raddr = c.raddr ∧ e.rlen = c.rlen.toNat ∧
    e.cmdIdx = (s.orbit (cmdOrbit c.orbit)).devIdx ∧ e.epochAdm = s.epc.seq ∧ e.lost = false

/-- An outcome completes the command admitted in `s` with this status, detail and response, from a state with the device
of `d`. -/
def Answers (o : Host.Outcome State Fault Refusal) (c : Cmd) (s : State) (st : Status) (detail : Nat)
    (resp : List Byte) (d : State) : Prop :=
  ∃ v, o = .next (complete s.hp.admSeq st detail resp v) ∧ Admitted c s v ∧ v.device = d.device

/-- An outcome admits the command and leaves it in progress, in a state with the device of `d`. -/
def Waits (o : Host.Outcome State Fault Refusal) (c : Cmd) (s d : State) : Prop :=
  ∃ u, o = .next u ∧ Admitted c s u ∧ u.device = d.device

/-- Nothing changes at any head but `h`. -/
def OtherHeadsKept (h : HeadId) (s u : State) : Prop := ∀ g, g ≠ h → u.head g = s.head g

/-- Nothing changes at any field die but `d`. -/
def OtherDiesKept (d : DieId) (s u : State) : Prop := ∀ e, e ≠ d → u.die e = s.die e

/-- A head with its five fault registers cleared. -/
def Head.sansFaults (x : Head) : Head :=
  { fe := { x.fe with fault := 0 }, xs := { x.xs with fault := 0 }, flt := { x.flt with fault := 0 },
    cmp := { x.cmp with fault := 0 }, trn := { x.trn with fault := 0 } }

/-- A head's set-up words that no event of the head writes, the rest at its reset values: what the host writes or sends by
command and nothing but a command or a reset changes (R9). FLT_DELAY in AUTO and the notches' EN bits are not among them. -/
def Head.setUp (x : Head) : Head :=
  { fe := { Head.reset.fe with
      headCfg := x.fe.headCfg, gain := x.fe.gain, bias := x.fe.bias, xp := x.fe.xp, impCfg := x.fe.impCfg,
      impTol := x.fe.impTol, impRef := x.fe.impRef, kref := x.fe.kref }
    xs := { Head.reset.xs with
      freq := x.xs.freq, amp := x.xs.amp, ilim := x.xs.ilim, phase := x.xs.phase, reg := x.xs.reg, bands :=
      x.xs.bands, adj := x.xs.adj }
    flt := { Head.reset.flt with cfg := x.flt.cfg, fade := x.flt.fade }
    cmp := { Head.reset.cmp with staged := x.cmp.staged }
    trn := { Head.reset.trn with
      geom := x.trn.geom, det := x.trn.det, val := x.trn.val, valb := x.trn.valb, len := x.trn.len, lenb :=
      x.trn.lenb, cal := x.trn.cal, baseref := x.trn.baseref } }

/-- What only the commands of its own chapter and the resets change: the customer key, the run phase, the vital port, the
time base, power, clocks, eclipse, TAP and AON, and the recorder's memory. -/
structure Chassis where
  key     : Option (List Byte)
  phase   : Phase
  resetAt : Nat
  vsp     : Vsp
  tb      : Tb
  pwr     : Pwr
  clk     : Clk
  ecl     : Ecl
  tap     : Tap
  aon     : Aon
  mem     : Memory
  pending : List Instr
deriving DecidableEq, Repr

def State.chassis (s : State) : Chassis :=
  { key := s.key, phase := s.phase, resetAt := s.resetAt, vsp := s.vsp, tb := s.tb, pwr := s.pwr, clk := s.clk,
    ecl := s.ecl, tap := s.tap, aon := s.aon, mem := s.rcd.mem, pending := s.pending }

/-- What a command row asks of its descriptor (R272, R275): its opcode, whether it is a long command, its least PLEN and
RLEN, and the descriptor itself. Rows that are no host command have none. -/
def commandShape (i : Instr) : Option (BitVec 16 × Bool × Nat × Nat × Cmd) :=
  match i with
  | .hpNop _ c => some (0x0001, false, 0, 0, c)
  | .hpSeal _ c => some (0x0002, false, 0, 0, c)
  | .hpWrite _ c => some (0x0003, false, 8, 0, c)
  | .hpIdent _ c => some (0x0004, false, 0, 32, c)
  | .feRoute _ c => some (0x0210, true, 24, 0, c)
  | .feBiasSet _ c => some (0x0211, true, 8, 0, c)
  | .feImpSet _ c => some (0x0212, false, 12, 0, c)
  | .feImpRun _ c => some (0x0213, false, 3, 0, c)
  | .feImpSetref _ c => some (0x0214, false, 3, 0, c)
  | .feImpSweep _ c => some (0x0215, true, 12, (8 * field c.payload 5 1), c)
  | .xsSet _ c => some (0x0220, false, 24, 0, c)
  | .xsAdjSet _ c => some (0x0221, false, 18, 0, c)
  | .xsBandsSet _ c => some (0x0222, false, 3, 0, c)
  | .xsUbandSet _ c => some (0x0223, false, 8, 0, c)
  | .xsPlanSet _ c => some (0x0224, false, 4, 0, c)
  | .xsListenReset _ c => some (0x0225, false, 3, 0, c)
  | .fltSet _ c => some (0x0230, false, 12, 0, c)
  | .fltNotchSet _ c => some (0x0231, false, 36, 0, c)
  | .fltSwap _ c => some (0x0232, true, 8, 0, c)
  | .fltBankLoad _ c => some (0x0233, true, 264, 0, c)
  | .fltBankFree _ c => some (0x0234, false, 2, 0, c)
  | .fltBankRead _ c => some (0x0235, true, 2, 260, c)
  | .cmpSet _ c => some (0x0240, false, 32, 0, c)
  | .cmpStatus _ c => some (0x0241, false, 2, 32, c)
  | .trnSet _ c => some (0x0250, false, 32, 0, c)
  | .trnSetref _ c => some (0x0251, false, 3, 0, c)
  | .trnStatus _ c => some (0x0252, false, 2, 72, c)
  | .secBind _ c => some (0x0260, false, 20, 0, c)
  | .secSet _ c => some (0x0261, false, 10, 0, c)
  | .secService _ c => some (0x0262, false, 3, 0, c)
  | .secDisturb _ c => some (0x0263, false, 2, 0, c)
  | .secLedgerRead _ c => some (0x0264, true, 2, 0, c)
  | .secStatus _ c => some (0x0265, false, 2, 96, c)
  | .secKeyProgram _ c => some (0x0266, true, 32, 0, c)
  | .secResetSup _ c => some (0x0270, false, 16, 0, c)
  | .secResetDir _ c => some (0x0271, false, 24, 0, c)
  | .zlSet _ c => some (0x0280, false, 4, 0, c)
  | .zlStatus _ c => some (0x0281, false, 0, 48, c)
  | .tbSet _ c => some (0x0290, false, 8, 0, c)
  | .tbStep _ c => some (0x0291, true, 16, 0, c)
  | .recSet _ c => some (0x02A0, false, 16, 0, c)
  | .recSelect _ c => some (0x02A1, false, 68, 0, c)
  | .recRead _ c => some (0x02A2, true, 8, 20, c)
  | .recClear _ c => some (0x02A3, true, 16, 0, c)
  | .pwrFld _ c => some (0x02B0, true, 4, 0, c)
  | .pwrStatus _ c => some (0x02B1, false, 0, 32, c)
  | .clkSet _ c => some (0x02C0, true, 4, 0, c)
  | .eclEnter _ c => some (0x02D0, false, 4, 0, c)
  | _ => none

/-- The instant that a command carries. -/
def timeOf (i : Instr) : Nat :=
  match i with
  | .hpNop t _ => t
  | .hpSeal t _ => t
  | .hpWrite t _ => t
  | .hpIdent t _ => t
  | .commandBadOpcode t _ _ => t
  | .feRoute t _ => t
  | .feRouteCtrlGo t _ _ _ => t
  | .feBiasSet t _ => t
  | .feImpSet t _ => t
  | .feImpRun t _ => t
  | .feImpSetref t _ => t
  | .feImpSweep t _ => t
  | .xsSet t _ => t
  | .xsAdjSet t _ => t
  | .xsBandsSet t _ => t
  | .xsUbandSet t _ => t
  | .xsPlanSet t _ => t
  | .xsListenReset t _ => t
  | .fltSet t _ => t
  | .fltNotchSet t _ => t
  | .fltSwap t _ => t
  | .fltBankLoad t _ => t
  | .fltBankFree t _ => t
  | .fltBankRead t _ => t
  | .cmpSet t _ => t
  | .cmpStatus t _ => t
  | .trnSet t _ => t
  | .trnSetref t _ => t
  | .trnStatus t _ => t
  | .secBind t _ => t
  | .secSet t _ => t
  | .secService t _ => t
  | .secDisturb t _ => t
  | .secLedgerRead t _ => t
  | .secStatus t _ => t
  | .secKeyProgram t _ => t
  | .secResetSup t _ => t
  | .secResetDir t _ => t
  | .zlSet t _ => t
  | .zlStatus t _ => t
  | .tbSet t _ => t
  | .tbStep t _ => t
  | .recSet t _ => t
  | .recSelect t _ => t
  | .recRead t _ => t
  | .recClear t _ => t
  | .pwrFld t _ => t
  | .pwrStatus t _ => t
  | .clkSet t _ => t
  | .eclEnter t _ => t
  | .hpSealWrite t _ _ => t
  | .hpCtrlErrClr t _ _ => t
  | .epcCtrlClr t _ _ => t
  | .vspTestCrcFail t _ _ => t
  | .zlPdbWrite t _ _ => t
  | .recMarkWrite t _ _ => t
  | .recCursorWrite t _ _ => t
  | .irqEoi t _ _ => t
  | .irqHdrain t _ _ => t
  | .irqMaskSet t _ _ _ => t
  | .irqMaskClr t _ _ _ => t
  | .irqPendDiscard t _ _ _ => t
  | .irqDoorbellWrite t _ _ => t
  | .orbDoorbell t _ _ _ _ => t
  | .orbCfgWrite t _ _ _ => t
  | .epcSeqLoRead t _ => t
  | .tbNowLoRead t _ => t
  | .tbEpochLoRead t _ => t
  | .registerWrite t _ _ _ _ _ => t
  | .functionLevelReset t => t
  | .d3hotToD0 t => t
  | .conventionalReset t => t
  | .dmaReadError t _ => t
  | .poisonedWrite t => t
  | .streamFlush t _ => t
  | .msixUnmask t _ => t
  | .interruptMessage t => t
  | .interruptCommit t => t
  | .epochBoundary t _ => t
  | .sectionGrant t _ => t
  | .sectionCommit t _ => t
  | .evaluationDeadline t => t
  | .trackTick t _ => t
  | .trackSampleLate t _ _ => t
  | .settleComplete t _ _ _ => t
  | .transitStep t _ => t
  | .passageValidation t _ => t
  | .presenceAssert t _ _ _ => t
  | .presenceRelease t _ _ _ => t
  | .occultationExpiry t _ _ _ => t
  | .presenceEpisodeJudgement t _ => t
  | .healthTrip t _ _ _ _ => t
  | .healthReturn t _ _ _ _ => t
  | .railFault t _ _ => t
  | .brakeComparatorSet t _ _ _ => t
  | .brakeComparatorClear t _ _ _ => t
  | .brakeRecognitionEnd t _ => t
  | .invalidRunStart t _ _ _ _ => t
  | .invalidRunLong t _ _ _ _ => t
  | .gapUnbridged t _ _ => t
  | .gapBridged t _ _ => t
  | .handoverMarkRaise t _ _ _ => t
  | .handoverMarkEnd t _ _ => t
  | .envelopeHoldEnd t _ _ => t
  | .routeRampDownDone t _ => t
  | .routeBreakExpiry t _ => t
  | .routeDischargeExpiry t _ => t
  | .routeBreak2Expiry t _ => t
  | .comparatorTestEnd t _ _ _ => t
  | .carrierSwitchPoint t _ _ => t
  | .regulatorRampUpDone t _ _ => t
  | .regulatorAcquireDone t _ _ => t
  | .regulatorAcquireTimeout t _ _ => t
  | .regulatorHoldBegin t _ _ => t
  | .regulatorHoldEnd t _ _ => t
  | .regulationFault t _ _ => t
  | .driverClipFault t _ _ => t
  | .listenLocked t _ _ => t
  | .thermWarn t _ _ => t
  | .thermOff t _ _ => t
  | .thermOffClear t _ _ => t
  | .leakFaultTimer t _ => t
  | .impCheckDue t _ _ => t
  | .impSlotStart t _ _ => t
  | .impSlotEnd t _ _ _ => t
  | .impSlotAbort t _ _ => t
  | .impOverdue t _ _ => t
  | .sweepTimeout t _ _ => t
  | .fadeStart t _ _ => t
  | .fadeComplete t _ _ => t
  | .roleInputChange t _ => t
  | .depose t => t
  | .deposeRelease t => t
  | .interlockClaim t => t
  | .claimWaitExpiry t _ => t
  | .holdTimeout t => t
  | .vspRead t _ _ => t
  | .vspReadAbort t _ => t
  | .statusSend t => t
  | .doorbellSend t => t
  | .statusMessage t _ => t
  | .ephMessage t _ => t
  | .coverMessage t _ => t
  | .ldeltaMessage t _ => t
  | .lfullMessage t _ => t
  | .doorbellMessage t _ => t
  | .linkTrained t => t
  | .linkLoss t _ => t
  | .statusTimeout t => t
  | .aligned t => t
  | .driveIntervalComplete t => t
  | .driveAgeHour t => t
  | .ppsEdge t _ => t
  | .tbFreqLock t => t
  | .ref10mLoss t => t
  | .ppsLoss t => t
  | .referenceReturn t => t
  | .recTrigger t => t
  | .recWrite t => t
  | .recWriteBack t => t
  | .recSurveyPeriod t => t
  | .supplyMonitorTrip t _ => t
  | .supplyRecovery t _ => t
  | .aonPowerOnReset t => t
  | .coreDieReset t _ => t
  | .startUp t _ => t
  | .fldPowerDownDone t _ => t
  | .fldResetRelease t _ => t
  | .clkrefLoss t => t
  | .clkrefGlitch t => t
  | .sclkFrequencyCheck t _ _ => t
  | .zpllLoss t => t
  | .epochWatchdog t => t
  | .eclipseRequest t => t
  | .tapReset t => t
  | .extest t _ => t
  | .idcode t => t
  | .samplePreload t _ => t
  | .highz t => t
  | .clamp t => t
  | .eclPath t _ => t
  | .eclRead t => t
  | .eclStatus t => t
  | .bypass t _ => t
  | .invalidRunEnd t _ _ => t
  | .regulatorRampDownDone t _ _ => t
  | .messageDiscarded t => t
  | .zclkPllLock t => t
  | .pcieRefclkLoss t => t
  | .d0ToD3hot t => t
  | .busMasterEnableChange t _ => t

/-- The head that an event names: the rows of the table that act on one head and come from no descriptor. -/
def headEvent (i : Instr) : Option HeadId :=
  match i with
  | .feRouteCtrlGo _ h _ _ => some h
  | .trackSampleLate _ h _ => some h
  | .settleComplete _ h _ _ => some h
  | .transitStep _ h => some h
  | .passageValidation _ h => some h
  | .presenceAssert _ h _ _ => some h
  | .presenceRelease _ h _ _ => some h
  | .occultationExpiry _ h _ _ => some h
  | .presenceEpisodeJudgement _ h => some h
  | .healthTrip _ h _ _ _ => some h
  | .healthReturn _ h _ _ _ => some h
  | .railFault _ h _ => some h
  | .brakeComparatorSet _ h _ _ => some h
  | .brakeComparatorClear _ h _ _ => some h
  | .brakeRecognitionEnd _ h => some h
  | .invalidRunStart _ h _ _ _ => some h
  | .invalidRunLong _ h _ _ _ => some h
  | .gapUnbridged _ h _ => some h
  | .gapBridged _ h _ => some h
  | .handoverMarkRaise _ h _ _ => some h
  | .handoverMarkEnd _ h _ => some h
  | .envelopeHoldEnd _ h _ => some h
  | .routeRampDownDone _ h => some h
  | .routeBreakExpiry _ h => some h
  | .routeDischargeExpiry _ h => some h
  | .routeBreak2Expiry _ h => some h
  | .comparatorTestEnd _ h _ _ => some h
  | .carrierSwitchPoint _ h _ => some h
  | .regulatorRampUpDone _ h _ => some h
  | .regulatorAcquireDone _ h _ => some h
  | .regulatorAcquireTimeout _ h _ => some h
  | .regulatorHoldBegin _ h _ => some h
  | .regulatorHoldEnd _ h _ => some h
  | .regulationFault _ h _ => some h
  | .driverClipFault _ h _ => some h
  | .listenLocked _ h _ => some h
  | .leakFaultTimer _ h => some h
  | .impCheckDue _ h _ => some h
  | .impOverdue _ h _ => some h
  | .fadeStart _ h _ => some h
  | .fadeComplete _ h _ => some h
  | .invalidRunEnd _ h _ => some h
  | .regulatorRampDownDone _ h _ => some h
  | _ => none

/-- The commands that may write the recorder's memory: its writing; a change of REC_CFG and an applied clear, which close the
open record (R316, R317); and the loss of a supply, which can tear the record being written (R310). -/
def writesRecorder (i : Instr) : Bool :=
  match i with
  | .hpWrite _ _ => true
  | .recSet _ _ => true
  | .recClear _ _ => true
  | .supplyMonitorTrip _ _ => true
  | .aonPowerOnReset _ => true
  | .coreDieReset _ _ => true
  | .registerWrite _ _ _ _ _ _ => true
  | .recWrite _ => true
  | .recWriteBack _ => true
  | _ => false

/-- The commands that act while the core die is in reset: the role pins and the interlock in AON, the drive age, the
voter pads, the supplies and CLKREF, the TAP's reset, ECLIPSE_N, and the release itself (R12, R329). -/
def actsInReset (i : Instr) : Bool :=
  match i with
  | .roleInputChange _ _ => true
  | .depose _ => true
  | .deposeRelease _ => true
  | .interlockClaim _ => true
  | .claimWaitExpiry _ _ => true
  | .vspRead _ _ _ => true
  | .vspReadAbort _ _ => true
  | .driveAgeHour _ => true
  | .supplyMonitorTrip _ _ => true
  | .supplyRecovery _ _ => true
  | .aonPowerOnReset _ => true
  | .startUp _ _ => true
  | .clkrefLoss _ => true
  | .eclipseRequest _ => true
  | .tapReset _ => true
  | _ => false

/-- The commands that come from software: every descriptor, every access and configuration request of the host, and every
message of the partner (R18). -/
def fromSoftware (i : Instr) : Bool :=
  match i with
  | .hpNop _ _ => true
  | .hpSeal _ _ => true
  | .hpWrite _ _ => true
  | .hpIdent _ _ => true
  | .commandBadOpcode _ _ _ => true
  | .feRoute _ _ => true
  | .feRouteCtrlGo _ _ _ _ => true
  | .feBiasSet _ _ => true
  | .feImpSet _ _ => true
  | .feImpRun _ _ => true
  | .feImpSetref _ _ => true
  | .feImpSweep _ _ => true
  | .xsSet _ _ => true
  | .xsAdjSet _ _ => true
  | .xsBandsSet _ _ => true
  | .xsUbandSet _ _ => true
  | .xsPlanSet _ _ => true
  | .xsListenReset _ _ => true
  | .fltSet _ _ => true
  | .fltNotchSet _ _ => true
  | .fltSwap _ _ => true
  | .fltBankLoad _ _ => true
  | .fltBankFree _ _ => true
  | .fltBankRead _ _ => true
  | .cmpSet _ _ => true
  | .cmpStatus _ _ => true
  | .trnSet _ _ => true
  | .trnSetref _ _ => true
  | .trnStatus _ _ => true
  | .secBind _ _ => true
  | .secSet _ _ => true
  | .secService _ _ => true
  | .secDisturb _ _ => true
  | .secLedgerRead _ _ => true
  | .secStatus _ _ => true
  | .secKeyProgram _ _ => true
  | .secResetSup _ _ => true
  | .secResetDir _ _ => true
  | .zlSet _ _ => true
  | .zlStatus _ _ => true
  | .tbSet _ _ => true
  | .tbStep _ _ => true
  | .recSet _ _ => true
  | .recSelect _ _ => true
  | .recRead _ _ => true
  | .recClear _ _ => true
  | .pwrFld _ _ => true
  | .pwrStatus _ _ => true
  | .clkSet _ _ => true
  | .eclEnter _ _ => true
  | .hpSealWrite _ _ _ => true
  | .hpCtrlErrClr _ _ _ => true
  | .epcCtrlClr _ _ _ => true
  | .vspTestCrcFail _ _ _ => true
  | .zlPdbWrite _ _ _ => true
  | .recMarkWrite _ _ _ => true
  | .recCursorWrite _ _ _ => true
  | .irqEoi _ _ _ => true
  | .irqHdrain _ _ _ => true
  | .irqMaskSet _ _ _ _ => true
  | .irqMaskClr _ _ _ _ => true
  | .irqPendDiscard _ _ _ _ => true
  | .irqDoorbellWrite _ _ _ => true
  | .orbDoorbell _ _ _ _ _ => true
  | .orbCfgWrite _ _ _ _ => true
  | .epcSeqLoRead _ _ => true
  | .tbNowLoRead _ _ => true
  | .tbEpochLoRead _ _ => true
  | .registerWrite _ _ _ _ _ _ => true
  | .functionLevelReset _ => true
  | .d3hotToD0 _ => true
  | .conventionalReset _ => true
  | .dmaReadError _ _ => true
  | .poisonedWrite _ => true
  | .msixUnmask _ _ => true
  | .statusMessage _ _ => true
  | .ephMessage _ _ => true
  | .coverMessage _ _ => true
  | .ldeltaMessage _ _ => true
  | .lfullMessage _ _ => true
  | .doorbellMessage _ _ => true
  | .messageDiscarded _ => true
  | .d0ToD3hot _ => true
  | .busMasterEnableChange _ _ => true
  | _ => false

/-- The accesses of the host to registers, doorbells and the configuration space, and its resets of the function: everything
that the host sends and that is no descriptor. -/
def hostAccess (i : Instr) : Bool :=
  match i with
  | .feRouteCtrlGo _ _ _ _ => true
  | .hpSealWrite _ _ _ => true
  | .hpCtrlErrClr _ _ _ => true
  | .epcCtrlClr _ _ _ => true
  | .vspTestCrcFail _ _ _ => true
  | .zlPdbWrite _ _ _ => true
  | .recMarkWrite _ _ _ => true
  | .recCursorWrite _ _ _ => true
  | .irqEoi _ _ _ => true
  | .irqHdrain _ _ _ => true
  | .irqMaskSet _ _ _ _ => true
  | .irqMaskClr _ _ _ _ => true
  | .irqPendDiscard _ _ _ _ => true
  | .irqDoorbellWrite _ _ _ => true
  | .orbDoorbell _ _ _ _ _ => true
  | .orbCfgWrite _ _ _ _ => true
  | .epcSeqLoRead _ _ => true
  | .tbNowLoRead _ _ => true
  | .tbEpochLoRead _ _ => true
  | .registerWrite _ _ _ _ _ _ => true
  | .functionLevelReset _ => true
  | .d3hotToD0 _ => true
  | .conventionalReset _ => true
  | .poisonedWrite _ => true
  | .msixUnmask _ _ => true
  | .d0ToD3hot _ => true
  | .busMasterEnableChange _ _ => true
  | _ => false

/-- What no access of the host changes on a sealed device (R9, R264): the heads and the sections but for their fault flags,
the dies, the set-up of the other blocks with what the events of their chapters hold, the recorder's memory and the key. -/
def SetUpKept (s u : State) : Prop :=
  u.hp.isSealed = true ∧ u.phase = s.phase ∧
    (∀ h : HeadId, (u.head h).sansFaults = (s.head h).sansFaults) ∧
    (∀ n : SecId, { u.sec n with core := { (u.sec n).core with fault := 0 } } =
      { s.sec n with core := { (s.sec n).core with fault := 0 } }) ∧
    u.dies = s.dies ∧ u.dev = s.dev ∧ u.epc.cfg = s.epc.cfg ∧ u.epc.seq = s.epc.seq ∧ u.vsp.ctrl = s.vsp.ctrl ∧
    { u.zl with fault := 0, doorbells := [] } = { s.zl with fault := 0, doorbells := [] } ∧
    { u.tb with fault := 0, nowHi := 0, epochHi := 0 } = { s.tb with fault := 0, nowHi := 0, epochHi := 0 } ∧
    u.rcd.cfg = s.rcd.cfg ∧ u.rcd.period = s.rcd.period ∧ u.rcd.trigEn = s.rcd.trigEn ∧ u.rcd.eclEn = s.rcd.eclEn ∧
    u.rcd.sel = s.rcd.sel ∧ u.rcd.selgen = s.rcd.selgen ∧ u.rcd.mem = s.rcd.mem ∧
    { u.pwr with fault := 0, dieFault := 0 } = { s.pwr with fault := 0, dieFault := 0 } ∧
    { u.clk with fault := 0 } = { s.clk with fault := 0 } ∧ u.ecl = s.ecl ∧ u.key = s.key ∧
    { u.aon with cause := 0 } = { s.aon with cause := 0 }

/-- A reset command of section `n` that carries its valid tokens: one for the supervised form, two for the direct form
(R18, R187). -/
def carriesTokens (i : Instr) (s : State) (n : SecId) : Prop :=
  match i with
  | .secResetSup _ c => secArg c.payload 0 = some n ∧ ∃ key, s.key = some key ∧
      slice c.payload 8 8 = token key 0x0270 n.val (field c.payload 2 6) (s.sec n).nonce
  | .secResetDir _ c => secArg c.payload 0 = some n ∧ ∃ key, s.key = some key ∧
      slice c.payload 8 8 = token key 0x0271 n.val (field c.payload 2 6) (s.sec n).nonce ∧
      slice c.payload 16 8 = token key 0x8271 n.val (field c.payload 2 6) (s.sec n).nonce
  | _ => False

/-! ### The evaluation of a section -/

/-- One item alone is in the intake of a section in service, with no command and no overflow. -/
def OneItem (s : State) (n : SecId) (it : Item) : Prop :=
  (s.sec n).core.service = true ∧ (s.sec n).cutOvf = false ∧ (s.sec n).intakeCmd = [] ∧ (s.sec n).intake = [it]

/-- The count rule and the state machine (R169, R174, R175, R180, R181): an ACCEPTED transit of a bound head adds an axle where
its direction is the one that the binding counts in, and removes one otherwise. -/
def CountRule (s : State) (n : SecId) : Prop :=
  ∀ (it : Item) (rev : Bool) (sig : List Byte) (out : Bool), OneItem s n it → it.kind = .transit rev sig →
    signOf (s.sec n) it.head = some out →
    let c := (s.sec n).core
    let e := (evaluate s n).core
    let m := secMode (s.sec n).cfg
    (rev = out → c.count < 32767 →
      e.count = c.count + 1 ∧ e.transIn = (c.transIn + 1) % 2 ^ 32 ∧
        e.state = (if c.state = .clear then .occupied else c.state) ∧
        (m ≠ 0 → c.susp = false → 0 ≤ c.count → c.ledger.length < 1024 →
          e.ledger = c.ledger ++ [{ sig := sig, head := it.head, wildcard := !usableSig (s.sec n).match_ sig,
                                    brake := brakeSig sig, epoch := BitVec.ofNat 16 s.epc.seq }])) ∧
    (rev = out → c.count = 32767 →
      e.count = 32767 ∧ e.state = .disturbed ∧ (c.state ≠ .disturbed → e.reason = 5)) ∧
    (rev ≠ out → -32767 < c.count → c.count ≠ 1 →
      e.count = c.count - 1 ∧ e.transOut = (c.transOut + 1) % 2 ^ 32 ∧
        e.state = (if c.count < 1 ∧ (c.state = .clear ∨ c.state = .restoring) then .disturbed else c.state)) ∧
    (rev ≠ out → c.count = -32767 →
      e.count = -32767 ∧ e.state = .disturbed ∧ (c.state ≠ .disturbed → e.reason = 5)) ∧
    (rev ≠ out → c.count = 1 →
      e.count = 0 ∧ e.ledger = [] ∧ e.susp = false ∧ e.conf = false ∧ e.nomatchEp = 0 ∧ e.maxc = 0 ∧
        (c.state = .disturbed → e.state = .disturbed ∧ e.reason = c.reason) ∧
        (m ≠ 2 → c.state = .occupied → e.state = .clear) ∧
        (m ≠ 2 → c.state = .restoring → e.state =
          if c.conf = true ∨ it.head.val ≠ c.firstHead ∨ bindings (s.sec n) = 1 then .clear else .restoring) ∧
        (m = 2 → c.susp = false → fld (s.sec n).cfg 12 4 < c.nomatchEp → c.state ≠ .disturbed →
          e.state = .disturbed ∧ e.reason = 9))

/-- The matching of a leaving axle with other axles left behind (R176, R177): `w`, with `l1` the older and `l2` the newer
entries, is the entry removed, and the outcome is counted. -/
def MatchRule (s : State) (n : SecId) : Prop :=
  ∀ (it : Item) (rev : Bool) (sig : List Byte) (out : Bool) (l1 l2 : List Entry) (w : Entry), OneItem s n it →
    it.kind = .transit rev sig → signOf (s.sec n) it.head = some out → rev ≠ out →
    let c := (s.sec n).core
    let e := (evaluate s n).core
    let near (x : Entry) : Prop := x.wildcard = false ∧ entryDist sig x ≤ tolOf (s.sec n).match_ sig x
    let allWild (l : List Entry) : Prop := ∀ x ∈ l, x.wildcard = true
    let noneWild (l : List Entry) : Prop := ∀ x ∈ l, x.wildcard = false
    1 < c.count → secMode (s.sec n).cfg ≠ 0 → c.susp = false → c.ledger = l1 ++ w :: l2 →
    (usableSig (s.sec n).match_ sig = false → (w.wildcard = true ∧ noneWild l2 ∨ l1 = [] ∧ noneWild (w :: l2)) →
      e.ledger = l1 ++ l2 ∧ e.unusable = (c.unusable + 1) % 65536) ∧
    (usableSig (s.sec n).match_ sig = true →
      (near w → allWild l1 →
        (∀ l3 z l4, l2 = l3 ++ z :: l4 → allWild l4 → near z → entryDist sig w ≤ entryDist sig z) →
        e.ledger = l1 ++ l2 ∧ e.exact = (c.exact + 1) % 65536) ∧
      (near w → allWild l2 →
        (∀ l3 z l4, l1 = l3 ++ z :: l4 → allWild l3 → near z → entryDist sig w < entryDist sig z) →
        e.ledger = l1 ++ l2 ∧ e.exact = (c.exact + 1) % 65536) ∧
      (near w → (∀ l3 z l4, c.ledger = l3 ++ z :: l4 → allWild l3 ∨ allWild l4 → ¬ near z) →
        (∀ z ∈ l1, near z → entryDist sig w < entryDist sig z) → (∀ z ∈ l2, near z → entryDist sig w ≤ entryDist sig z) →
        e.ledger = l1 ++ l2 ∧ e.displaced = (c.displaced + 1) % 65536) ∧
      ((∀ z ∈ c.ledger, ¬ near z) → w.wildcard = true → noneWild l1 →
        e.ledger = l1 ++ l2 ∧ e.wildcard = (c.wildcard + 1) % 65536) ∧
      ((∀ z ∈ c.ledger, ¬ near z) → noneWild c.ledger →
        (∀ z ∈ l1, entryDist sig w < entryDist sig z) → (∀ z ∈ l2, entryDist sig w ≤ entryDist sig z) →
        e.ledger = l1 ++ l2 ∧ e.nomat = (c.nomat + 1) % 65536 ∧ e.nomatchEp = min 65535 (c.nomatchEp + 1) ∧
          bit e.fault 3 = true))

/-- What fails a section (R172, R173, R180): an overflow of its queue, a reject or a notice; REASON stays where it is DISTURBED
already. -/
def FailRule (s : State) (n : SecId) : Prop :=
  let c := (s.sec n).core
  let e := (evaluate s n).core
  (c.service = true → (s.sec n).intakeCmd = [] → (s.sec n).cutOvf = true → (s.sec n).intake = [] →
    e.state = .disturbed ∧ e.reason = (if c.state = .disturbed then c.reason else 11) ∧ e.count = c.count) ∧
  (∀ it, OneItem s n it →
    (it.kind = .reject → e.state = .disturbed ∧ e.reason = (if c.state = .disturbed then c.reason else 3) ∧
      e.count = c.count ∧ e.ledger = c.ledger) ∧
    (∀ r, it.kind = .notice r → e.state = .disturbed ∧ e.reason = (if c.state = .disturbed then c.reason else r) ∧
      e.count = c.count ∧ e.ledger = c.ledger))

/-- The application of one command alone (R180, R186, R190, R192): SEC_SERVICE, SEC_DISTURB and the reset forms, with the
outcome that the commit writes. -/
def ApplyRule (s : State) (n : SecId) : Prop :=
  ∀ q : SecCmd, (s.sec n).intakeCmd = [q] → (s.sec n).intake = [] → (s.sec n).cutOvf = false →
    let x := s.sec n
    let c := x.core
    let p := evaluate s n
    let done (st : Status) (code : Nat) : Prop := ∃ wr, p.dones = [{ job := q.job, status := st, detail := code, wr := wr }]
    (q.op = .service true → c.service = false →
      (bindings x ≠ 0 → p.core.service = true ∧ p.core.state = c.state ∧ p.core.reason = 2 ∧ p.enter = true ∧ done .ok 0) ∧
      (bindings x = 0 → p.core.service = false ∧ p.core.state = c.state ∧ p.statRes = some 6 ∧ done .conflict 6)) ∧
    (q.op = .service false → c.service = true →
      p.core.service = false ∧ p.core.state = .disturbed ∧ p.core.reason = 2 ∧ p.core.count = 0 ∧ p.core.ledger = [] ∧
        done .ok 0) ∧
    (q.op = .service c.service → p.core = { c with fault := 0 } ∧ done .ok 0) ∧
    (q.op = .disturb → p.core.state = .disturbed ∧ p.core.reason = (if c.state = .disturbed then c.reason else 10) ∧
      p.core.count = c.count ∧ done .ok 0) ∧
    (∀ direct, q.op = .reset direct →
      let fails (code : Nat) : Prop :=
        p.core = { c with fault := 0 } ∧ p.authRes = some code ∧ done .conflict code
      ((c.service = false ∨ c.state ≠ .disturbed) → fails 6) ∧
      (c.service = true → c.state = .disturbed →
        (x.cutFit = false → fails 7) ∧
        (x.cutFit = true → direct = true → (quietMet x x.cutQuiet = false ∨ x.cutWaits = true) → fails 8) ∧
        (x.cutFit = true → (direct = true → quietMet x x.cutQuiet = true ∧ x.cutWaits = false) →
          p.core.state = (if direct then .clear else .restoring) ∧ p.core.reason = 0 ∧ p.core.count = 0 ∧
            p.core.ledger = [] ∧ p.core.service = true ∧ bit p.core.fault 6 = true ∧ p.authRes = some 0 ∧ done .ok 0)))

end Sys2Proof.Machine
end

