-- ==== Sys2Proof/Certificates/Slice0/Obligations.lean ====
section
/-! DEFINITION. The statements of this row, family by family in the order of the opcode table. -/
open Sys2Proof Sys2Proof.Machine

/-- R58, R61, R64, R65: FE_IMP_SET stores interval, tone and clamped tolerances, or completes CONFLICT 6 with the tone
out of range; FE_IMP_RUN makes the named slices due; FE_IMP_SETREF copies the results of the named slices into their
references, K on TYPE 01 only, or completes CONFLICT 7. Nothing else of the device changes. -/
def Obligations.Impedance_commands : Prop :=
  ∀ (t : Nat) (c : Cmd) (s : State) (h : HeadId), headArg c.payload 0 = some h → headUp s h = true →
    (Accepted 0x0212 false 12 0 c (s.advance t) →
      ((field c.payload 4 2 < 2000 ∨ 12000 < field c.payload 4 2) →
        Answers (exec (.feImpSet t c) s) c s .conflict 6 []
          (s.modFe h (fun b => { b with result := 6 }))) ∧
      (2000 ≤ field c.payload 4 2 ∧ field c.payload 4 2 ≤ 12000 →
        Answers (exec (.feImpSet t c) s) c s .ok 0 []
          (s.modFe h (fun b => { b with
            impCfg := put 16 14 (field c.payload 4 2) ||| put 0 16 (field c.payload 2 2)
            impTol := put 16 6 (max 5 (min 50 (field c.payload 8 1))) |||
              put 8 6 (max 2 (min 45 (field c.payload 7 1))) ||| put 0 6 (max 5 (min 50 (field c.payload 6 1)))
            result := 0 })))) ∧
    (Accepted 0x0213 false 3 0 c (s.advance t) →
      Answers (exec (.feImpRun t c) s) c s .ok 0 []
          (s.modFe h (fun b => { b with
          imp := ⟨if (field c.payload 2 1).testBit 0 then
                    { b.imp.one with dueSince := some (b.imp.one.dueSince.getD (max s.now t)) } else b.imp.one,
                  if (field c.payload 2 1).testBit 1 then
                    { b.imp.two with dueSince := some (b.imp.two.dueSince.getD (max s.now t)) } else b.imp.two⟩
          result := 0 }))) ∧
    (Accepted 0x0214 false 3 0 c (s.advance t) →
      ((∀ x ∈ slices (field c.payload 2 1), mayRef s h x = true) →
        Answers (exec (.feImpSetref t c) s) c s .ok 0 []
          (s.modFe h (fun b => { b with
            impRef := ⟨if (field c.payload 2 1).testBit 0 then b.impRes.one else b.impRef.one,
                       if (field c.payload 2 1).testBit 1 then b.impRes.two else b.impRef.two⟩
            kref := if b.route.cur.type = 1 then
                (fun k => if (field c.payload 2 1).testBit 1 then setFld k 16 16 (fld b.kres 16 16) else k)
                  (if (field c.payload 2 1).testBit 0 then setFld b.kref 0 16 (fld b.kres 0 16) else b.kref)
              else b.kref
            result := 0 }))) ∧
      ((∃ x ∈ slices (field c.payload 2 1), mayRef s h x = false) →
        Answers (exec (.feImpSetref t c) s) c s .conflict 7 []
          (s.modFe h (fun b => { b with result := 7 }))))

/-- R42, R46, R47, R64: a route request that passes its tests is admitted, whichever way it comes: FE_ROUTE, a change
of LEVEL by FE_BIAS_SET, or GO written before sealing. The head then ramps down with what it asks for; by FE_ROUTE the
command waits, the expected-trip window opens and both slices are forced. A FE_ROUTE that fails a test writes RESULT
and completes with that code. -/
def Obligations.Route_request_admission : Prop :=
  ∀ (t : Nat) (s : State) (h : HeadId), headUp s h = true →
    (∀ c : Cmd, Accepted 0x0210 true 24 0 c (s.advance t) → headArg c.payload 0 = some h →
      (routeTest h (routeCfgOf h c.payload s) s = none →
        ∃ u, exec (.feRoute t c) s = .next u ∧
          (u.head h).fe.route.phase = .ramp ∧ (u.head h).fe.route.req = some (routeCfgOf h c.payload s) ∧
          (u.head h).fe.route.job = some s.hp.admSeq ∧ (u.head h).fe.route.admAt = max s.now t ∧
          (u.head h).fe.route.window = true ∧ (u.head h).cmp.slice.one.forced = true ∧
          (u.head h).cmp.slice.two.forced = true ∧ OtherHeadsKept h s u) ∧
      (∀ st code, routeTest h (routeCfgOf h c.payload s) s = some (st, code) →
        Answers (exec (.feRoute t c) s) c s st code []
          (s.modFe h (fun b => { b with result := code })))) ∧
    (∀ c : Cmd, Accepted 0x0211 true 8 0 c (s.advance t) → headArg c.payload 0 = some h → field c.payload 4 2 ≤ 4095 →
      field c.payload 6 2 ≤ 4095 → field c.payload 2 1 ≠ (s.head h).fe.route.cur.level.toNat →
      routeTest h { (s.head h).fe.route.cur with
        level := BitVec.ofNat 8 (field c.payload 2 1), disch := dischOf (fld (s.head h).fe.headCfg 8 8) } s = none →
        ∃ u, exec (.feBiasSet t c) s = .next u ∧ (u.head h).fe.route.job = some s.hp.admSeq ∧ (u.head h).fe.route.phase = .ramp ∧
          (u.head h).fe.route.req =
            some { (s.head h).fe.route.cur with
              level := BitVec.ofNat 8 (field c.payload 2 1), disch := dischOf (fld (s.head h).fe.headCfg 8 8) } ∧
          (u.head h).fe.bias = put 20 12 (field c.payload 6 2) ||| put 8 12 (field c.payload 4 2) |||
            put 0 8 (field c.payload 2 1) ∧ OtherHeadsKept h s u) ∧
    (∀ v : Word, hostOk s = true → s.hp.isSealed = false → bit v 31 = true →
      routeTest h (routeCfgRegs h (s.modFe h (fun b => { b with routeCtrl := put 0 2 (fld v 0 2) })))
        (s.modFe h (fun b => { b with routeCtrl := put 0 2 (fld v 0 2) })) = none →
        ∃ u, exec (.feRouteCtrlGo t h v 15) s = .next u ∧ (u.head h).fe.route.phase = .ramp ∧
          (u.head h).fe.route.job = none ∧ (u.head h).fe.routeCtrl = put 0 2 (fld v 0 2) ∧ OtherHeadsKept h s u)

/-- R42, R48: the stages of a route request. At the drivers' zero all switches open (ISOLATED with the new TYPE and map);
2 us later the discharge closes, with the comparator test begun on its way to RUN; DISCH later the discharge opens; 2 us
after that the new switches are made, and a request that does not end in RUN completes. -/
def Obligations.Route_request_sequence : Prop :=
  ∀ (t : Nat) (s : State) (h : HeadId) (q : RouteCfg), awake s = true → (s.head h).fe.route.req = some q →
    ((s.head h).fe.route.phase = .ramp → (s.head h).fe.route.admAt + 100000000 ≤ max s.now t →
      ∃ u, exec (.routeRampDownDone t h) s = .next u ∧ (u.head h).fe.route.phase = .break1 ∧
        (u.head h).fe.route.breakAt = max s.now t ∧ (u.head h).fe.route.cur = { q with mode := 0 } ∧
        OtherHeadsKept h s u) ∧
    ((s.head h).fe.route.phase = .break1 → (s.head h).fe.route.breakAt + 2000000 ≤ max s.now t → q.mode = 1 →
      ∃ u, exec (.routeBreakExpiry t h) s = .next u ∧ (u.head h).fe.route.phase = .disch ∧
        (u.head h).fe.route.dischAt = max s.now t ∧ (u.head h).fe.route.testEnd = max s.now t + 120000000 ∧
        (∀ x, inUse s h x = true → (u.head h).cmp.force.pres.get x = (s.head h).cmp.staged.pres.get x ∧
          (u.head h).cmp.force.health.get x = (s.head h).cmp.staged.health.get x ∧
          (u.head h).cmp.force.brake = (s.head h).cmp.staged.brake) ∧
        (∀ x, inUse s h x = false → (u.head h).cmp.force.pres.get x = (s.head h).cmp.force.pres.get x ∧
          (u.head h).cmp.force.health.get x = (s.head h).cmp.force.health.get x) ∧
        (∀ x, inUse s h x = true → ((u.head h).cmp.slice.get x).testing = true) ∧ OtherHeadsKept h s u) ∧
    ((s.head h).fe.route.phase = .disch → (s.head h).fe.route.dischAt + 10000000 * q.disch ≤ max s.now t →
      ∃ u, exec (.routeDischargeExpiry t h) s = .next u ∧
        u = (s.advance t).modFe h (fun b => { b with route := { b.route with
          phase := .break2, dischAt := max s.now t } })) ∧
    ((s.head h).fe.route.phase = .break2 → (s.head h).fe.route.dischAt + 2000000 ≤ max s.now t →
      testRunning s h = false →
      ∃ u, exec (.routeBreak2Expiry t h) s = .next u ∧ (u.head h).fe.route.cur = q ∧
        (q.mode ≠ 1 → (u.head h).fe.route.phase = .steady ∧ (u.head h).fe.seq = ((s.head h).fe.seq + 1) % 256 ∧
          (u.head h).fe.result = 0) ∧ OtherHeadsKept h s u)

/-- R54 to R62: the impedance scheduler. A check becomes due INTERVAL after the last; overdue one further INTERVAL; a free
generator takes the next due slice; a slot's end writes result and class, or counts an interference and writes nothing;
a deferral discards the measurement; a sweep takes its generator and stops PARTIAL after 45 ms. -/
def Obligations.Impedance_scheduler : Prop :=
  ∀ (t : Nat) (s : State), awake s = true →
    (∀ (h : HeadId) (x : Sys), inUse s h x = true → ((s.head h).fe.imp.get x).dueSince = none → 0 < impInterval s h →
      ((s.head h).fe.imp.get x).lastDone + impInterval s h ≤ max s.now t →
      exec (.impCheckDue t h x) s = .next ((s.advance t).modFe h (fun b => { b with
        imp := b.imp.set x { b.imp.get x with dueSince := some (max s.now t) } }))) ∧
    (∀ (h : HeadId) (x : Sys) (d : Nat), ((s.head h).fe.imp.get x).dueSince = some d →
      ((s.head h).fe.imp.get x).overdue = false → 0 < impInterval s h → d + impInterval s h ≤ max s.now t →
      ∃ u, exec (.impOverdue t h x) s = .next u ∧ ((u.head h).fe.imp.get x).overdue = true ∧
        bit (u.head h).fe.fault 11 = true ∧ OtherHeadsKept h s u ∧ u.sections = s.sections) ∧
    (∀ (d : DieId) (g : Fin 4) (a : HeadId × Sys), (s.tone d g).slot = none → (s.tone d g).sweep = none →
      nextDue (s.advance t) d = some a →
      exec (.impSlotStart t d g) s = .next ((s.advance t).modTone d g (fun v => { v with
        slot := some { head := a.1, sys := a.2, start := max s.now t, sweep := false } }))) ∧
    (∀ (d : DieId) (g : Fin 4) (w : ToneSlot) (m : ImpMeasure), (s.tone d g).slot = some w → w.sweep = false →
      w.start + 2200000000 ≤ max s.now t →
      (m.residual ≤ 50 →
        ∃ u, exec (.impSlotEnd t d g m) s = .next u ∧ (u.tone d g).slot = none ∧
          (u.head w.head).fe.impRes.get w.sys = impWord m ∧
          ((u.head w.head).fe.imp.get w.sys).cls =
            classify (s.head w.head).fe w.sys ((s.head w.head).fe.route.cur.type == 1) m ∧
          ((u.head w.head).fe.imp.get w.sys).dueSince = none ∧ (u.die d).checks = ((s.die d).checks + 1) % 65536 ∧
          OtherHeadsKept w.head s u ∧ OtherDiesKept d s u) ∧
      (50 < m.residual →
        ∃ u, exec (.impSlotEnd t d g m) s = .next u ∧ (u.tone d g).slot = none ∧
          (u.head w.head).fe.interf = min 255 ((s.head w.head).fe.interf + 1) ∧
          (u.head w.head).fe.impRes = (s.head w.head).fe.impRes ∧ (u.head w.head).fe.imp = (s.head w.head).fe.imp ∧
          OtherHeadsKept w.head s u ∧ OtherDiesKept d s u)) ∧
    (∀ (d : DieId) (g : Fin 4) (w : ToneSlot), (s.tone d g).slot = some w → w.sweep = false →
      deferral (s.advance t) w.head = true → impExempt s w.head w.sys = false →
      exec (.impSlotAbort t d g) s = .next (((s.advance t).modTone d g (fun v => { v with slot := none })).modFe w.head
        (fun b => { b with aborts := min 255 (b.aborts + 1) }))) ∧
    (∀ (d : DieId) (g : Fin 4) (w : Sweep), (s.tone d g).sweep = some w → w.since + 45000000000 ≤ max s.now t →
      ∃ u, exec (.sweepTimeout t d g) s = .next u ∧ (u.tone d g).sweep = none ∧ (u.head w.head).fe.result = 9 ∧
        OtherHeadsKept w.head s u ∧ OtherDiesKept d s u)

/-- R62: FE_IMP_SWEEP takes the free generator it names for the points it names; a generator that another sweep holds
completes CONFLICT 8. -/
def Obligations.Impedance_sweep_takes_its_generator : Prop :=
  ∀ (t : Nat) (c : Cmd) (s : State) (h : HeadId), Accepted 0x0215 true 12 (8 * field c.payload 5 1) c (s.advance t) →
    headArg c.payload 2 = some h → headUp s h = true → field c.payload 0 1 = (dieOf h).val →
    field c.payload 1 1 ≤ 3 → (field c.payload 4 1 = 1 ∨ field c.payload 4 1 = 2) →
    1 ≤ field c.payload 5 1 → field c.payload 5 1 ≤ 16 →
    ((s.tone (dieOf h) (Fin.ofNat 4 (field c.payload 1 1))).sweep = none →
      Waits (exec (.feImpSweep t c) s) c s
          (s.modTone (dieOf h) (Fin.ofNat 4 (field c.payload 1 1)) (fun v => { v with
          sweep := some { head := h, sys := if field c.payload 4 1 = 1 then .sys1 else .sys2,
                          points := field c.payload 5 1, freq0 := field c.payload 6 4, step := field c.payload 10 2,
                          done := [], since := max s.now t, job := some s.hp.admSeq } }))) ∧
    (((s.tone (dieOf h) (Fin.ofNat 4 (field c.payload 1 1))).sweep).isSome = true →
      Answers (exec (.feImpSweep t c) s) c s .conflict 8 []
          (s.modFe h (fun b => { b with result := 8 })))

/-- R41, R53, R113, R114: an invalid run begins a gap of its slice; at 10 us it sets its flags; a gap above 8.000 us
is unbridged, its counter held at zero; a gap that ends within 8.000 us is bridged and counted. A leakage that has
stood for 200 ms sets LEAK_FAULT. -/
def Obligations.Invalid_runs_gaps_and_leakage : Prop :=
  ∀ (t : Nat) (s : State) (h : HeadId) (x : Sys), awake s = true →
    (∀ ovr cm : Bool, inRun s h = true → inUse s h x = true → (ovr = true ∨ cm = true) →
      ((s.head h).flt.slice.get x).inv = none → ((s.head h).flt.slice.get x).gap = none →
      exec (.invalidRunStart t h x ovr cm) s = .next ((s.advance t).modFltSlice h x (fun f => { f with
        inv := some { start := max s.now t, ovr := ovr, cm := cm, ovrNow := ovr, cmNow := cm, long := false }
        gap := some { start := max s.now t, stop := none, unbridged := false, settled := settled s h x } }))) ∧
    (∀ (ovr cm : Bool) (r : InvRun), ((s.head h).flt.slice.get x).inv = some r → r.long = false →
      r.start + 10000000 ≤ max s.now t →
      ∃ u, exec (.invalidRunLong t h x ovr cm) s = .next u ∧
        ((u.head h).flt.slice.get x).inv = 
          some { r with ovr := r.ovr || ovr, cm := r.cm || cm, ovrNow := ovr, cmNow := cm, long := true } ∧
        ((r.ovr || ovr) = true → bit (u.head h).fe.fault (2 + x.idx) = true) ∧
        ((r.cm || cm) = true → bit (u.head h).fe.fault (4 + x.idx) = true) ∧ OtherHeadsKept h s u) ∧
    (∀ g : Gap, ((s.head h).flt.slice.get x).gap = some g → g.unbridged = false → g.stop = none →
      g.start + 8000000 < max s.now t →
      ∃ u, exec (.gapUnbridged t h x) s = .next u ∧
        ((u.head h).flt.slice.get x).gap = some { g with unbridged := true } ∧
        ((u.head h).flt.slice.get x).settleHeld = true ∧ ((u.head h).flt.slice.get x).settleCount = 0 ∧
        bit (u.head h).flt.fault (2 + x.idx) = true ∧ (u.head h).trn.st = .wait ∧ OtherHeadsKept h s u) ∧
    (∀ (g : Gap) (r : InvRun), ((s.head h).flt.slice.get x).gap = some g → g.unbridged = false → g.stop = none →
      max s.now t ≤ g.start + 8000000 → ((s.head h).flt.slice.get x).inv = some r →
      ((s.head h).flt.slice.get x).mark = none →
      (∃ u, exec (.gapBridged t h x) s = .next u ∧ ((u.head h).flt.slice.get x).inv = none ∧
        ((u.head h).flt.slice.get x).gap = some { g with stop := some (max s.now t) } ∧
        ((u.head h).flt.slice.get x).gapBridged = (((s.head h).flt.slice.get x).gapBridged + 1) % 65536 ∧
        bit (u.head h).flt.fault x.idx = true ∧ OtherHeadsKept h s u) ∧
      (∃ u, exec (.invalidRunEnd t h x) s = .next u ∧ ((u.head h).flt.slice.get x).inv = none ∧
        ((u.head h).flt.slice.get x).gap = some { g with stop := some (max s.now t) } ∧ OtherHeadsKept h s u)) ∧
    (∀ t0 : Nat, (s.head h).fe.leakSince = some t0 → t0 + 200000000000 ≤ max s.now t → (s.head h).fe.leakFault = false →
      ∃ u, exec (.leakFaultTimer t h) s = .next u ∧ (u.head h).fe.leakFault = true ∧
        bit (u.head h).fe.fault 6 = true ∧ OtherHeadsKept h s u)

/-- R75, R77, R79, R83: XS_ADJ_SET, XS_BANDS_SET, XS_UBAND_SET and XS_PLAN_SET that break no rule of the plan store
their words and complete OK; XS_ADJ_SET and XS_PLAN_SET that break rule n complete CONFLICT n and store nothing but
the result. An XS_SET of both slices that passes its tests stores its values. XS_LISTEN_RESET zeroes TRIM of the named
slices that listen. -/
def Obligations.Frequency_plan_commands : Prop :=
  ∀ (t : Nat) (c : Cmd) (s : State),
    (∀ h, headArg c.payload 0 = some h → Accepted 0x0221 false 18 0 c (s.advance t) →
      let f : XsHead → XsHead := fun b => { b with adj := tabulate 4 (fun k => word (field c.payload (2 + 4 * k) 4) &&&
        0x80FF80FF) }
      (planBreach (s.modXs h f) h = 0 →
        Answers (exec (.xsAdjSet t c) s) c s .ok 0 []
          (s.modXs h (fun b => { f b with planResult := 0 }))) ∧
      (planBreach (s.modXs h f) h ≠ 0 →
        Answers (exec (.xsAdjSet t c) s) c s .conflict (planBreach (s.modXs h f) h) []
          (s.modXs h (fun b => { b with planResult := planBreach (s.modXs h f) h })))) ∧
    (∀ h, headArg c.payload 0 = some h → Accepted 0x0222 false 3 0 c (s.advance t) →
      planBreach (s.modXs h (fun b => { b with bands := put 0 8 (field c.payload 2 1) })) h = 0 →
        Answers (exec (.xsBandsSet t c) s) c s .ok 0 []
          (s.modXs h (fun b => { b with bands := put 0 8 (field c.payload 2 1), planResult := 0 }))) ∧
    (Accepted 0x0223 false 8 0 c (s.advance t) → field c.payload 0 1 < 16 →
      fld (word (field c.payload 4 4)) 0 13 ≤ fld (word (field c.payload 4 4)) 16 13 →
      let w := word (field c.payload 4 4) &&& 0xFFFF1FFF
      let d : Dev := { s.dev with uband := tset s.dev.uband (Fin.ofNat 16 (field c.payload 0 1)) w }
      planFirst { s with dev := d } = none →
        Answers (exec (.xsUbandSet t c) s) c s .ok 0 []
          ({ s with dev := { d with planStat := setFld d.planStat 0 4 0 } })) ∧
    (Accepted 0x0224 false 4 0 c (s.advance t) →
      let w := put 24 8 (fld (word (field c.payload 0 4)) 24 8) |||
        put 12 12 (max 500 (min 4095 (fld (word (field c.payload 0 4)) 12 12))) |||
        put 0 12 (max 1000 (min 4095 (fld (word (field c.payload 0 4)) 0 12)))
      let d : Dev := { s.dev with plan := w }
      (planFirst { s with dev := d } = none →
        Answers (exec (.xsPlanSet t c) s) c s .ok 0 []
          ({ s with dev := { d with planStat := setFld d.planStat 0 4 0 } })) ∧
      (∀ h code, planFirst { s with dev := d } = some (h, code) →
        Answers (exec (.xsPlanSet t c) s) c s .conflict code []
          ({ s with dev := { s.dev with planStat := put 16 8 h.val ||| put 0 4 code } }))) ∧
    (∀ h, headArg c.payload 0 = some h → Accepted 0x0220 false 24 0 c (s.advance t) → field c.payload 2 1 % 4 = 3 →
      field c.payload 4 4 < 131072 → field c.payload 8 4 < 131072 → field c.payload 12 2 < 2048 →
      field c.payload 14 2 < 2048 →
      xsTest h { freq := ⟨field c.payload 4 4, field c.payload 8 4⟩, amp := ⟨field c.payload 12 2, field c.payload 14 2⟩,
                 phase := ⟨field c.payload 16 2, field c.payload 18 2⟩,
                 ilim := ⟨field c.payload 20 1, field c.payload 21 1⟩, tau := field c.payload 22 1 } s = none →
        ∃ u, exec (.xsSet t c) s = .next u ∧ (u.head h).xs.freq = ⟨word (field c.payload 4 4), word (field c.payload 8 4)⟩ ∧
          (u.head h).xs.amp = put 16 11 (field c.payload 14 2) ||| put 0 11 (field c.payload 12 2) ∧
          (u.head h).xs.phase = put 16 16 (field c.payload 18 2) ||| put 0 16 (field c.payload 16 2) ∧
          (u.head h).xs.ilim = put 8 6 (max 5 (min 40 (field c.payload 21 1))) |||
            put 0 6 (max 5 (min 40 (field c.payload 20 1))) ∧
          (u.head h).xs.reg = put 0 8 (max 10 (min 200 (field c.payload 22 1))) ∧ OtherHeadsKept h s u) ∧
    (∀ h x, headArg c.payload 0 = some h → headUp s h = true → Accepted 0x0225 false 3 0 c (s.advance t) →
      x ∈ slices (field c.payload 2 1) → ((s.head h).xs.slice.get x).reg = .listen →
        ∃ u, exec (.xsListenReset t c) s = .next (complete s.hp.admSeq .ok 0 [] u) ∧ Admitted c s u ∧ ((u.head h).xs.slice.get x).trim = 0 ∧
          ((u.head h).xs.slice.get x).locked = false ∧ ((u.head h).xs.slice.get x).lockRun = 0 ∧
          ((u.head h).xs.slice.get x).reg = .listen ∧ OtherHeadsKept h s u)

/-- R67, R68, R70, R72, R79, R81: the regulator of a slice. Each event has its effect in the state that it belongs to. At a
switch point the new increment takes over from the accumulator as it stands. -/
def Obligations.Regulator_events : Prop :=
  ∀ (t : Nat) (s : State) (h : HeadId) (x : Sys), awake s = true →
    (((s.head h).xs.slice.get x).reg = .rampUp →
      exec (.regulatorRampUpDone t h x) s =
        .next ((s.advance t).modXsSlice h x (fun v =>
          { v with reg := .acquire, drive := v.preset, driveLog := [(max s.now t, v.preset)] }))) ∧
    (((s.head h).xs.slice.get x).reg = .acquire →
      ∃ u, exec (.regulatorAcquireDone t h x) s = .next u ∧
        ((u.head h).xs.slice.get x).reg = (if holdCond (s.advance t) h then .hold else .track) ∧ OtherHeadsKept h s u) ∧
    (((s.head h).xs.slice.get x).reg = .acquire → ((s.head h).xs.slice.get x).since + 100000000 ≤ max s.now t →
      ∃ u, exec (.regulatorAcquireTimeout t h x) s = .next u ∧ bit (u.head h).xs.fault x.idx = true ∧
        ((u.head h).xs.slice.get x).reg = (if holdCond (s.advance t) h then .hold else .track) ∧ OtherHeadsKept h s u) ∧
    (((s.head h).xs.slice.get x).reg = .track → holdCond (s.advance t) h = true →
      exec (.regulatorHoldBegin t h x) s = .next ((s.advance t).modXsSlice h x (fun v => { v with reg := .hold }))) ∧
    (((s.head h).xs.slice.get x).reg = .hold → holdCond (s.advance t) h = false →
      exec (.regulatorHoldEnd t h x) s = .next ((s.advance t).modXsSlice h x (fun v => { v with reg := .track }))) ∧
    (((s.head h).xs.slice.get x).reg = .rampDown →
      ∃ u, exec (.regulatorRampDownDone t h x) s = .next u ∧ ((u.head h).xs.slice.get x).reg = .off ∧
        OtherHeadsKept h s u ∧ u.dies = s.dies) ∧
    (((s.head h).xs.slice.get x).reg = .track →
      ∃ u, exec (.regulationFault t h x) s = .next u ∧ bit (u.head h).xs.fault x.idx = true ∧
        ((u.head h).xs.slice.get x).reg = .track ∧ OtherHeadsKept h s u ∧ u.dies = s.dies) ∧
    (((s.head h).xs.slice.get x).reg = .track →
      ∃ u, exec (.driverClipFault t h x) s = .next u ∧ bit (u.head h).xs.fault (2 + x.idx) = true ∧
        ((u.head h).xs.slice.get x).clip = true ∧
        u.sections = s.sections ∧ OtherHeadsKept h s u ∧ u.dies = s.dies) ∧
    (∀ chg, (s.head h).xs.chg = some chg → chg.toSwitch.get x = true →
      (((s.head h).xs.slice.get x).reg = .track ∨ ((s.head h).xs.slice.get x).reg = .hold) →
      ∃ u, exec (.carrierSwitchPoint t h x) s = .next u ∧ ((u.head h).xs.slice.get x).reg = .acquire ∧
        ((u.head h).xs.slice.get x).freq = fld ((s.head h).xs.freq.get x) 0 17 ∧
        ((u.head h).xs.slice.get x).syn.acc = ((s.head h).xs.slice.get x).syn.at (xclkTicks (s.advance t)) ∧
        ((u.head h).xs.slice.get x).syn.inc =
          ((fld ((s.head h).xs.freq.get x) 0 17 : Int) * 65536 + ((s.head h).xs.slice.get x).trim).toNat ∧
        OtherHeadsKept h s u) ∧
    (((s.head h).xs.slice.get x).reg = .listen → ((s.head h).xs.slice.get x).mismatch = false →
      100 ≤ ((s.head h).xs.slice.get x).lockRun →
      exec (.listenLocked t h x) s = .next ((s.advance t).modXsSlice h x (fun v => { v with locked := true })))

/-- R71: at 110 °C THERM_WARN is set and the drivers are untouched; at 125 °C THERM_OFF too, and every driver of the die
that drives, ramping up, acquiring, tracking or holding, ramps down, with XS_FAULT.THERM on every head of the die in RUN;
below 105 °C both flags clear. -/
def Obligations.Die_temperature : Prop :=
  ∀ (t : Nat) (s : State) (d : DieId) (tj : Int), awake s = true → dieUp s d = true →
    (220 ≤ tj →
      ∃ u, exec (.thermWarn t d tj) s = .next u ∧ (u.die d).thermWarn = true ∧ (u.die d).tj = tj ∧
        (u.die d).thermOff = (s.die d).thermOff ∧ u.heads = s.heads ∧ u.sections = s.sections ∧ OtherDiesKept d s u) ∧
    (250 ≤ tj → (s.die d).thermOff = false →
      ∃ u, exec (.thermOff t d tj) s = .next u ∧ (u.die d).thermOff = true ∧ (u.die d).thermWarn = true ∧
        (∀ (h : HeadId) (x : Sys), dieOf h = d →
          ((s.head h).xs.slice.get x).reg ∈ [RegState.rampUp, .acquire, .track, .hold] →
          ((u.head h).xs.slice.get x).reg = .rampDown) ∧
        (∀ (h : HeadId), dieOf h = d → inRun s h = true → bit (u.head h).xs.fault 6 = true) ∧
        (∀ h : HeadId, dieOf h ≠ d → u.head h = s.head h) ∧ OtherDiesKept d s u) ∧
    (tj < 210 →
      ∃ u, exec (.thermOffClear t d tj) s = .next u ∧ (u.die d).thermOff = false ∧ (u.die d).thermWarn = false ∧
        (∀ h : HeadId, dieOf h ≠ d → u.head h = s.head h) ∧ OtherDiesKept d s u)

/-- R97 to R99, R104, R110, R115: FLT_SET stores a request that passes its tests, EXTRA alone without disturbing the
chain; FLT_NOTCH_SET replaces the notches of SYS1; FLT_SWAP of SYS1 completes with the code of the test it fails,
applies a timing swap at once, and begins the fade of a timing-neutral one on a settled slice. -/
def Obligations.Filter_commands : Prop :=
  ∀ (t : Nat) (c : Cmd) (s : State) (h : HeadId), headArg c.payload 0 = some h → headUp s h = true →
    (Accepted 0x0230 false 12 0 c (s.advance t) →
      let r : FltReq :=
        { mask := slices (field c.payload 2 1), med := ⟨field c.payload 3 1 % 4, field c.payload 3 1 / 4 % 4⟩,
          manual := field c.payload 4 1, extra := field c.payload 5 1,
          delay := ⟨field c.payload 6 2, field c.payload 8 2⟩ }
      (extraAlone (s.head h).flt r = true →
        Answers (exec (.fltSet t c) s) c s .ok 0 []
          (s.modFlt h (fun b => { b with cfg := setFld b.cfg 24 8 (field c.payload 5 1), result := 0 }))) ∧
      (fltTest h r s = none → extraAlone (s.head h).flt r = false →
        ∃ u, exec (.fltSet t c) s = .next u ∧ (u.head h).flt.cfg = (fltStore r (s.head h).flt).cfg ∧
          (u.head h).flt.seq = ((s.head h).flt.seq + 1) % 256 ∧ (u.head h).flt.result = 0 ∧
          (u.head h).trn.st = .wait ∧ OtherHeadsKept h s u)) ∧
    (Accepted 0x0231 false 36 0 c (s.advance t) → field c.payload 3 1 = 0xFF → field c.payload 2 1 % 4 = 1 →
      notchRequest h [.sys1] ⟨tabulate 4 (fun k => word (field c.payload (4 + 4 * k) 4)),
        tabulate 4 (fun k => word (field c.payload (20 + 4 * k) 4))⟩ s = none →
        ∃ u, exec (.fltNotchSet t c) s = .next u ∧
          (u.head h).flt.notch = ⟨tabulate 4 (fun k => word (field c.payload (4 + 4 * k) 4)), (s.head h).flt.notch.two⟩ ∧
          (u.head h).flt.seq = ((s.head h).flt.seq + 1) % 256 ∧ OtherHeadsKept h s u) ∧
    (Accepted 0x0232 true 8 0 c (s.advance t) → field c.payload 2 1 % 4 = 1 → (s.head h).flt.fading = none →
      let w : Swap := { one := some (BitVec.ofNat 8 (field c.payload 3 1)), two := none, fade := field c.payload 6 2,
                        job := some s.hp.admSeq }
      (∀ st code, swapTest h w s = some (st, code) →
        Answers (exec (.fltSwap t c) s) c s st code []
          (s.modFlt h (fun b => { b with result := code }))) ∧
      (swapTest h w s = none → neutral s h (.sys1, BitVec.ofNat 8 (field c.payload 3 1)) = false →
        ∃ u, exec (.fltSwap t c) s = .next u ∧ (u.head h).flt.slice.one.act = BitVec.ofNat 8 (field c.payload 3 1) ∧
          (u.head h).flt.slice.two.act = (s.head h).flt.slice.two.act ∧
          (u.head h).flt.seq = ((s.head h).flt.seq + 1) % 256 ∧ OtherHeadsKept h s u) ∧
      (swapTest h w s = none → neutral s h (.sys1, BitVec.ofNat 8 (field c.payload 3 1)) = true →
        settled s h .sys1 = true → field c.payload 3 1 ≠ 0xFF →
        ∃ u, exec (.fltSwap t c) s = .next u ∧ Admitted c s u ∧ (u.head h).flt.slice.one.next = BitVec.ofNat 8 (field c.payload 3 1) ∧
          (u.head h).flt.slice.one.act = (s.head h).flt.slice.one.act ∧ (u.head h).flt.fading = some w ∧
          OtherHeadsKept h s u))

/-- R98, R99, R206: a waiting fade starts at the next FIR output; after FADE outputs ACT takes the target and, with the
last slice of the swap, the swap completes; a late sample is invalid, sets GAP_U and FD_LATE, and the head waits. -/
def Obligations.Fades_and_late_samples : Prop :=
  ∀ (t : Nat) (s : State) (h : HeadId) (x : Sys), awake s = true →
    (((s.head h).flt.slice.get x).next ≠ 0xFF → ((s.head h).flt.slice.get x).fadeAt = none →
      exec (.fadeStart t h x) s = .next ((s.advance t).modFltSlice h x (fun v => { v with fadeAt := some (max s.now t) }))) ∧
    (∀ (w : Swap) (t0 : Nat), (s.head h).flt.fading = some w → ((s.head h).flt.slice.get x).fadeAt = some t0 →
      ((s.head h).flt.slice.get x).next ≠ 0xFF → w.fade * 10 ^ 12 ≤ (max s.now t - t0) * s.firOf h x →
      (((s.head h).flt.slice.get x.other).next ≠ 0xFF →
        exec (.fadeComplete t h x) s = .next ((s.advance t).modFltSlice h x (fun v => { v with
          act := v.next, next := 0xFF, fadeAt := none }))) ∧
      (((s.head h).flt.slice.get x.other).next = 0xFF → (s.head h).flt.queue = none →
        ∃ u, exec (.fadeComplete t h x) s = .next u ∧
          ((u.head h).flt.slice.get x).act = ((s.head h).flt.slice.get x).next ∧
          ((u.head h).flt.slice.get x).next = 0xFF ∧ (u.head h).flt.fading = none ∧
          (u.head h).flt.seq = ((s.head h).flt.seq + 1) % 256 ∧ bit (u.head h).flt.fault 10 = true ∧
          OtherHeadsKept h s u)) ∧
    (inRun s h = true → inUse s h x = true → 0 < s.epc.tickAt →
      ((s.head h).flt.slice.get x).sampleAt ≠ s.epc.tickAt → s.epc.tickAt + 4000000 ≤ max s.now t + 1 →
      ∃ u, exec (.trackSampleLate t h x) s = .next u ∧ ((u.head h).flt.slice.get x).sample.valid = false ∧
        bit (u.head h).flt.fault (2 + x.idx) = true ∧ bit u.epc.fault 4 = true ∧
        bit u.epc.fdLate (dieOf h).val = true ∧ (u.head h).trn.st = .wait ∧ OtherHeadsKept h s u)

/-- R94, R117: a load that passes its tests fills its slot; a free empties a slot that its owner does not use; a read
returns the slot's word and coefficients and changes nothing of the device. -/
def Obligations.Coefficient_slots : Prop :=
  ∀ (t : Nat) (c : Cmd) (s : State) (d : DieId), dieArg c.payload 0 = some d → dieUp s d = true →
    field c.payload 1 1 ≤ 127 →
    (Accepted 0x0233 true 264 0 c (s.advance t) →
      let coef := (List.range 64).map (fun i => BitVec.ofNat 20 (field c.payload (8 + 4 * i) 4))
      let x : Sys := if field c.payload 3 1 = 2 then .sys2 else .sys1
      let k : Fin 128 := Fin.ofNat 128 (field c.payload 1 1)
      let b : BankSlot :=
        { loaded := true, kind := field c.payload 4 1 == 1, cmax := field c.payload 6 1, cmin := field c.payload 5 1,
          gd := bankGd coef, owned := true, sys := x, head := field c.payload 2 1, coef := coef }
      field c.payload 2 1 ≤ 31 → (field c.payload 3 1 = 1 ∨ field c.payload 3 1 = 2) → field c.payload 4 1 ≤ 1 →
      field c.payload 6 1 ≤ 7 → field c.payload 5 1 ≤ field c.payload 6 1 →
      ((tget (s.die d).slots k).owned = false ∨
        ownedBy (tget (s.die d).slots k) (Fin.ofNat 256 (32 * d.val + field c.payload 2 1)) x = true) →
      slotInUse s d k = false → 519045 ≤ coefSum coef → coefSum coef ≤ 529531 →
        Answers (exec (.fltBankLoad t c) s) c s .ok 0 []
          (s.modDie d (fun e => { e with
            bankRes := 0, bankSlot := field c.payload 1 1, slots := tset e.slots k b }))) ∧
    (Accepted 0x0234 false 2 0 c (s.advance t) →
      (slotInUse s d (Fin.ofNat 128 (field c.payload 1 1)) = false →
        Answers (exec (.fltBankFree t c) s) c s .ok 0 []
          (s.modDie d (fun e => { e with
            bankRes := 0, bankSlot := field c.payload 1 1,
            slots := tset e.slots (Fin.ofNat 128 (field c.payload 1 1)) BankSlot.reset }))) ∧
      (slotInUse s d (Fin.ofNat 128 (field c.payload 1 1)) = true →
        Answers (exec (.fltBankFree t c) s) c s .conflict 7 []
          (s.modDie d (fun e => { e with bankRes := 7, bankSlot := field c.payload 1 1 })))) ∧
    (Accepted 0x0235 true 2 260 c (s.advance t) →
      Answers (exec (.fltBankRead t c) s) c s .ok 0 (leWord (slotWord s d (Fin.ofNat 128 (field c.payload 1 1))) ++
            coefBytes (tget (s.die d).slots (Fin.ofNat 128 (field c.payload 1 1))))
          s)

/-- R122, R127, R141, R142: CMP_SET stages the values of the named slices if they are in order, without touching those in
force, and completes CONFLICT with RANGE or ORDER otherwise; CMP_STATUS returns the status registers and changes
nothing of the device. -/
def Obligations.Comparator_commands : Prop :=
  ∀ (t : Nat) (c : Cmd) (s : State) (h : HeadId), headArg c.payload 0 = some h → headUp s h = true →
    (Accepted 0x0240 false 32 0 c (s.advance t) →
      (cmpSetRange c.payload = true → cmpOrder (cmpSetWords c.payload (s.head h).cmp.staged) = true →
        Answers (exec (.cmpSet t c) s) c s .ok 0 []
          (s.modCmp h (fun b => { b with staged := cmpSetWords c.payload b.staged, result := 0 }))) ∧
      (cmpSetRange c.payload = true → cmpOrder (cmpSetWords c.payload (s.head h).cmp.staged) = false →
        Answers (exec (.cmpSet t c) s) c s .conflict 4 []
          (s.modCmp h (fun b => { b with result := 4 }))) ∧
      (cmpSetRange c.payload = false →
        Answers (exec (.cmpSet t c) s) c s .conflict 1 []
          (s.modCmp h (fun b => { b with result := 1 })))) ∧
    (Accepted 0x0241 false 2 32 c (s.advance t) →
      Answers (exec (.cmpStatus t c) s) c s .ok 0 (leWords [cmpStat s h, (s.head h).cmp.fault, (s.head h).cmp.rbA.one, (s.head h).cmp.rbB.one,
          (s.head h).cmp.rbA.two, (s.head h).cmp.rbB.two,
          put 16 16 (s.head h).cmp.notrn ||| put 0 16 (s.head h).cmp.trips, put 0 16 (holdUs s h)])
          s)

/-- R121, R123, R132, R374: an envelope at or below ASSERT asserts presence at once, starts the occultation timer and sets
the trip latch of every section bound to the head; it releases with the timer ended and the envelope at or above
RELEASE, and with the timer running or the envelope below RELEASE nothing changes; an episode without a transit is counted and flagged. -/
def Obligations.Presence_comparator : Prop :=
  ∀ (t e : Nat) (s : State) (h : HeadId) (x : Sys), awake s = true →
    (cmpLive s h x = true → e ≤ assertThr s h x →
      ∃ u, exec (.presenceAssert t h x e) s = .next u ∧ ((u.head h).cmp.slice.get x).asserted = true ∧
        ((u.head h).cmp.slice.get x).occEnd = some (max s.now t + 1000000 * occUs s h x) ∧
        (u.head h).cmp.episode.isSome = true ∧
        (∀ n : SecId, boundTo h (s.sec n) = true → (u.sec n).latch = true) ∧ OtherHeadsKept h s u) ∧
    (cmpLive s h x = true → ((s.head h).cmp.slice.get x).asserted = true → occDone (s.advance t) h x = true →
      releaseThr s h x ≤ e →
      ∃ u, exec (.presenceRelease t h x e) s = .next u ∧ ((u.head h).cmp.slice.get x).asserted = false ∧
        ((u.head h).cmp.slice.get x).occEnd = none ∧ OtherHeadsKept h s u) ∧
    (occDone (s.advance t) h x = false ∨ e < releaseThr s h x →
      exec (.presenceRelease t h x e) s = .next (s.advance t)) ∧
    (∀ t0 : Nat, ((s.head h).cmp.slice.get x).occEnd = some t0 → t0 ≤ max s.now t →
      ∃ u, exec (.occultationExpiry t h x e) s = .next u ∧ ((u.head h).cmp.slice.get x).occEnd = none ∧
        ((u.head h).cmp.slice.get x).asserted =
          (((s.head h).cmp.slice.get x).asserted &&
            !(!((s.head h).cmp.slice.get x).forced && !((s.head h).cmp.slice.get x).testing && inUse s h x &&
              headUp s h && decide (releaseThr s h x ≤ e))) ∧ OtherHeadsKept h s u) ∧
    (∀ a b : Nat, trnIdle s h = true → (s.head h).cmp.judge = [(a, b)] → b + holdOf s h ≤ max s.now t →
      (∀ i ∈ (s.head h).trn.issuedEnds, i < a) →
      ∃ u, exec (.presenceEpisodeJudgement t h) s = .next u ∧ (u.head h).cmp.judge = [] ∧
        (u.head h).cmp.notrn = ((s.head h).cmp.notrn + 1) % 65536 ∧ bit (u.head h).cmp.fault 9 = true ∧
        OtherHeadsKept h s u ∧ u.sections = s.sections)

/-- R63, R121, R131, R132: a side of the health window that trips is out and sets the latch of every bound section; with
the window wholly in before and no expected trip it is a wiring fault, which sets its flag and marks the samples; a side
returns with its hysteresis; a rail fault holds the slice tripped and is counted. -/
def Obligations.Health_window_and_rails : Prop :=
  ∀ (t e : Nat) (s : State) (h : HeadId) (x : Sys), awake s = true →
    (∀ side : Side, cmpLive s h x = true → outCond s h x e side = true →
      ∃ u, exec (.healthTrip t h x side e) s = .next u ∧ sideOut ((u.head h).cmp.slice.get x) side = true ∧
        (∀ n : SecId, boundTo h (s.sec n) = true → (u.sec n).latch = true) ∧
        (healthOut s h x = false → (s.head h).fe.route.window = false →
          bit (u.head h).fe.fault x.idx = true ∧ ((u.head h).flt.slice.get x).healthMark = some (max s.now t) ∧
          (u.head h).trn.st = .wait ∧ ((u.head h).fe.imp.get x).urgent = true) ∧ OtherHeadsKept h s u) ∧
    (∀ side : Side, cmpLive s h x = true → sideOut ((s.head h).cmp.slice.get x) side = true →
      backCond s h x e side = true →
      ∃ u, exec (.healthReturn t h x side e) s = .next u ∧ sideOut ((u.head h).cmp.slice.get x) side = false ∧
        (healthOut u h x = false → ((u.head h).flt.slice.get x).healthMark = none) ∧ OtherHeadsKept h s u) ∧
    (headUp s h = true → inUse s h x = true →
      ∃ u, exec (.railFault t h x) s = .next u ∧ ((u.head h).cmp.slice.get x).railHold = true ∧
        bit (u.head h).cmp.fault (4 + x.idx) = true ∧ u.dev.railCount = min (s.dev.railCount + 1) 65535 ∧
        u.dev.railSlice = 2 * h.val + x.idx ∧
        (∀ n : SecId, boundTo h (s.sec n) = true → (u.sec n).latch = true) ∧ OtherHeadsKept h s u)

/-- R125, R126: a brake envelope at or above SET sets its comparator and begins a recognition, flagged and marked in
the passage; below CLEAR the comparator clears, and with both clear the hold begins; recognition ends with the hold. -/
def Obligations.Brake_recognition : Prop :=
  ∀ (t level : Nat) (s : State) (h : HeadId) (x : Sys), awake s = true →
    (headUp s h = true → inUse s h x = true → fld (s.head h).cmp.force.brake 0 10 ≤ level →
      ∃ u, exec (.brakeComparatorSet t h x level) s = .next u ∧ ((u.head h).cmp.slice.get x).brk = true ∧
        (u.head h).cmp.brakeSince.isSome = true ∧ (u.head h).cmp.brakeHold = none ∧
        ((s.head h).cmp.brakeSince = none → bit (u.head h).cmp.fault 7 = true ∧
          (u.head h).cmp.brakeSince = some (max s.now t) ∧
          (∀ p, (u.head h).trn.pass = some p → p.brake = true)) ∧
        u.sections = s.sections ∧ OtherHeadsKept h s u) ∧
    (((s.head h).cmp.slice.get x).brk = true → level < fld (s.head h).cmp.force.brake 16 10 →
      ∃ u, exec (.brakeComparatorClear t h x level) s = .next u ∧ ((u.head h).cmp.slice.get x).brk = false ∧
        (u.head h).cmp.brakeSince = (s.head h).cmp.brakeSince ∧
        (((s.head h).cmp.slice.get x.other).brk = false →
          (u.head h).cmp.brakeHold = some (max s.now t + brakeHoldOf s h)) ∧
        u.sections = s.sections ∧ OtherHeadsKept h s u) ∧
    (∀ t0, (s.head h).cmp.brakeHold = some t0 → (s.head h).cmp.brakeSince.isSome = true → t0 ≤ max s.now t →
      exec (.brakeRecognitionEnd t h) s = .next ((s.advance t).modCmp h (fun c => { c with
        brakeSince := none, brakeHold := none, brakeEnded := some (max s.now t) })))

/-- R128, R138, R139: the comparator test ends with its read-back, the slice forced again, held tripped if any part
failed; the forced state ends when the slice is settled; an envelope hold ends 8 us after it began. -/
def Obligations.Comparator_test_and_forced_state : Prop :=
  ∀ (t : Nat) (s : State) (h : HeadId) (x : Sys), awake s = true →
    (∀ r : TestResult, ((s.head h).cmp.slice.get x).testing = true → (s.head h).fe.route.testEnd ≤ max s.now t →
      (s.head h).fe.route.phase ≠ .break2 →
      ∃ u, exec (.comparatorTestEnd t h x r) s = .next u ∧ ((u.head h).cmp.slice.get x).testing = false ∧
        ((u.head h).cmp.slice.get x).testHold = !(dacOk r && r.compOk && r.railOk) ∧
        ((u.head h).cmp.slice.get x).forced = true ∧ bit (u.head h).cmp.fault 8 = true ∧
        (dacOk r = false → bit (u.head h).cmp.fault x.idx = true) ∧
        (r.compOk = false → bit (u.head h).cmp.fault (2 + x.idx) = true) ∧
        (r.railOk = false → bit (u.head h).cmp.fault (4 + x.idx) = true) ∧ OtherHeadsKept h s u) ∧
    (∀ e : Nat, settled s h x = true → ((s.head h).cmp.slice.get x).forced = true →
      ((s.head h).cmp.slice.get x).testing = false →
      ∃ u, exec (.settleComplete t h x e) s = .next u ∧ ((u.head h).cmp.slice.get x).forced = false ∧
        ((u.head h).cmp.slice.get x).asserted = (decide (e < releaseThr s h x) || !occDone (s.advance t) h x) ∧
        ((u.head h).cmp.slice.get x).lowOut = decide (e < lowThr s h x + hhyst s h) ∧
        ((u.head h).cmp.slice.get x).highOut = decide (highThr s h x < e + hhyst s h) ∧ OtherHeadsKept h s u) ∧
    (∀ t0, ((s.head h).cmp.slice.get x).envHold = some t0 → t0 ≤ max s.now t →
      exec (.envelopeHoldEnd t h x) s = .next ((s.advance t).modCmpSlice h x (fun c => { c with envHold := none })))

/-- R164 to R168: TRN_SET stores words that pass its tests or completes with the code of the one it fails, TRN_SETREF
of SYS1 captures the mean of the last 10,000 settled samples or completes CONFLICT 5, TRN_STATUS returns the
registers. -/
def Obligations.Transit_commands : Prop :=
  ∀ (t : Nat) (c : Cmd) (s : State) (h : HeadId), headArg c.payload 0 = some h → headUp s h = true →
    (Accepted 0x0250 false 32 0 c (s.advance t) →
      let w := trnMask { geom := word (field c.payload 2 4), det := word (field c.payload 6 4),
                         val := word (field c.payload 10 4), valb := word (field c.payload 14 4),
                         len := word (field c.payload 18 4), lenb := word (field c.payload 22 4),
                         cal := word (field c.payload 26 4) }
      (trnTest h w s = none →
        ∃ v, exec (.trnSet t c) s = .next (complete s.hp.admSeq .ok 0 [] v) ∧ Admitted c s v ∧ trnHeld (v.head h).trn = w ∧
          (v.head h).trn.result = 0 ∧ OtherHeadsKept h s v) ∧
      (∀ st code, trnTest h w s = some (st, code) →
        Answers (exec (.trnSet t c) s) c s st code []
          (s.modTrn h (fun b => { b with result := code })))) ∧
    (Accepted 0x0251 false 3 0 c (s.advance t) → field c.payload 2 1 = 1 → trnBusyTest h s = none →
      (setrefOk s h .sys1 = true → setrefHead (s.advance t) h = true →
        ∃ v, exec (.trnSetref t c) s = .next (complete s.hp.admSeq .ok 0 [] v) ∧ Admitted c s v ∧
          (v.head h).trn.baseref = ⟨put 31 1 1 |||
            put 0 20 (sumNat ((s.head h).trn.slice.one.okMags.take 10000) / 10000), (s.head h).trn.baseref.two⟩ ∧
          bit (v.head h).trn.fault 6 = true ∧ (v.head h).trn.st = .wait ∧ OtherHeadsKept h s v) ∧
      (setrefOk s h .sys1 = false →
        Answers (exec (.trnSetref t c) s) c s .conflict 5 []
          (s.modTrn h (fun b => { b with result := 5 })))) ∧
    (Accepted 0x0252 false 2 72 c (s.advance t) →
      Answers (exec (.trnStatus t c) s) c s .ok 0 (leWords (trnRegs s h))
          s)

/-- R146, R151, R156, R157: a track tick with valid settled samples of both slices takes the head from WAIT to IDLE when
neither is in dip, and from IDLE to ONE or TWO when one of them enters its dip; an invalid sample takes it to WAIT, the
depth of a slice with a good sample still being formed. A held passage whose checks all pass counts in its direction; one that fails a check counts as rejected. -/
def Obligations.Transit_machine : Prop :=
  ∀ (t : Nat) (s : State) (h : HeadId), awake s = true →
    (inRun s h = true → inUse s h .sys1 = true → inUse s h .sys2 = true → samplesIn s h = true →
      (s.head h).trn.histTick ≠ s.epc.tickAt →
      ((∀ x, ((s.head h).flt.slice.get x).sample.valid = true ∧ ((s.head h).flt.slice.get x).sample.settled = true) →
        (∀ x, ((s.head h).trn.slice.get x).dip = false) →
        ((s.head h).trn.st = .wait →
          (∀ x, depthOf (baseInt (baseFrom (s.head h).trn x ((s.head h).flt.slice.get x).sample.mag))
            ((s.head h).flt.slice.get x).sample.mag < onDepth (s.head h).trn) →
          ∃ u, exec (.transitStep t h) s = .next u ∧ (u.head h).trn.st = .idle ∧ (u.head h).trn.pass = none ∧
            OtherHeadsKept h s u ∧ u.sections = s.sections) ∧
        (∀ x : Sys, (s.head h).trn.st = .idle → (s.head h).trn.pass = none →
          onDepth (s.head h).trn ≤ depthOf (baseInt ((s.head h).trn.slice.get x).base)
            ((s.head h).flt.slice.get x).sample.mag →
          depthOf (baseInt ((s.head h).trn.slice.get x.other).base)
            ((s.head h).flt.slice.get x.other).sample.mag < onDepth (s.head h).trn →
          ∃ u, exec (.transitStep t h) s = .next u ∧
            (u.head h).trn.st = (match x with
              | .sys1 => .one
              | .sys2 => .two) ∧
            (∃ p, (u.head h).trn.pass = some p ∧ p.entry = x ∧ p.reversals = 0) ∧ OtherHeadsKept h s u ∧
            u.sections = s.sections)) ∧
      (∀ x, ((s.head h).flt.slice.get x).sample.valid = false →
        ∃ u, exec (.transitStep t h) s = .next u ∧ (u.head h).trn.st = .wait ∧
          (∀ y, goodSample s h y = true → ((u.head h).trn.slice.get y).depth =
            depthOf (baseInt ((s.head h).trn.slice.get y).base) ((s.head h).flt.slice.get y).sample.mag) ∧
          OtherHeadsKept h s u)) ∧
    (∀ (p : Passage) (rest : List Passage), (s.head h).trn.held = p :: rest → p.endAt + 1000000000 ≤ max s.now t →
      p.incomplete = false →
      (validate p (measure p) (s.head h).trn.lastAcc = 0 →
        ∃ u, exec (.passageValidation t h) s = .next u ∧ (u.head h).trn.held = rest ∧
          (u.head h).trn.seq = ((s.head h).trn.seq + 1) % 65536 ∧
          (u.head h).trn.cntFwd = (if (measure p).rev then (s.head h).trn.cntFwd
            else ((s.head h).trn.cntFwd + 1) % 2 ^ 32) ∧
          (u.head h).trn.cntRev = (if (measure p).rev then ((s.head h).trn.cntRev + 1) % 2 ^ 32
            else (s.head h).trn.cntRev) ∧
          (u.head h).trn.cntRej = (s.head h).trn.cntRej ∧
          (u.head h).trn.lastAcc =
            some { stamp := (measure p).stamp, rev := (measure p).rev, rocked := decide (0 < p.reversals) } ∧
          OtherHeadsKept h s u) ∧
      (validate p (measure p) (s.head h).trn.lastAcc ≠ 0 →
        ∃ u, exec (.passageValidation t h) s = .next u ∧ (u.head h).trn.held = rest ∧
          (u.head h).trn.cntRej = ((s.head h).trn.cntRej + 1) % 65536 ∧
          (u.head h).trn.cntFwd = (s.head h).trn.cntFwd ∧ (u.head h).trn.cntRev = (s.head h).trn.cntRev ∧
          (u.head h).trn.lastAcc = (s.head h).trn.lastAcc ∧ bit (u.head h).trn.fault 0 = true ∧
          OtherHeadsKept h s u))

/-- R171, R186, R196: the configuration commands of a section at admission. SEC_BIND replaces the bindings, and an
added head sets the trip latch; SEC_SET stores the defined bits; SEC_SERVICE and SEC_DISTURB wait for the next
evaluation. A SEC_BIND or SEC_SET that fails its test, and SEC_DISTURB in another role, write RESULT only. -/
def Obligations.Section_commands : Prop :=
  ∀ (t : Nat) (c : Cmd) (s : State) (n : SecId), secArg c.payload 0 = some n →
    (Accepted 0x0260 false 20 0 c (s.advance t) → field c.payload 2 1 ≤ 8 →
      let e := (List.range (field c.payload 2 1)).map (fun i => word (field c.payload (4 + 2 * i) 2))
      (bindTest s n e = 0 →
        ∃ v, exec (.secBind t c) s = .next (complete s.hp.admSeq .ok 0 [] v) ∧ Admitted c s v ∧
          (v.sec n).bind = tabulate 8 (fun k => (e.map (fun w => w &&& 0x81FF)).getD k 0) ∧ (v.sec n).quietEl = 0 ∧
          (v.sec n).statRes = 0 ∧ (v.sec n).core = (s.sec n).core ∧
          ((s.sec n).latch = true → (v.sec n).latch = true) ∧
          (∀ h, boundTo h (v.sec n) = true → boundTo h (s.sec n) = false → (v.sec n).latch = true) ∧
          (∀ m, m ≠ n → v.sec m = s.sec m) ∧ v.heads = s.heads) ∧
      (bindTest s n e ≠ 0 →
        Answers (exec (.secBind t c) s) c s .conflict (bindTest s n e) []
          (s.modSec n (fun x => { x with statRes := bindTest s n e })))) ∧
    (Accepted 0x0261 false 10 0 c (s.advance t) →
      let cfg := word (field c.payload 2 4)
      let m := word (field c.payload 6 4)
      (setTest s n cfg m = 0 →
        Answers (exec (.secSet t c) s) c s .ok 0 []
          (s.modSec n (fun x => { x with
            cfg := cfg &&& cfgMask, match_ := m &&& matchMask, statRes := 0
            core := if secMode cfg = 0 then { x.core with ledger := [] } else x.core }))) ∧
      (setTest s n cfg m ≠ 0 →
        Answers (exec (.secSet t c) s) c s .conflict (setTest s n cfg m) []
          (s.modSec n (fun x => { x with statRes := setTest s n cfg m })))) ∧
    (Accepted 0x0262 false 3 0 c (s.advance t) → serviceTest s n (field c.payload 2 1) = 0 →
      Waits (exec (.secService t c) s) c s
          (s.modSec n (fun x => { x with cmds := x.cmds ++
          [{ op := .service (field c.payload 2 1 == 1), job := some s.hp.admSeq, at_ := max s.now t, wr := none }] }))) ∧
    (Accepted 0x0263 false 2 0 c (s.advance t) →
      (s.zl.role = 2 → (s.sec n).core.service = true →
        Waits (exec (.secDisturb t c) s) c s
          (s.modSec n (fun x => { x with cmds := x.cmds ++
            [{ op := .disturb, job := some s.hp.admSeq, at_ := max s.now t, wr := none }] }))) ∧
      (s.zl.role ≠ 2 →
        Answers (exec (.secDisturb t c) s) c s .conflict 7 []
          (s.modSec n (fun x => { x with statRes := 7 }))))

/-- R196, R201, R203: SEC_STATUS and SEC_LEDGER_READ wait for the end of a quiet window and change nothing of the section. The
boundary that ends it writes the ledger, or the registers, of the section in the state latched there, completing the
command. -/
def Obligations.Section_snapshots : Prop :=
  (∀ (t : Nat) (c : Cmd) (s : State) (n : SecId), secArg c.payload 0 = some n →
    (Accepted 0x0265 false 2 96 c (s.advance t) →
      Waits (exec (.secStatus t c) s) c s ({ s with epc := { s.epc with
        snaps := s.epc.snaps ++ [{ sec := n, ledger := false, job := s.hp.admSeq }] } })) ∧
    (Accepted 0x0264 true 2 0 c (s.advance t) →
      Waits (exec (.secLedgerRead t c) s) c s ({ s with epc := { s.epc with
        snaps := s.epc.snaps ++ [{ sec := n, ledger := true, job := s.hp.admSeq }] } }))) ∧
  (∀ (t : Nat) (i : BoundaryInput) (s : State) (w : Snap) (e : InFlight), s.phase = .running → s.epc.quiet = true →
    s.epc.start + 100000000 ≤ max s.now t → s.epc.snaps = [w] → s.hp.inflight = [e] → e.admSeq = w.job →
    e.lost = false → canMaster s = true → (s.orbit (compOrbit e.orbit)).en = true → s.tb.step = none →
    ∃ u post, exec (.epochBoundary t i) s = .next u ∧ u.epc.snaps = [] ∧ u.hp.inflight = [] ∧
      (w.ledger = true → (ledgerBytes w.sec.val (s.sec w.sec).core (s.epc.seq + 1)).length ≤ e.rlen →
        u.out = post ++ (dmaRequests s.hp.maxPayload e.raddr []
          (ledgerBytes w.sec.val (s.sec w.sec).core (s.epc.seq + 1))).reverse ++ s.out) ∧
      (w.ledger = false → 96 ≤ e.rlen →
        ∃ x : Section, x.core = (s.sec w.sec).core ∧ x.cfg = (s.sec w.sec).cfg ∧ x.match_ = (s.sec w.sec).match_ ∧
          x.bind = (s.sec w.sec).bind ∧ x.quietEl = min ((s.sec w.sec).quietEl + 1) (2 ^ 32 - 1) ∧
          (x.latch = true → (s.sec w.sec).latch = true) ∧
          u.out = post ++ (dmaRequests s.hp.maxPayload e.raddr [] (leWords (secRegs x))).reverse ++ s.out))

/-- R187, R191: in an active device with a key, a reset command whose epoch is within the window takes a new nonce. With
every token right, the section in service and DISTURBED, its heads fit and, for the direct form, the quiet time met, it
waits for the next evaluation; the supervised form with a wrong token completes NOT_AUTHORISED 5 and is counted. -/
def Obligations.Authorised_section_commands : Prop :=
  ∀ (t : Nat) (c : Cmd) (s : State) (n : SecId) (key : List Byte), secArg c.payload 0 = some n → s.zl.role = 2 → s.key = some key →
    tokenWindow s (field c.payload 2 6) = true →
    (Accepted 0x0270 false 16 0 c (s.advance t) →
      (slice c.payload 8 8 = token key 0x0270 n.val (field c.payload 2 6) (s.sec n).nonce →
        (s.sec n).core.service = true → (s.sec n).core.state = .disturbed → allFit s (s.sec n) = true →
        Waits (exec (.secResetSup t c) s) c s
        (s.modSec n (fun x => { x with nonce := Config.random s.free, cmds := x.cmds ++
            [{ op := .reset false, job := some s.hp.admSeq, at_ := max s.now t, wr := none }] }))) ∧
      (slice c.payload 8 8 ≠ token key 0x0270 n.val (field c.payload 2 6) (s.sec n).nonce →
        ∃ v, exec (.secResetSup t c) s = .next (complete s.hp.admSeq .notAuthorised 5 [] v) ∧ Admitted c s v ∧
          (v.sec n).authRes = 5 ∧ (v.sec n).fails = min ((s.sec n).fails + 1) 65535 ∧
          (v.sec n).nonce = Config.random s.free ∧ (v.sec n).cmds = (s.sec n).cmds ∧
          bit (v.sec n).core.fault 7 = true ∧ (v.sec n).core.state = (s.sec n).core.state ∧
          (∀ m, m ≠ n → v.sec m = s.sec m))) ∧
    (Accepted 0x0271 false 24 0 c (s.advance t) →
      slice c.payload 8 8 = token key 0x0271 n.val (field c.payload 2 6) (s.sec n).nonce →
      slice c.payload 16 8 = token key 0x8271 n.val (field c.payload 2 6) (s.sec n).nonce →
      (s.sec n).core.service = true → (s.sec n).core.state = .disturbed → allFit s (s.sec n) = true →
      quietMet (s.sec n) (s.sec n).quietEl = true →
      Waits (exec (.secResetDir t c) s) c s
        (s.modSec n (fun x => { x with nonce := Config.random s.free, cmds := x.cmds ++
          [{ op := .reset true, job := some s.hp.admSeq, at_ := max s.now t, wr := none }] })))

/-- R4, R262, R302, R307, R323, R324: TB_SET stores mode and discipline words; TB_STEP with APPLY 0 waits for the first boundary at
least 2 us away, one step at a time; a read that includes TB_NOW_LO or TB_EPOCH_LO captures the high half and returns the
bytes that its enables select, and one of more than 16 doublewords or across a page captures and returns nothing. -/
def Obligations.Time_base_commands : Prop :=
  ∀ (t : Nat) (s : State),
    (∀ c : Cmd, Accepted 0x0290 false 8 0 c (s.advance t) →
      Answers (exec (.tbSet t c) s) c s .ok 0 []
          ({ s with tb := { s.tb with
          cfg := word (field c.payload 0 4) &&& 3, disc := word (field c.payload 4 4), result := 0 } })) ∧
    (∀ c : Cmd, Accepted 0x0291 true 16 0 c (s.advance t) →
      (field c.payload 0 1 ≤ 1 → field c.payload 2 6 = 0 → s.tb.step = none →
        Waits (exec (.tbStep t c) s) c s
          ({ s with tb := { s.tb with
            result := 0
            step := some { absolute := field c.payload 0 1 == 1, value := BitVec.ofNat 64 (field c.payload 8 8),
                           atSeq := if max s.now t + 2000000 ≤ s.epc.start + 100000000 then s.epc.seq + 1
                                    else s.epc.seq + 2
                           job := some s.hp.admSeq } } })) ∧
      (field c.payload 0 1 ≤ 1 → field c.payload 2 6 = 0 → s.tb.step.isSome = true →
        Answers (exec (.tbStep t c) s) c s .refusedBusy 3 []
          ({ s with tb := { s.tb with result := 3 } })) ∧
      (1 < field c.payload 0 1 →
        Answers (exec (.tbStep t c) s) c s .conflict 1 []
          ({ s with tb := { s.tb with result := 1 } }))) ∧
    (hostOk s = true → ∀ r : BusRead,
      (readOk r = true → readIncludes r 0x4A000 = true → readIncludes r 0x47000 = false →
        ∃ u, exec (.tbNowLoRead t r) s = .next u ∧
          u.tb.nowHi = word (tbNow s (max s.now t) % 2 ^ 64 / 2 ^ 32) ∧
          (readIncludes r 0x4A008 = false → u.tb.epochHi = s.tb.epochHi) ∧
          (r.off = 0x4A000 → r.dwords = 1 → u.hp.readData =
            some (enabledBytes r.firstBe (word (tbNow s (max s.now t) % 2 ^ 64)))) ∧
          (r.off = 0x4A000 → r.dwords = 2 → r.firstBe = 15 → r.lastBe = 15 →
            u.hp.readData = some (le 8 (tbNow s (max s.now t) % 2 ^ 64))) ∧
          u.device = ({ s with tb := u.tb }).device) ∧
      (readOk r = true → readIncludes r 0x4A008 = true → readIncludes r 0x47000 = false →
        ∃ u, exec (.tbEpochLoRead t r) s = .next u ∧ u.tb.epochHi = word (tbEpoch s / 2 ^ 32) ∧
          (r.off = 0x4A008 → r.dwords = 1 →
            u.hp.readData = some (enabledBytes r.firstBe (word (tbEpoch s)))) ∧
          u.device = ({ s with tb := u.tb }).device) ∧
      (readOk r = false →
        exec (.tbNowLoRead t r) s = .next { s.advance t with hp := { s.hp with readData := none } } ∧
        exec (.tbEpochLoRead t r) s = .next { s.advance t with hp := { s.hp with readData := none } }))

/-- R303 to R305: the tenth good edge locks PPS mode, an edge beyond PPS_LIM is flagged and costs the lock, 1 s within
0.01 ppm locks FREQ mode, the loss of a reference in use freezes the rate in HOLDOVER, and its return re-acquires.
Heads and sections are untouched. -/
def Obligations.Time_base_discipline : Prop :=
  ∀ (t : Nat) (s : State), awake s = true →
    (∀ e err : Int, e = ppsError (tbCapture (s.advance t) err) (sext 16 (fld s.tb.disc 0 16)) →
      (s.tb.mode = 2 → s.tb.st = .acquire → 9 ≤ s.tb.ppsGood → e.natAbs ≤ 100 →
        ∃ u, exec (.ppsEdge t err) s = .next u ∧ u.tb.st = .locked ∧ u.tb.ppsErr = satInt 32 e ∧ bit u.tb.fault 1 = true ∧
          u.tb.lastPps = some (max s.now t) ∧ u.heads = s.heads ∧ u.sections = s.sections) ∧
      (usesPps s.tb.mode = true → s.tb.st = .locked → ppsLim s.tb.disc * 1000 < e.natAbs →
        ∃ u, exec (.ppsEdge t err) s = .next u ∧ u.tb.st = .acquire ∧ u.tb.ppsErr = satInt 32 e ∧
          bit u.tb.fault 5 = true ∧ u.tb.dev = s.tb.dev ∧ u.heads = s.heads ∧ u.sections = s.sections)) ∧
    (s.tb.mode = 1 → s.tb.st = .acquire →
      ∃ u, exec (.tbFreqLock t) s = .next u ∧ u.tb.st = .locked ∧ bit u.tb.fault 1 = true ∧ u.heads = s.heads ∧
        u.sections = s.sections) ∧
    (uses10M s.tb.mode = true → s.tb.st = .locked →
      ∃ u, exec (.ref10mLoss t) s = .next u ∧ u.tb.st = .holdover ∧ u.tb.refOk = false ∧ u.tb.dev = s.tb.dev ∧
        bit u.tb.fault 2 = true ∧ bit u.tb.fault 3 = true ∧ u.heads = s.heads ∧ u.sections = s.sections) ∧
    (∀ p : Nat, s.tb.lastPps = some p → p + 1500000000000 ≤ max s.now t → usesPps s.tb.mode = true →
      s.tb.st = .locked →
      ∃ u, exec (.ppsLoss t) s = .next u ∧ u.tb.st = .holdover ∧ u.tb.ppsOk = false ∧ u.tb.dev = s.tb.dev ∧
        bit u.tb.fault 2 = true ∧ bit u.tb.fault 4 = true ∧ u.heads = s.heads ∧ u.sections = s.sections) ∧
    (s.tb.st = .holdover →
      ∃ u, exec (.referenceReturn t) s = .next u ∧ u.tb.st = .acquire ∧ u.heads = s.heads ∧ u.sections = s.sections)

/-- R290 to R294: a message makes its source pending; at a commit the lowest-numbered pending unmasked source becomes
active and its message leaves, or is held where MSI-X masks it; the write that unmasks issues it; EOI of the active
source ends the delivery, any other EOI is counted. -/
def Obligations.Interrupt_delivery : Prop :=
  ∀ (t : Nat) (s : State), awake s = true →
    (∀ n rest, s.irq.msgs = n :: rest →
      ∃ u, exec (.interruptMessage t) s = .next u ∧ u.irq.msgs = rest ∧ u.irq.pend.getLsbD n.src.val = true ∧
        (∀ m : SrcId, m ≠ n.src → u.irq.pend.getLsbD m.val = s.irq.pend.getLsbD m.val) ∧ u.device = s.device ∧
        u.hp = s.hp ∧ u.orbits = s.orbits ∧ u.out = s.out) ∧
    (∀ n : SrcId, s.irq.pend.getLsbD n.val = true → s.irq.mask.getLsbD n.val = false →
      (∀ m : SrcId, m < n → s.irq.pend.getLsbD m.val = true → s.irq.mask.getLsbD m.val = true) →
      s.irq.active = none → s.hp.msixEn = true → canMaster s = true →
      ∃ u, exec (.interruptCommit t) s = .next u ∧ u.irq.active = some n ∧ u.irq.pend.getLsbD n.val = false ∧
        (∀ m : SrcId, m ≠ n → u.irq.pend.getLsbD m.val = s.irq.pend.getLsbD m.val) ∧
        u.irq.deliv = (s.irq.deliv + 1) % 2 ^ 32 ∧
        (if s.hp.funcMask || (tget s.irq.table (tget s.irq.target n)).masked then u.irq.held = true ∧ u.out = s.out
         else u.irq.held = false ∧ u.out = .msix (tget s.irq.table (tget s.irq.target n)).addr
           (tget s.irq.table (tget s.irq.target n)).data :: s.out) ∧ u.device = s.device) ∧
    (∀ v : SrcId, hostUp s = true → s.hp.bme = true → s.hp.d3hot = false → s.irq.held = true → s.irq.pba = srcBit v →
      (∀ a d, s.hp.msixEn = true → s.hp.funcMask = false →
        ∃ u, exec (.msixUnmask t (.entry v a d false)) s = .next u ∧ u.irq.held = false ∧ u.irq.pba = 0 ∧
          u.out = .msix a d :: s.out ∧ tget u.irq.table v = { addr := a, data := d, masked := false } ∧
          u.device = s.device) ∧
      ((tget s.irq.table v).masked = false →
        ∃ u, exec (.msixUnmask t (.control true false)) s = .next u ∧ u.irq.held = false ∧ u.irq.pba = 0 ∧
          u.hp.msixEn = true ∧ u.hp.funcMask = false ∧
          u.out = .msix (tget s.irq.table v).addr (tget s.irq.table v).data :: s.out ∧ u.device = s.device)) ∧
    (∀ v : Word, hostOk s = true →
      (s.irq.active = some (Fin.ofNat 512 (fld v 0 9)) →
        ∃ u, exec (.irqEoi t v 15) s = .next u ∧ u.irq.active = none ∧ u.irq.held = false ∧ u.irq.pend = s.irq.pend ∧
          u.irq.badEoi = s.irq.badEoi ∧ u.device = s.device) ∧
      (s.irq.active ≠ some (Fin.ofNat 512 (fld v 0 9)) →
        ∃ u, exec (.irqEoi t v 15) s = .next u ∧ u.irq.active = s.irq.active ∧ u.irq.pend = s.irq.pend ∧
          u.irq.badEoi = (s.irq.badEoi + 1) % 65536 ∧ u.device = s.device))

/-- R4, R288, R289, R291, R297: the W1S and W1C aliases of the masks and the discard of pending bits touch exactly the
bits written as 1, a plain write of a mask register replaces its 32 bits; HDRAIN lowers one counter and no other; a
doorbell of a software source sends its message, in its place by instant and source (the model's reading, assumption log
81). An alias write without all byte enables changes no mask bit. -/
def Obligations.Interrupt_masks_and_counters : Prop :=
  ∀ (t : Nat) (s : State) (v : Word), hostOk s = true →
    (∀ k : Fin 16,
      (∃ u, exec (.irqMaskSet t k v 15) s = .next u ∧ u.irq.pend = s.irq.pend ∧ u.device = s.device ∧
        ∀ m : SrcId, u.irq.mask.getLsbD m.val =
          (s.irq.mask.getLsbD m.val || (decide (m.val / 32 = k.val) && v.getLsbD (m.val % 32)))) ∧
      (∃ u, exec (.irqMaskClr t k v 15) s = .next u ∧ u.irq.pend = s.irq.pend ∧ u.device = s.device ∧
        ∀ m : SrcId, u.irq.mask.getLsbD m.val =
          (s.irq.mask.getLsbD m.val && !(decide (m.val / 32 = k.val) && v.getLsbD (m.val % 32)))) ∧
      (∃ u, exec (.irqPendDiscard t k v 15) s = .next u ∧ u.irq.mask = s.irq.mask ∧ u.device = s.device ∧
        ∀ m : SrcId, u.irq.pend.getLsbD m.val =
          (s.irq.pend.getLsbD m.val && !(decide (m.val / 32 = k.val) && v.getLsbD (m.val % 32)))) ∧
      (∃ u, exec (.registerWrite t .bar0 (0x10200 + 4 * k.val) v 15 1) s = .next u ∧ u.irq.pend = s.irq.pend ∧
        u.device = s.device ∧
        ∀ m : SrcId, u.irq.mask.getLsbD m.val =
          if m.val / 32 = k.val then v.getLsbD (m.val % 32) else s.irq.mask.getLsbD m.val) ∧
      (∀ be : BitVec 4, be ≠ 15 →
        ∃ u, exec (.irqMaskClr t k v be) s = .next u ∧ u.irq.mask = s.irq.mask ∧ u.irq.pend = s.irq.pend ∧
          u.device = s.device)) ∧
    (∃ u, exec (.irqHdrain t v 15) s = .next u ∧
      (tget u.irq.hcnt (Fin.ofNat 256 (fld v 16 8))).count =
        (tget s.irq.hcnt (Fin.ofNat 256 (fld v 16 8))).count - fld v 0 8 ∧
      (∀ h : HeadId, h ≠ Fin.ofNat 256 (fld v 16 8) → tget u.irq.hcnt h = tget s.irq.hcnt h) ∧
      u.irq.pend = s.irq.pend ∧ u.irq.mask = s.irq.mask ∧ u.device = s.device) ∧
    (288 ≤ v.toNat → v.toNat ≤ 511 →
      ∃ u, exec (.irqDoorbellWrite t v 15) s = .next u ∧ 
        u.irq.msgs = insertMsg { at_ := max s.now t, src := Fin.ofNat 512 v.toNat } s.irq.msgs ∧
        u.irq.lastDb = v ∧ u.irq.pend = s.irq.pend ∧ u.device = s.device)

/-- R199 to R201, R218, R223, R229: the first boundary after reset starts the epoch that start-up found, a later one the
next number, at least 100.000 us after the last; the role in force is the role input, and the frame's header carries role
and number; with role input 00 no section's code is permissive. Before its time a boundary does nothing. -/
def Obligations.Epoch_boundary : Prop :=
  ∀ (t : Nat) (s : State) (i : BoundaryInput),
    (s.phase = .starting →
      ∃ u, exec (.epochBoundary t i) s = .next u ∧ u.phase = .running ∧ u.epc.seq = s.epc.seq ∧
        u.epc.start = max s.now t ∧ u.epc.tick = 0 ∧ u.zl.role = s.zl.roleIn) ∧
    (s.phase = .running → s.epc.quiet = true → s.epc.start + 100000000 ≤ max s.now t →
      ∃ u f, exec (.epochBoundary t i) s = .next u ∧ u.phase = .running ∧ u.epc.seq = s.epc.seq + 1 ∧
        u.epc.start = max s.now t ∧ u.epc.tick = 0 ∧ u.epc.quiet = false ∧ u.zl.role = s.zl.roleIn ∧
        u.vsp.frame = some f ∧ u.vsp.old = s.vsp.frame ∧
        f.hdr = put 30 2 s.zl.roleIn.toNat ||| put 24 4 10 ||| put 0 24 (s.epc.seq + 1) ∧
        (s.zl.roleIn = 0 → ∀ n : SecId, tget f.codes n = if (s.sec n).core.service then 0 else 3)) ∧
    (s.phase = .running → max s.now t < s.epc.start + 100000000 →
      exec (.epochBoundary t i) s = .next (s.advance t))

/-- R169, R173 to R177, R180, R181, R186, R190, R192, R203, R207, R208, R243: the count rule, the ledger match, what
fails a section and the application of its commands, on the working copy, a reset form and an overflow being judged on
what the intake cut found (the model's choice, assumption log 75). A grant in turn makes the working copy and takes the
rows that free engines can search (the model's choice, assumption log 76), or drops a section whose work would end too
late. A commit makes the working copy the section, its bindings tested again where it is out of service, with its code
for the next frame. Where the role in force is not 10 the working copy is the partner's ephemeris, and a section not
adopted by 40 us is missed. Other sections are untouched. -/
def Obligations.Section_evaluation : Prop :=
  (∀ (s : State) (n : SecId), CountRule s n ∧ MatchRule s n ∧ FailRule s n ∧ ApplyRule s n) ∧
  (∀ a b : List Byte,
    sigDist a b false = ((List.range 12).map (fun i => ndiff (sigByte a i) (sigByte b i))).sum +
      2 * ndiff (sigByte a 12) (sigByte b 12) + 4 * ndiff (sigByte a 13) (sigByte b 13) +
      (sext 8 (sigByte a 14) - sext 8 (sigByte b 14)).natAbs / 4 ∧
    sigDist a b true = ((List.range 12).map (fun i => ndiff (sigByte a i) (sigByte b (11 - i)))).sum +
      2 * ndiff (sigByte a 12) (sigByte b 12) + 4 * ndiff (sigByte a 13) (sigByte b 13) +
      (sext 8 (sigByte a 14) + sext 8 (sigByte b 14)).natAbs / 4) ∧
  (∀ (t : Nat) (s : State) (n : SecId), s.phase = .running → s.epc.quiet = false → intakeDone (s.advance t) = true →
    itsTurn (s.advance t) n = true → (s.sec n).eval = .due →
    (∀ p : Priv, s.zl.role = 2 → evaluate (s.advance t) n = p →
      (tooLate (s.advance t) (workLeft p.work) = false → (sumNat p.work = 0 ∨ freeEngines (s.advance t) ≠ 0) →
        ∃ u q, exec (.sectionGrant t n) s = .next u ∧ (u.sec n).eval = .served ∧ (u.sec n).priv = some q ∧
          q = { p with work := q.work, until_ := q.until_ } ∧
          sumNat q.work = sumNat p.work - freeEngines (s.advance t) ∧
          (u.sec n).core = (s.sec n).core ∧ (∀ m, m ≠ n → u.sec m = s.sec m) ∧ u.heads = s.heads) ∧
      (tooLate (s.advance t) (workLeft p.work) = true → (sumNat p.work = 0 ∨ freeEngines (s.advance t) ≠ 0) →
        ∃ u, exec (.sectionGrant t n) s = .next u ∧ (u.sec n).eval = .dropped ∧ (u.sec n).late = true ∧
          (u.sec n).core.state = (s.sec n).core.state ∧ (u.sec n).core.count = (s.sec n).core.count ∧
          (u.sec n).queue = (s.sec n).intake ++ (s.sec n).queue ∧ u.epc.dropped = s.epc.dropped + 1 ∧
          bit (u.sec n).core.fault 8 = true ∧ (∀ m, m ≠ n → u.sec m = s.sec m) ∧ u.heads = s.heads)) ∧
    (s.zl.role ≠ 2 →
      (∀ e : Eph, adoptable (s.advance t) n = some e →
        (e.cfgChk = cfgChk (s.sec n) → tooLate (s.advance t) (workLeft []) = false →
          ∃ u q, exec (.sectionGrant t n) s = .next u ∧ (u.sec n).eval = .served ∧ (u.sec n).priv = some q ∧
            q.adopted = true ∧ q.core.state = e.state ∧ q.core.service = e.service ∧ q.core.count = e.count ∧
            q.core.reason = e.reason ∧ q.core.conf = e.conf ∧ q.core.susp = e.susp ∧
            (rxDeltas (s.advance t) n = [] → q.core.ledger = (s.sec n).core.ledger) ∧
            (∀ m, m ≠ n → u.sec m = s.sec m) ∧ u.heads = s.heads) ∧
        (e.cfgChk ≠ cfgChk (s.sec n) →
          ∃ u, exec (.sectionGrant t n) s = .next u ∧ (u.sec n).eval = .none ∧ (u.sec n).mismatch = true ∧
            (u.sec n).core = (s.sec n).core ∧ bit u.zl.fault 5 = true ∧ (∀ m, m ≠ n → u.sec m = s.sec m) ∧
            u.heads = s.heads)) ∧
      (adoptable (s.advance t) n = none → s.epc.start + 40000000 ≤ max s.now t →
        ∃ u, exec (.sectionGrant t n) s = .next u ∧ (u.sec n).eval = .none ∧ (u.sec n).core = (s.sec n).core ∧
          u.zl.missed = (if (s.sec n).core.service then min (s.zl.missed + 1) 65535 else s.zl.missed) ∧
          (∀ m, m ≠ n → u.sec m = s.sec m) ∧ u.heads = s.heads))) ∧
  (∀ (t : Nat) (s : State) (n : SecId) (p : Priv), s.phase = .running → s.epc.quiet = false → (s.sec n).eval = .served →
    (s.sec n).priv = some p → sumNat p.work = 0 → p.until_ ≤ max s.now t →
    tooLate (s.advance t) (workLeft []) = false → portOpen (s.advance t) = true →
    ∃ u, exec (.sectionCommit t n) s = .next u ∧ (u.sec n).eval = .committed ∧ (u.sec n).late = false ∧
      (let q := if (s.sec n).core.service = true ∨ p.adopted = true then p else evaluate (s.advance t) n
       (u.sec n).core.state = q.core.state ∧ (u.sec n).core.count = q.core.count ∧
        (u.sec n).core.service = q.core.service ∧
        (u.sec n).core.ledger = (if secMode (s.sec n).cfg = 0 then [] else q.core.ledger) ∧
        (u.sec n).code = (if q.core.service then stateCode q.core.state (s.epc.seq + 1) else 3)) ∧
      (∀ e, p.adopted = true → rxEph (s.advance t) n = some e →
        (u.sec n).adopted = some s.epc.seq ∧ (u.sec n).mismatch = false ∧ (u.sec n).quietEl = e.quietEl) ∧
      (∃ c, u.epc.lastCommit = some c ∧ max s.now t ≤ c) ∧ (∀ m, m ≠ n → u.sec m = s.sec m) ∧ u.heads = s.heads)

/-- R201, R207, R208, R210: 70.0 us into the epoch the deadline drops every section served and not committed, and opens the quiet
window with no record left waiting for it. Before, it does nothing. -/
def Obligations.Evaluation_deadline : Prop :=
  ∀ (t : Nat) (s : State), s.phase = .running → s.epc.quiet = false →
    (s.epc.start + 70000000 ≤ max s.now t →
      ∃ u, exec (.evaluationDeadline t) s = .next u ∧ u.epc.quiet = true ∧ u.epc.recs = [] ∧ u.epc.snaps = s.epc.snaps ∧
        (∀ n : SecId, (s.sec n).eval = .served →
          (u.sec n).eval = .dropped ∧ (u.sec n).late = true ∧ (u.sec n).priv = none ∧
          (u.sec n).core.state = (s.sec n).core.state ∧ (u.sec n).core.count = (s.sec n).core.count) ∧
        (∀ n : SecId, (s.sec n).eval = .committed → (u.sec n).eval = .committed ∧ (u.sec n).core.state = (s.sec n).core.state)) ∧
    (max s.now t < s.epc.start + 70000000 → exec (.evaluationDeadline t) s = .next (s.advance t))

/-- R87, R111, R205: a track tick counts itself, takes the pace, and moves every running settle counter one tick towards
its target; a counter that is held does not move. -/
def Obligations.Track_tick : Prop :=
  ∀ (t : Nat) (s : State) (i : TickInput), s.phase = .running → s.epc.tick < 10 →
    s.epc.start + 10000000 * s.epc.tick ≤ max s.now t →
    ∃ u, exec (.trackTick t i) s = .next u ∧ u.epc.tick = s.epc.tick + 1 ∧
      u.epc.tickAt = s.epc.start + 10000000 * s.epc.tick + 1 ∧ u.epc.pace = min i.pace 65535 ∧
      u.epc.paceMin = min s.epc.paceMin (min i.pace 65535) ∧ u.sections = s.sections ∧
      (∀ (h : HeadId) (x : Sys), ((s.head h).flt.slice.get x).settleHeld = false →
        ((s.head h).flt.slice.get x).settleStart < s.epc.start + 10000000 * s.epc.tick →
        ((u.head h).flt.slice.get x).settleCount =
          min (targetOf s h x) (((s.head h).flt.slice.get x).settleCount + 1)) ∧
      (∀ (h : HeadId) (x : Sys), ((s.head h).flt.slice.get x).settleHeld = true →
        ((u.head h).flt.slice.get x).settleCount = ((s.head h).flt.slice.get x).settleCount)

/-- R133, R136, R213, R215, R218, R220, R221, R227: a read of an enabled lane loads its copy of the frame, with its own
LANE bits. Once bit 575 is launched the read is complete: 544 bits and their CRC, complemented once where VSP_TEST armed
it and on a build-check mismatch. Each code bit of a section samples the section's trip latch at the edge before its
launch: a CLEAR code (01 or 10) has its bit 0 where the latch samples as set, 00 and 11 go out as they are. The end of a
read is taken in by the next command that looks at the lane (the model's choice, assumption log 40). VSP_SYNC_x low
before that aborts the read: the bits launched so far, and the armed failure stays. The sections keep everything. -/
def Obligations.Voter_read : Prop :=
  ∀ (t : Nat) (s : State) (l : Lane),
    (∀ (i : ReadInput) (f : Frame), laneServes s l = true → (s.vsp.lane l).read = none →
      loadFrame (s.advance t) i = some f →
      ∃ u r, exec (.vspRead t l i) s = .next u ∧ (u.vsp.lane l).read = some r ∧ r.start = max s.now t ∧
        r.period = i.period ∧ r.low = i.low ∧ r.copy.length = 544 ∧ (r.copy.drop 2).take 2 = msb 2 (laneIdx l) ∧
        (i.flipped = [] → r.copy.take 2 ++ [false, false] ++ r.copy.drop 4 =
          (frameBits f.hdr f.codes.toList).take 2 ++ [false, false] ++ (frameBits f.hdr f.codes.toList).drop 4) ∧
        r.bad = buildBad f i ∧ (u.vsp.lane l).bits = (s.vsp.lane l).bits ∧ u.sections = s.sections ∧
        u.vsp.frame = s.vsp.frame) ∧
    (∀ r : LaneRead, (s.vsp.lane l).read = some r → r.copy.length = 544 →
      (r.done ≤ max s.now t →
        ∃ u, exec (.vspReadAbort t l) s = .next u ∧ (u.vsp.lane l).read = none ∧ (u.vsp.lane l).bits.length = 576 ∧
          (u.vsp.lane l).complete = ((s.vsp.lane l).complete + 1) % 65536 ∧
          (u.vsp.lane l).aborted = (s.vsp.lane l).aborted ∧ (u.vsp.lane l).crcFail = false ∧
          (r.bad = false → (s.vsp.lane l).crcFail = false →
            (u.vsp.lane l).bits.drop 544 = msb 32 (crcBits ((u.vsp.lane l).bits.take 544)).toNat) ∧
          ((r.bad = true ∨ (s.vsp.lane l).crcFail = true) →
            (u.vsp.lane l).bits.drop 544 = msb 32 (~~~ crcBits ((u.vsp.lane l).bits.take 544)).toNat) ∧
          (r.bad = true → bit u.vsp.fault (12 + laneIdx l) = true) ∧
          (∀ n : SecId, let code := (r.copy.drop (32 + 2 * n.val)).take 2
            ((u.vsp.lane l).bits.drop (32 + 2 * n.val)).take 2 =
              if code = [false, true] ∨ code = [true, false] then
                List.zipWith (fun b trip => b && !trip) code
                  [tripSample s r n (32 + 2 * n.val), tripSample s r n (33 + 2 * n.val)]
              else code) ∧
          u.sections = s.sections ∧ u.vsp.frame = s.vsp.frame) ∧
      (max s.now t < r.done →
        ∃ u, exec (.vspReadAbort t l) s = .next u ∧ (u.vsp.lane l).read = none ∧
          (u.vsp.lane l).bits.length = r.launchedBy (max s.now t) ∧
          (u.vsp.lane l).aborted = ((s.vsp.lane l).aborted + 1) % 256 ∧
          (u.vsp.lane l).complete = (s.vsp.lane l).complete ∧ (u.vsp.lane l).crcFail = (s.vsp.lane l).crcFail ∧
          bit u.vsp.fault (16 + laneIdx l) = true ∧
          (r.bad = true → 544 ≤ r.launchedBy (max s.now t) → bit u.vsp.fault (12 + laneIdx l) = true) ∧
          u.sections = s.sections ∧ u.vsp.frame = s.vsp.frame)) ∧
    (∀ (r : LaneRead) (n : SecId) (k : Nat),
      ((s.sec n).latchLog = [] → tripSample s r n k = (s.sec n).latch) ∧
      (∀ c, (s.sec n).latchLog = [c] →
        (c + 300 ≤ r.edge (k + 1) - r.low → tripSample s r n k = (s.sec n).latch) ∧
        (r.edge (k + 1) - r.low + 300 ≤ c → tripSample s r n k = !(s.sec n).latch)))

/-- R229 to R231: the role input follows the pins, 11 and DEPOSE_N giving 00; taking 10 starts a claim; leaving 10
withdraws the claim and its hold of the interlock, and leaves no slice of an awake device driving. -/
def Obligations.Role_input_and_depose : Prop :=
  ∀ (t : Nat) (s : State),
    (∀ pins : BitVec 2, ∃ u, exec (.roleInputChange t pins) s = .next u ∧ u.zl.pins = pins ∧
      u.zl.roleIn = (if s.zl.deposed = true ∨ pins = 3 then 0 else pins) ∧ u.zl.deposed = s.zl.deposed ∧
      u.zl.role = s.zl.role ∧
      (s.zl.deposed = false → pins = 2 → s.zl.roleIn ≠ 2 → s.phase ≠ .eclipse →
        u.zl.claim = .waiting ∧ u.zl.wantSince = some (max s.now t) ∧ u.zl.holdOut = s.zl.holdOut) ∧
      ((s.zl.deposed = true ∨ pins ≠ 2) → s.zl.roleIn = 2 → u.zl.claim = .none ∧ u.zl.holdOut = false ∧
        u.zl.wantSince = none ∧ drives u = false ∧
        (awake s = true → ∀ (h : HeadId) (x : Sys),
          ((u.head h).xs.slice.get x).reg ∉ [RegState.rampUp, .acquire, .track, .hold]))) ∧
    (s.zl.deposed = false →
      ∃ u, exec (.depose t) s = .next u ∧ u.zl.deposed = true ∧ u.zl.roleIn = 0 ∧ drives u = false ∧
        (awake s = true → bit u.zl.fault 12 = true) ∧
        (s.zl.roleIn = 2 → u.zl.claim = .none ∧ u.zl.holdOut = false) ∧
        (awake s = true → s.zl.roleIn = 2 → ∀ (h : HeadId) (x : Sys),
          ((u.head h).xs.slice.get x).reg ∉ [RegState.rampUp, .acquire, .track, .hold])) ∧
    (∃ u, exec (.deposeRelease t) s = .next u ∧ u.zl.deposed = false ∧
      u.zl.roleIn = (if s.zl.pins = 3 then 0 else s.zl.pins) ∧
      (s.zl.pins = 2 → s.zl.roleIn ≠ 2 → s.phase ≠ .eclipse → u.zl.claim = .waiting))

/-- R72, R231, R232, R250: a claim tries once ZL_HOLD_IN reads released with the AON domain out of reset, wins when it stayed
released for 100 ns and then picks up every slice that listens, at its preset, the stages now holding the interlock; or
releases the interlock and backs off, 100 ns or 300 ns by UNIT; no claim within 4.0 us sets HOLD_TIMEOUT. -/
def Obligations.Excitation_interlock : Prop :=
  ∀ (t : Nat) (s : State),
    (s.pwr.aonHeld = false → (s.zl.claim = .waiting ∨ s.zl.claim = .backoff ∧
        s.zl.claimAt + (if bit s.zl.cfg 8 then 300000 else 100000) ≤ max s.now t) →
      exec (.interlockClaim t) s = .next { s.advance t with zl := { s.zl with
        claim := .trying, holdIn := false, holdOut := true, claimAt := max s.now t } }) ∧
    (s.pwr.aonHeld = true → exec (.interlockClaim t) s = .next (s.advance t)) ∧
    (s.zl.claim = .trying → s.zl.claimAt + 100000 ≤ max s.now t →
      (∃ u, exec (.claimWaitExpiry t true) s = .next u ∧ u.zl.claim = .won ∧ u.zl.wonAt = some (max s.now t) ∧
        u.zl.holdOut = false ∧
        (awake s = true → ∀ (h : HeadId) (x : Sys), ((s.head h).xs.slice.get x).reg = .listen →
          ((u.head h).xs.slice.get x).reg = (if holdCond (s.advance t) h then .hold else .track) ∧
          ((u.head h).xs.slice.get x).drive = ((s.head h).xs.slice.get x).preset) ∧
        (awake s = true → unlockedSlices s ≠ [] → bit u.zl.fault 11 = true)) ∧
      exec (.claimWaitExpiry t false) s = .next { s.advance t with zl := { s.zl with
        claim := .backoff, holdIn := true, holdOut := false, claimAt := max s.now t } }) ∧
    (∀ t0, awake s = true → s.zl.wantSince = some t0 → s.zl.claim ≠ .won → t0 + 4000000 ≤ max s.now t →
      ∃ u, exec (.holdTimeout t) s = .next u ∧ bit u.zl.fault 3 = true ∧ u.zl.wantSince = none ∧
        u.zl.claim = s.zl.claim ∧ u.heads = s.heads)

/-- R138, R249: a mark of a slice in RUN opens a gap 1.0 us before it and holds the envelope for 8.0 us, and changes
nothing but its own slice; its end ends both and changes no other head. -/
def Obligations.Handover_marks : Prop :=
  ∀ (t : Nat) (s : State) (h : HeadId) (x : Sys), awake s = true →
    (handOverReady s = true → ((s.head h).xs.slice.get x).reg = .listen → inRun s h = true → inUse s h x = true →
      ((s.head h).flt.slice.get x).mark = none → ((s.head h).flt.slice.get x).gap = none →
      exec (.handoverMarkRaise t h x true) s = .next (((s.advance t).modFltSlice h x (fun f => { f with
        mark := some (max s.now t)
        gap := some { start := max s.now t - 1000000, stop := none, unbridged := false,
                      settled := settled s h x } })).modCmpSlice h x (fun c => { c with
        envHold := some (max s.now t + 8000000) }))) ∧
    (∀ g t0, ((s.head h).flt.slice.get x).mark = some t0 → ((s.head h).flt.slice.get x).inv = none →
      ((s.head h).flt.slice.get x).gap = some g → g.stop = none → g.unbridged = false →
      max s.now t ≤ g.start + 8000000 →
      ∃ u, exec (.handoverMarkEnd t h x) s = .next u ∧ ((u.head h).flt.slice.get x).mark = none ∧
        ((u.head h).cmp.slice.get x).envHold = none ∧
        ((u.head h).flt.slice.get x).gap = some { g with stop := some (max s.now t) } ∧ OtherHeadsKept h s u ∧
        u.sections = s.sections)

/-- R235, R236, R237, R240, R241, R257: the states of the link; the STATUS of an epoch is sent once, 1.000 us after the
boundary; a doorbell waits in order and goes out as a message. -/
def Obligations.Link_states_and_sending : Prop :=
  ∀ (t : Nat) (s : State), s.phase = .running →
    (s.zl.link = .train →
      exec (.linkTrained t) s = .next { s.advance t with zl := { s.zl with link := .wait, laneLock := 0xF, upCount := 0 } }) ∧
    (∀ lanes : BitVec 4, s.zl.link = .up →
      ∃ u, exec (.linkLoss t lanes) s = .next u ∧ u.zl.link = .train ∧ u.zl.laneLock = lanes ∧
        u.zl.downCnt = (s.zl.downCnt + 1) % 65536 ∧ bit u.zl.fault 0 = true ∧
        (∀ n : SecId, (s.sec n).core.service = true → (u.sec n).synced = false) ∧
        (∀ n : SecId, (u.sec n).core = (s.sec n).core) ∧ u.heads = s.heads) ∧
    (s.zl.link = .up → 4 ≤ s.zl.statusMiss →
      ∃ u, exec (.statusTimeout t) s = .next u ∧ u.zl.link = .train ∧ bit u.zl.fault 0 = true ∧ u.heads = s.heads) ∧
    ((s.zl.link = .wait ∨ s.zl.link = .up) →
      exec (.messageDiscarded t) s = .next { s.advance t with zl := { s.zl with crcErr := (s.zl.crcErr + 1) % 65536 } }) ∧
    (∀ p, s.zl.partner = some p → s.zl.aligned = false → s.zl.role ≠ 2 → s.zl.link = .up → 16 ≤ s.zl.alignRun →
      exec (.aligned t) s = .next { s.advance t with zl := { s.zl with aligned := true, offset := p.ahead } }) ∧
    ((s.zl.link = .wait ∨ s.zl.link = .up) → s.zl.sent = false →
      s.epc.start + 1000000 ≤ max s.now t → s.zl.setRole ≠ 2 →
      exec (.statusSend t) s = .next { s.advance t with
        zl := { s.zl with sent := true }
        out := .link (linkBytes 1 0 true s.aon.gen s.epc.seq
          (statusPayload { s.advance t with zl := { s.zl with sent := true } })) :: s.out }) ∧
    (s.zl.sent = true → exec (.statusSend t) s = .next (s.advance t)) ∧
    (∀ n rest, (s.zl.link = .wait ∨ s.zl.link = .up) → s.zl.doorbells = n :: rest →
      exec (.doorbellSend t) s = .next { s.advance t with
        zl := { s.zl with doorbells := rest }
        out := .link (linkBytes 6 0 true s.aon.gen s.epc.seq (le 2 n)) :: s.out }) ∧
    (∀ v : Word, hostOk s = true → 288 ≤ fld v 0 9 →
      exec (.zlPdbWrite t v 15) s = .next { s.advance t with
        zl := { s.zl with doorbells := s.zl.doorbells ++ [fld v 0 9] } })

/-- R234, R237 to R240, R243: a message of the generation in force is used: the second STATUS brings the link up;
parts of the set to be adopted are kept; an LFULL replaces one ledger copy; a doorbell raises its source. A message whose
LEN is outside its type's range is discarded and counted. An EPH of an older generation is counted, flagged and not used. -/
def Obligations.Link_receiving : Prop :=
  ∀ (t : Nat) (s : State) (m : LinkMsg), s.phase = .running → (s.zl.link = .wait ∨ s.zl.link = .up) →
    (m.gen = s.aon.gen →
      (m.payload.length = 32 → s.zl.link = .wait → 1 ≤ s.zl.upCount →
        ∃ u, exec (.statusMessage t m) s = .next u ∧ u.zl.link = .up ∧ u.zl.statusMiss = 0 ∧
          u.zl.partner = some (statusOf m s) ∧ u.heads = s.heads ∧ u.sections = s.sections) ∧
      (inSet m (s.advance t) = true →
        (m.payload.length = 1024 → exec (.ephMessage t m) s = .next { s.advance t with zl := { s.zl with
          rx := some { rxSet s with eph := (m.part, m.payload) :: (rxSet s).eph.filter (fun p => p.1 != m.part) } } }) ∧
        (m.payload.length = 2048 → exec (.coverMessage t m) s = .next { s.advance t with zl := { s.zl with
          rx := some { rxSet s with cover := some m.payload } } }) ∧
        (m.payload.length ≤ 1024 → exec (.ldeltaMessage t m) s = .next { s.advance t with zl := { s.zl with
          rx := some { rxSet s with
            ldelta := (m.part, m.payload) :: (rxSet s).ldelta.filter (fun p => p.1 != m.part)
            ldLast := if m.last then some m.part else (rxSet s).ldLast } } })) ∧
      (∀ n : SecId, 16 ≤ m.payload.length → m.payload.length ≤ 20496 → s.zl.role ≠ 2 → field m.payload 0 2 = n.val →
        ∃ u, exec (.lfullMessage t m) s = .next u ∧
          (u.sec n).core.ledger = (List.range (field m.payload 4 2)).map (entryAt m.payload) ∧
          (u.sec n).core.gen = field m.payload 8 4 ∧ (u.sec n).core.state = (s.sec n).core.state ∧
          (u.sec n).core.count = (s.sec n).core.count ∧ u.zl.lfull = (s.zl.lfull + 1) % 65536 ∧
          (∀ k, k ≠ n → u.sec k = s.sec k) ∧ u.heads = s.heads) ∧
      (m.payload.length = 2 → 288 ≤ field m.payload 0 2 → field m.payload 0 2 ≤ 511 →
        ∃ u, exec (.doorbellMessage t m) s = .next u ∧
          
          u.irq.msgs = insertMsg { at_ := max s.now t, src := Fin.ofNat 512 (field m.payload 0 2) } s.irq.msgs ∧ u.device = s.device)) ∧
    (let discarded := Host.Outcome.next { s.advance t with zl := { s.zl with crcErr := (s.zl.crcErr + 1) % 65536 } }
     (m.payload.length ≠ 32 → exec (.statusMessage t m) s = discarded) ∧
      (m.payload.length ≠ 1024 → exec (.ephMessage t m) s = discarded) ∧
      (m.payload.length ≠ 2048 → exec (.coverMessage t m) s = discarded) ∧
      (1024 < m.payload.length → exec (.ldeltaMessage t m) s = discarded) ∧
      (m.payload.length < 16 ∨ 20496 < m.payload.length → exec (.lfullMessage t m) s = discarded) ∧
      (m.payload.length ≠ 2 → exec (.doorbellMessage t m) s = discarded)) ∧
    (32768 ≤ (m.gen - s.aon.gen).toNat → m.payload.length = 1024 →
      ∃ u, exec (.ephMessage t m) s = .next u ∧ u.zl.stale = min (s.zl.stale + 1) (2 ^ 32 - 1) ∧
        bit u.zl.fault 1 = true ∧ u.zl.rx = s.zl.rx ∧ u.aon = s.aon ∧ u.heads = s.heads ∧ u.sections = s.sections)

/-- R235, R255, R256: ZL_SET stores its values, refused while the device is active or drives unless only AGE_WARN
changes; ZL_STATUS returns the registers; the drive age restarts at a drive interval, 10 s of driving every head in RUN
without REG_FAULT, ILIM or HEALTH, and counts whole hours to its flag; the interval is seen at boundaries (the model's
choice, assumption log 78). -/
def Obligations.Link_commands_and_drive_age : Prop :=
  ∀ (t : Nat) (s : State),
    (∀ c : Cmd, Accepted 0x0280 false 4 0 c (s.advance t) →
      (zlSetRefused ((field c.payload 0 1).testBit 0) ((field c.payload 0 1).testBit 1) s = false →
        ∃ v, exec (.zlSet t c) s = .next (complete s.hp.admSeq .ok 0 [] v) ∧ Admitted c s v ∧
          v.zl.cfg = put 16 8 (field c.payload 1 1) ||| put 8 1 (b2n ((field c.payload 0 1).testBit 1)) |||
            put 0 1 (b2n ((field c.payload 0 1).testBit 0)) ∧
          ((field c.payload 0 1).testBit 0 = false → v.zl.link = .down) ∧
          ((field c.payload 0 1).testBit 0 = true → s.zl.link = .down → s.pwr.linkUp = true → v.zl.link = .train) ∧
          v.heads = s.heads ∧ v.sections = s.sections) ∧
      (zlSetRefused ((field c.payload 0 1).testBit 0) ((field c.payload 0 1).testBit 1) s = true →
        Answers (exec (.zlSet t c) s) c s .conflict 0 []
          s)) ∧
    (∀ c : Cmd, Accepted 0x0281 false 0 48 c (s.advance t) →
      ∃ v, exec (.zlStatus t c) s = .next (complete s.hp.admSeq .ok 0 (leWords (zlRegs v)) v) ∧ Admitted c s v ∧
        v.device = s.device) ∧
    (∀ t0, awake s = true → drivesAll s = true → s.zl.driveFrom = some t0 → t0 + 10000000000000 ≤ max s.now t →
      ((∀ h : HeadId, inRun s h = true → (s.head h).xs.spoilAt + 10000000000000 ≤ max s.now t) →
        exec (.driveIntervalComplete t) s = .next { s.advance t with
          aon := { s.aon with driveAge := 0, hourAt := max s.now t }
          zl := { s.zl with driveFrom := some (max s.now t) } }) ∧
      (∀ h : HeadId, inRun s h = true → max s.now t < (s.head h).xs.spoilAt + 10000000000000 →
        exec (.driveIntervalComplete t) s = .next (s.advance t))) ∧
    (∀ t0, s.zl.driveFrom = some t0 → max s.now t < t0 + 10000000000000 →
      exec (.driveIntervalComplete t) s = .next (s.advance t)) ∧
    (drivesAll s = false ∨ s.zl.driveFrom = none → exec (.driveIntervalComplete t) s = .next (s.advance t)) ∧
    (max s.now t < s.aon.hourAt + 3600000000000000 → exec (.driveAgeHour t) s = .next (s.advance t)) ∧
    (s.aon.hourAt + 3600000000000000 ≤ max s.now t →
      ∃ u, exec (.driveAgeHour t) s = .next u ∧ u.aon.driveAge = min (s.aon.driveAge + 1) 65535 ∧
      u.aon.hourAt = s.aon.hourAt + 3600000000000000 ∧ u.heads = s.heads ∧ u.sections = s.sections ∧
      (awake s = true → s.aon.driveAge < max 1 (fld s.zl.cfg 16 8) →
        max 1 (fld s.zl.cfg 16 8) ≤ min (s.aon.driveAge + 1) 65535 → bit u.zl.fault 8 = true))

/-- R310, R327 to R331, R336, R341: the supply monitors. A die's monitor puts its die in reset and holds it there, VFLD
every die; VSER takes HOST and LINK down; VCORE resets the core die, and can tear the recorder's write in progress and no
other byte; recoveries of the AON, core and host supplies end their holds. -/
def Obligations.Supply_monitors : Prop :=
  ∀ (t : Nat) (s : State),
    (awake s = true →
      (∀ d : DieId, ∃ u, exec (.supplyMonitorTrip t (.dieSupply d)) s = .next u ∧ dieUp u d = false ∧
        u.pwr.held.getLsbD d.val = true ∧ u.pwr.supplyOk.getLsbD d.val = false ∧ bit u.pwr.fault 4 = true ∧
        bit u.pwr.dieFault d.val = true ∧
        (∀ (h : HeadId) (n : SecId), dieOf h = d → dieUp s d = true → boundTo h (s.sec n) = true →
          (u.sec n).latch = true) ∧ OtherDiesKept d s u ∧ u.phase = s.phase) ∧
      (∃ u, exec (.supplyMonitorTrip t .vfldUv) s = .next u ∧ (∀ d, dieUp u d = false) ∧ bit u.pwr.fault 0 = true ∧
        u.phase = s.phase) ∧
      (∃ u, exec (.supplyMonitorTrip t .vserUv) s = .next u ∧ u.pwr.hostUp = false ∧ u.pwr.linkUp = false ∧
        u.zl.link = .down ∧ bit u.pwr.fault 3 = true ∧ u.heads = s.heads ∧ u.sections = s.sections ∧
        u.phase = s.phase)) ∧
    (s.phase ≠ .reset →
      ∃ u, exec (.supplyMonitorTrip t .vcoreUv) s = .next u ∧ u.phase = .reset ∧ u.pwr.coreHeld = true ∧
        u.aon.cause = s.aon.cause ||| 4 ∧ u.key = s.key ∧
        ((∀ w, s.rcd.lastWrite = some w → w + 20000000 ≤ max s.now t) → u.rcd.mem = s.rcd.mem) ∧
        (MemInv s → ∀ a, (a < 128 * ((s.aon.next + 2 ^ 32 - 1) % 2 ^ 32 % 262144) ∨
            128 * ((s.aon.next + 2 ^ 32 - 1) % 2 ^ 32 % 262144) + 128 ≤ a) →
          memGet u.rcd.mem a = memGet s.rcd.mem a)) ∧
    (∃ u, exec (.supplyRecovery t .core) s = .next u ∧ u.pwr.coreHeld = false ∧ u.device = ({ s with pwr := u.pwr }).device) ∧
    (∃ u, exec (.supplyRecovery t .aon) s = .next u ∧ u.pwr.aonHeld = false ∧ u.device = ({ s with pwr := u.pwr }).device) ∧
    (awake s = true →
      ∃ u, exec (.supplyRecovery t .host) s = .next u ∧ u.pwr.hostUp = true ∧ u.pwr.hostHeld = false ∧
        u.heads = s.heads)

/-- R310, R329, R330, R336, R337, R344, R346: a core die reset, whatever its cause, puts the heads, sections, plan,
epoch logic, vital port, host port, orbits and interrupt controller at their reset values, counts itself and names its
cause in AON, and keeps the generation, drive age and epoch floor, the key, the queue and the recorder's memory, less a
write that a lost supply cut off (the model's reading, assumption log 46); the loss of CLKREF is one of its causes. The
epoch watchdog resets a device out of core die reset 1.0 ms after its last boundary, and never otherwise acts; it and
the clock-fault reset still act while eclipse is being entered (the 2 us of the entry), and not after. AON power-on
reset resets AON as well, which stays in reset. -/
def Obligations.Resets : Prop :=
  ∀ (t : Nat) (s : State),
    ((s.phase = .running ∨ s.phase = .starting) →
      (∀ c : ResetCause, ∃ u, exec (.coreDieReset t c) s = .next u ∧ u.phase = .reset ∧
        u.heads = Vector.replicate 256 Head.reset ∧ u.irq = Irq.reset ∧ u.orbits = Vector.replicate 16 Orbit.reset ∧
        u.hp = Hp.reset ∧ u.epc = Epc.reset ∧ u.vsp = Vsp.reset ∧ u.dev = Dev.reset ∧
        (∀ n, (u.sec n).core = SecCore.reset ∧ (u.sec n).latch = true) ∧
        u.aon.resets = (s.aon.resets + 1) % 65536 ∧ u.aon.cause = s.aon.cause ||| bits (causeBit c) 1 ∧
        u.aon.tbGen = s.aon.tbGen + 1 ∧ u.aon.gen = s.aon.gen ∧ u.aon.driveAge = s.aon.driveAge ∧
        u.aon.floor = s.aon.floor ∧ u.key = s.key ∧ u.pending = s.pending ∧
        ((c ≠ .vcoreUv ∧ c ≠ .vioUv ∨ (∀ w, s.rcd.lastWrite = some w → w + 20000000 ≤ max s.now t)) →
          u.rcd.mem = s.rcd.mem)) ∧
      (∃ u, exec (.clkrefLoss t) s = .next u ∧ u.phase = .reset ∧ u.aon.cause = s.aon.cause ||| 16 ∧
        u.heads = Vector.replicate 256 Head.reset ∧ u.key = s.key ∧ u.rcd.mem = s.rcd.mem)) ∧
    (awake s = true → s.epc.start + 1000000000 ≤ max s.now t →
      ∃ u, exec (.epochWatchdog t) s = .next u ∧ u.phase = .reset ∧ u.aon.cause = s.aon.cause ||| 32 ∧
        u.heads = Vector.replicate 256 Head.reset ∧ u.key = s.key ∧ u.rcd.mem = s.rcd.mem) ∧
    (s.phase = .eclipse → max s.now t ≤ s.ecl.since + 2000000 → s.epc.start + 1000000000 ≤ max s.now t →
      ∃ u, exec (.epochWatchdog t) s = .next u ∧ u.phase = .reset ∧ u.aon.cause = s.aon.cause ||| 32) ∧
    (s.phase = .reset ∨ max s.now t < s.epc.start + 1000000000 →
      exec (.epochWatchdog t) s = .next (s.advance t)) ∧
    (s.phase = .eclipse → s.ecl.since + 2000000 < max s.now t →
      exec (.epochWatchdog t) s = .next (s.advance t) ∧ exec (.clkrefLoss t) s = .next (s.advance t) ∧
        exec (.coreDieReset t .clock) s = .next (s.advance t)) ∧
    (∃ u, exec (.aonPowerOnReset t) s = .next u ∧ u.phase = .reset ∧ u.aon.gen = 0 ∧ u.aon.tbGen = 0 ∧
      u.aon.driveAge = 65535 ∧ u.aon.floor = none ∧ u.aon.cause = 1 ∧ u.heads = Vector.replicate 256 Head.reset ∧
      u.zl = Zl.reset ∧ u.pwr.aonHeld = true ∧ u.key = s.key ∧ u.pending = s.pending ∧
      ((∀ w, s.rcd.lastWrite = some w → w + 20000000 ≤ max s.now t) → u.rcd.mem = s.rcd.mem))

/-- R329, R331, R338, R340: start-up releases the core die into the epoch count's start; PWR_FLD turns dies off
through a job or completes with the code of the test it fails; the switches open after the power-down; a die whose
conditions hold comes out of reset with its heads isolated and forced; PWR_STATUS returns the registers. -/
def Obligations.Start_up_and_field_power : Prop :=
  ∀ (t : Nat) (s : State),
    (∀ i : StartInput, (s.pwr.coreHeld = true ∨ s.pwr.aonHeld = true) → exec (.startUp t i) s = .next (s.advance t)) ∧
    (∀ i : StartInput, s.phase = .reset → s.pwr.coreHeld = false → s.pwr.aonHeld = false → i.eclipseLow = false →
      ∃ u, exec (.startUp t i) s = .next u ∧ u.phase = .starting ∧ u.resetAt = max s.now t ∧
        u.pwr.on = s.pwr.fldEn ∧ u.pwr.supplyOk = i.supplyOk ∧ u.clk.lock = true ∧ u.heads = s.heads ∧
        u.sections = s.sections ∧ u.key = s.key) ∧
    (∀ c : Cmd, Accepted 0x02B0 true 4 0 c (s.advance t) → field c.payload 1 1 = 0 →
      (∀ d : DieId, (field c.payload 0 1).testBit d.val = true →
        fldTest s (BitVec.ofNat 8 (field c.payload 0 1)) 0 (decide (field c.payload 2 1 % 2 = 1)) = 0 →
        dieUp s d = true → s.pwr.on.getLsbD d.val = true →
        ∃ u, exec (.pwrFld t c) s = .next u ∧ u.hp.admSeq = s.hp.admSeq + 1 ∧
          (∃ j ∈ u.pwr.jobs, j.job = some s.hp.admSeq ∧ j.on = false ∧ j.left.getLsbD d.val = true) ∧
          dieUp u d = false ∧ u.pwr.goingOff.getLsbD d.val = true ∧
          u.pwr.fldEn = s.pwr.fldEn &&& ~~~ BitVec.ofNat 8 (field c.payload 0 1) ∧ u.pwr.result = 0 ∧
          (∀ (h : HeadId) (n : SecId), dieOf h = d → boundTo h (s.sec n) = true → (u.sec n).latch = true)) ∧
      (fldTest s (BitVec.ofNat 8 (field c.payload 0 1)) 0 (decide (field c.payload 2 1 % 2 = 1)) ≠ 0 →
        Answers (exec (.pwrFld t c) s) c s .conflict (fldTest s (BitVec.ofNat 8 (field c.payload 0 1)) 0 (decide (field c.payload 2 1 % 2 = 1))) []
          ({ s with pwr := { s.pwr with
            result := fldTest s (BitVec.ofNat 8 (field c.payload 0 1)) 0 (decide (field c.payload 2 1 % 2 = 1)) } }))) ∧
    (∀ d : DieId, awake s = true → s.pwr.goingOff.getLsbD d.val = true →
      ∃ u, exec (.fldPowerDownDone t d) s = .next u ∧ u.pwr.goingOff.getLsbD d.val = false ∧
        (s.pwr.fldEn.getLsbD d.val = false → u.pwr.on.getLsbD d.val = false) ∧ bit u.pwr.fault 5 = true ∧
        u.heads = s.heads ∧ u.sections = s.sections) ∧
    (∀ d : DieId, mayReleaseDie (s.advance t) d = true →
      ∃ u, exec (.fldResetRelease t d) s = .next u ∧ dieUp u d = true ∧
        (∀ h : HeadId, dieOf h = d → (u.head h).fe.route.cur.mode = 0 ∧ (u.head h).cmp.slice.one.forced = true ∧
          (u.head h).cmp.slice.two.forced = true ∧ (u.head h).xs.freq = (s.head h).xs.freq) ∧
        (∀ h : HeadId, dieOf h ≠ d → u.head h = s.head h) ∧ u.sections = s.sections) ∧
    (∀ c : Cmd, Accepted 0x02B1 false 0 32 c (s.advance t) →
      Answers (exec (.pwrStatus t c) s) c s .ok 0 (leWords (pwrStatusWords (s.advance t)))
          s)

/-- R305, R334 to R336, R340, R343: CLK_SET stores TOL and ZEN within their tests or completes with the code of the one it
fails; the clock events set their flags, and a clock that the comparison finds absent is lost, its deviation 0x8000. -/
def Obligations.Clock_supervision : Prop :=
  ∀ (t : Nat) (s : State),
    (∀ c : Cmd, Accepted 0x02C0 true 4 0 c (s.advance t) →
      (clkTest s (word (field c.payload 0 4)) = 0 →
        ∃ u, exec (.clkSet t c) s = .next u ∧ u.clk.cfg = word (field c.payload 0 4) &&& 0xFF01 ∧ u.clk.result = 0 ∧
          u.device = ({ s with clk := u.clk }).device) ∧
      (clkTest s (word (field c.payload 0 4)) ≠ 0 →
        Answers (exec (.clkSet t c) s) c s .conflict (clkTest s (word (field c.payload 0 4))) []
          ({ s with clk := { s.clk with result := clkTest s (word (field c.payload 0 4)) } }))) ∧
    (awake s = true →
      (∃ u, exec (.clkrefGlitch t) s = .next u ∧ u.clk.glitch = (s.clk.glitch + 1) % 65536 ∧ bit u.clk.fault 0 = true ∧
        u.device = ({ s with clk := u.clk }).device) ∧
      (∀ d : Int, 100 * fld s.clk.cfg 8 8 < d.natAbs →
        (s.tb.refOk = false →
          ∃ u, exec (.sclkFrequencyCheck t (some d) none) s = .next u ∧ bit u.clk.fault 1 = true ∧ u.clk.hclkOk = true ∧
            u.clk.vsTb = 0x8000 ∧ u.device = ({ s with clk := u.clk }).device) ∧
        (∀ e : Int, ∃ u, exec (.sclkFrequencyCheck t (some d) (some e)) s = .next u ∧ bit u.clk.fault 1 = true ∧
          (100 * fld s.clk.cfg 8 8 < e.natAbs → bit u.clk.fault 2 = true) ∧ u.clk.hclkOk = true ∧ u.tb.refOk = true ∧
          (e.natAbs ≤ 32767 → u.clk.vsTb = BitVec.ofInt 16 e) ∧ u.heads = s.heads ∧ u.sections = s.sections)) ∧
      (s.clk.hclkOk = true →
        ∃ u, exec (.sclkFrequencyCheck t none none) s = .next u ∧ bit u.clk.fault 4 = true ∧ u.clk.hclkOk = false ∧
          u.clk.vsHclk = 0x8000 ∧ u.clk.vsTb = 0x8000 ∧ u.tb.refOk = false ∧ hostUp u = false ∧
          (s.tb.refOk = true → uses10M s.tb.mode = true → s.tb.st = .locked → u.tb.st = .holdover) ∧
          u.heads = s.heads ∧ u.sections = s.sections) ∧
      (∃ u, exec (.pcieRefclkLoss t) s = .next u ∧ bit u.clk.fault 4 = true ∧ hostUp u = false ∧ u.clk.vsHclk = 0x8000 ∧
        u.device = ({ s with clk := u.clk }).device) ∧
      (∃ u, exec (.zpllLoss t) s = .next u ∧ u.clk.zlock = false ∧ bit u.clk.fault 3 = true ∧
        (s.zl.link = .up → u.zl.link = .train ∧ bit u.zl.fault 0 = true) ∧ u.heads = s.heads) ∧
      (∃ u, exec (.zclkPllLock t) s = .next u ∧ u.clk.zlock = bit s.clk.cfg 0 ∧ u.clk.jobs = [] ∧
        (bit s.clk.cfg 0 = true → s.clk.zlock = false → s.clk.zSeen = true →
          u.clk.zrelock = (s.clk.zrelock + 1) % 65536) ∧ u.device = ({ s with clk := u.clk }).device))

/-- R344, R345: ECLIPSE_N or an ECL_ENTER with its key puts an awake device in eclipse: cause, epoch and count are kept
in AON, the interlock is released, every read of a lane is cut off, heads and sections keep their state. The entry is
one step, and a later request is recorded in CAUSE while it lasts (the model's choice, assumption log 41). A wrong key
or ECL_CFG 0 completes CONFLICT; in core die reset the pin has no effect yet. -/
def Obligations.Eclipse_entry : Prop :=
  ∀ (t : Nat) (s : State),
    (awake s = true →
      ∃ u, exec (.eclipseRequest t) s = .next u ∧ u.phase = .eclipse ∧ u.aon.eclLast = put 31 1 1 ||| put 0 3 1 ∧
        u.aon.eclEpoch = s.epc.seq ∧ u.aon.eclCnt = (s.aon.eclCnt + 1) % 65536 ∧ u.zl.holdOut = false ∧
        u.zl.claim = .none ∧ u.heads = s.heads ∧ u.sections = s.sections ∧
        { u.rcd with raised := [] } = { s.rcd with raised := [] } ∧ (∀ l : Lane, (u.vsp.lane l).read = none)) ∧
    (s.phase = .eclipse →
      (max s.now t ≤ s.ecl.since + 2000000 →
        exec (.eclipseRequest t) s = .next { s.advance t with
          ecl := { s.ecl with pinLow := true }
          aon := { s.aon with eclLast := s.aon.eclLast ||| 1 } }) ∧
      (s.ecl.since + 2000000 < max s.now t →
        exec (.eclipseRequest t) s = .next { s.advance t with ecl := { s.ecl with pinLow := true } })) ∧
    (s.phase = .reset →
      exec (.eclipseRequest t) s = .next { s.advance t with ecl := { s.ecl with pinLow := true } }) ∧
    (∀ c : Cmd, Accepted 0x02D0 false 4 0 c (s.advance t) →
      (bit s.ecl.cfg 0 = true → word (field c.payload 0 4) = 0x0EC11950 →
        ∃ u, exec (.eclEnter t c) s = .next u ∧ Admitted c s u ∧ u.phase = .eclipse ∧ u.aon.eclLast = put 31 1 1 ||| put 0 3 2 ∧
          u.aon.eclEpoch = s.epc.seq ∧ u.zl.holdOut = false ∧ u.heads = s.heads ∧ u.sections = s.sections) ∧
      ((bit s.ecl.cfg 0 = false ∨ word (field c.payload 0 4) ≠ 0x0EC11950) →
        Answers (exec (.eclEnter t c) s) c s .conflict 0 []
          s))

/-- R329, R348 to R351: the TAP instructions, out of core die reset. Nothing but the TAP changes. Capture-IR gives 01 in
its low bits and the eclipse state in bit 2; a code outside the table selects bypass; EXTEST in eclipse and SAMPLE /
PRELOAD capture the pins of the chain and load its cells (the pins of the chain are the model's choice, assumption log
42). ECL_READ captures the word that the path names as the stall found it, with status 2 outside eclipse, 1 for a path
that names no cell and 3 for a cell without power, and steps CELL within its field. -/
def Obligations.Tap_instructions : Prop :=
  ∀ (t : Nat) (s : State),
    exec (.tapReset t) s = .next { s.advance t with
      tap := { ir := 0x01, irOut := 0x01, path := 0, dr := 0, scan := [], preload := [] } } ∧
    (s.phase ≠ .reset →
      let out : Byte := if s.phase = .eclipse then 0x05 else 0x01
      exec (.idcode t) s = .next { s.advance t with tap := { s.tap with ir := 0x01, irOut := out, dr := 0x12560A75 } } ∧
      (∀ code : Byte,
        exec (.bypass t code) s = .next { s.advance t with tap := { s.tap with ir := code, irOut := out, dr := 0 } }) ∧
      exec (.highz t) s = .next { s.advance t with tap := { s.tap with ir := 0x04, irOut := out, dr := 0 } } ∧
      exec (.clamp t) s = .next { s.advance t with tap := { s.tap with ir := 0x05, irOut := out, dr := 0 } } ∧
      (∀ cells : List (ScanPin × Bool),
        (s.phase ≠ .eclipse →
          exec (.extest t cells) s = .next { s.advance t with tap := { s.tap with ir := 0x00, irOut := out, dr := 0 } }) ∧
        (s.phase = .eclipse →
          ∃ u, exec (.extest t cells) s = .next u ∧ u.tap.ir = 0x00 ∧ u.tap.preload = cells ∧
            (ScanPin.role1, s.zl.pins.getLsbD 1) ∈ u.tap.scan ∧ (ScanPin.deposeN, !s.zl.deposed) ∈ u.tap.scan ∧
            u.tap.path = s.tap.path ∧ u.device = ({ s with tap := u.tap }).device) ∧
        (∃ u, exec (.samplePreload t cells) s = .next u ∧ u.tap.ir = 0x02 ∧ u.tap.irOut = out ∧ u.tap.preload = cells ∧
          (ScanPin.role1, s.zl.pins.getLsbD 1) ∈ u.tap.scan ∧ (ScanPin.role0, s.zl.pins.getLsbD 0) ∈ u.tap.scan ∧
          (ScanPin.deposeN, !s.zl.deposed) ∈ u.tap.scan ∧ (ScanPin.eclipseN, !s.ecl.pinLow) ∈ u.tap.scan ∧
          (ScanPin.holdOut, s.zl.holdOut || driving s) ∈ u.tap.scan ∧ u.tap.path = s.tap.path ∧
          u.device = ({ s with tap := u.tap }).device)) ∧
      (∀ v : BitVec 48,
        exec (.eclPath t v) s = .next { s.advance t with tap := { s.tap with ir := 0x20, irOut := out, path := v } }) ∧
      exec (.eclStatus t) s = .next { s.advance t with tap := { s.tap with
        ir := 0x22
        irOut := out
        dr := ((put 8 8 (fld s.aon.eclLast 0 8) ||| put 1 1 (b2n (s.phase == .eclipse)) |||
          put 0 1 (b2n (s.phase == .eclipse))) : Word).setWidth 40 } } ∧
      (∃ u, exec (.eclRead t) s = .next u ∧ u.tap.ir = 0x21 ∧ u.tap.irOut = out ∧
        u.tap.path.toNat / 2 ^ 24 = s.tap.path.toNat / 2 ^ 24 ∧
        u.tap.path.toNat % 2 ^ 24 = (s.tap.path.toNat % 2 ^ 24 + 1) % 2 ^ 24 ∧
        (s.phase ≠ .eclipse → u.tap.dr.toNat = 2 * 2 ^ 38) ∧
        (s.phase = .eclipse → pathOk s.tap.path = false → u.tap.dr.toNat = 2 ^ 38) ∧
        (s.phase = .eclipse → pathOk s.tap.path = true → cellOff (s.advance t) s.tap.path = true →
          u.tap.dr.toNat = 3 * 2 ^ 38) ∧
        (s.phase = .eclipse → pathOk s.tap.path = true → cellOff (s.advance t) s.tap.path = false →
          u.tap.dr.toNat = (cellWord (stalled s) s.tap.path).toNat) ∧
        u = { s.advance t with tap := u.tap }))

/-- R313, R317, R319, R321, R323: REC_SET stores the defined bits and closes the open record; REC_SELECT stores its
selection and counts it, or completes CONFLICT 1 with more than 16; REC_READ answers the records from FIRST, twenty at a
time (the model's choice, assumption log 63), or completes CONFLICT 1 with none or more than 8,192 asked for; REC_CLEAR
without a key completes NOT_AUTHORISED 3, and with one stages its CLEAR record, good or bad as its token is, under a new
nonce; a good one closes the open record. -/
def Obligations.Recorder_commands : Prop :=
  ∀ (t : Nat) (c : Cmd) (s : State),
    (Accepted 0x02A0 false 16 0 c (s.advance t) →
      ∃ v, exec (.recSet t c) s = .next (complete s.hp.admSeq .ok 0 [] v) ∧ Admitted c s v ∧
        v.rcd.cfg = word (field c.payload 0 4) &&& 0xFFFFFF0F ∧ v.rcd.period = word (field c.payload 4 4) &&& 0xFFFF ∧
        v.rcd.trigEn = word (field c.payload 8 4) &&& 0x7FFE ∧ v.rcd.eclEn = word (field c.payload 12 4) &&& 0x7FFE ∧
        v.rcd.open_ = none ∧ v.heads = s.heads ∧ v.sections = s.sections) ∧
    (Accepted 0x02A1 false 68 0 c (s.advance t) → s.rcd.raised = [] →
      (field c.payload 0 1 ≤ 16 →
        (∀ i, i < field c.payload 0 1 → (regView s (field c.payload (4 + 4 * i) 4)).isSome = true) →
        ∃ v, exec (.recSelect t c) s = .next (complete s.hp.admSeq .ok 0 [] v) ∧ Admitted c s v ∧
          v.rcd.selgen = (s.rcd.selgen + 1) % 256 ∧
          (∀ k : Fin 16, tget v.rcd.sel k = if k.val < field c.payload 0 1
            then put 31 1 1 ||| put 0 23 (field c.payload (4 + 4 * k.val) 4) else 0) ∧
          v.device = ({ s with rcd := v.rcd }).device) ∧
      (16 < field c.payload 0 1 →
        Answers (exec (.recSelect t c) s) c s .conflict 1 []
          s)) ∧
    (Accepted 0x02A2 true 8 20 c (s.advance t) → RingInv s →
      (∀ start n : Nat, 1 ≤ field c.payload 4 2 → field c.payload 4 2 ≤ 8192 →
        start = readStart s (field c.payload 0 4) → n = min (field c.payload 4 2) (recDist start s.aon.next) →
        (n ≤ 20 →
          ∃ v first dropped,
            exec (.recRead t c) s = .next (complete s.hp.admSeq .ok 0 (le 4 first ++ le 2 n ++ le 2 dropped ++
              le 4 s.aon.oldest ++ le 4 s.aon.next ++ le 4 0) v) ∧ Admitted c s v ∧ (n ≠ 0 → first = start) ∧
            v.device = s.device) ∧
        (20 < n →
          ∃ u j, exec (.recRead t c) s = .next u ∧ Admitted c s u ∧ u.rcd.reads = s.rcd.reads ++ [j] ∧
            j.seq = s.hp.admSeq ∧ j.next = (start + 20) % 2 ^ 32 ∧ j.left = field c.payload 4 2 - 20 ∧
            j.first = some start ∧ j.offered = 20 ∧ j.overrun = 0 ∧ u.device = ({ s with rcd := u.rcd }).device)) ∧
      ((field c.payload 4 2 = 0 ∨ 8192 < field c.payload 4 2) →
        Answers (exec (.recRead t c) s) c s .conflict 1 []
          s)) ∧
    (Accepted 0x02A3 true 16 0 c (s.advance t) → s.rcd.raised = [] →
      (s.key = none →
        Answers (exec (.recClear t c) s) c s .notAuthorised 3 []
          ({ s with rcd := { s.rcd with authRes := 3 } })) ∧
      (∀ key, s.key = some key → tokenWindow s (field c.payload 0 6) = true →
        (slice c.payload 8 8 = token key 0x02A3 0 (field c.payload 0 6) s.rcd.nonce →
          ∃ u e, exec (.recClear t c) s = .next u ∧ Admitted c s u ∧ u.rcd.staging = s.rcd.staging ++ [e] ∧ e.ty = 0x23 ∧ e.ok = true ∧
            e.job = some s.hp.admSeq ∧ u.rcd.authRes = 0 ∧ u.rcd.nonce = Config.random s.free ∧ u.rcd.open_ = none ∧
            (s.rcd.open_ = none → u.rcd.mem = s.rcd.mem) ∧ u.aon = s.aon) ∧
        (slice c.payload 8 8 ≠ token key 0x02A3 0 (field c.payload 0 6) s.rcd.nonce →
          ∃ u e, exec (.recClear t c) s = .next u ∧ Admitted c s u ∧ u.rcd.staging = s.rcd.staging ++ [e] ∧ e.ty = 0x23 ∧
            e.ok = false ∧ u.rcd.authRes = 5 ∧ u.rcd.fails = min (s.rcd.fails + 1) 65535 ∧ bit u.rcd.fault 1 = true ∧
            u.rcd.nonce = Config.random s.free ∧ u.rcd.mem = s.rcd.mem ∧ u.aon = s.aon)))

/-- R312, R315, R316, R318: in SERVICE without coalescing a trigger enters the staging queue, or is lost and counted
where the queue holds 32 triggers; a SURVEY period ends with one record; REC_MARK raises its trigger where enabled; REC_CURSOR
loads a reachable record and shows any other as gone. -/
def Obligations.Recorder_triggers : Prop :=
  ∀ (t : Nat) (s : State),
    (∀ g rest, awake s = true → s.rcd.raised = g :: rest → fld s.rcd.cfg 0 2 = 1 → fld s.rcd.cfg 16 16 = 0 →
      bit s.rcd.eclEn g.cls = false →
      (stageFill s < 32 →
        ∃ u e, exec (.recTrigger t) s = .next u ∧ u.rcd.raised = rest ∧ u.rcd.staging = s.rcd.staging ++ [e] ∧
          e.ty = 0x20 ∧ e.trig = g.cls ∧ e.source = g.source ∧ e.detail = g.detail ∧ e.epoch = g.epoch ∧
          e.tbTime = g.tbTime ∧ e.role = g.role ∧ u.rcd.mem = s.rcd.mem ∧ u.heads = s.heads ∧ u.aon = s.aon) ∧
      (32 ≤ stageFill s →
        ∃ u, exec (.recTrigger t) s = .next u ∧ u.rcd.raised = rest ∧ u.rcd.staging = s.rcd.staging ∧
          u.rcd.lost = min (s.rcd.lost + 1) 65535 ∧ u.rcd.ovf = min (s.rcd.ovf + 1) 65535 ∧
          bit u.rcd.fault 0 = true ∧ u.rcd.mem = s.rcd.mem ∧ u.heads = s.heads ∧ u.aon = s.aon)) ∧
    (s.phase = .running → fld s.rcd.cfg 0 2 = 2 → s.rcd.raised = [] →
      s.rcd.survey.startSeq + 100 * max 1 (fld s.rcd.period 0 16) ≤ s.epc.seq →
      ∃ u e, exec (.recSurveyPeriod t) s = .next u ∧ u.rcd.staging = s.rcd.staging ++ [e] ∧ e.ty = 0x21 ∧
        u.rcd.survey.startSeq = s.rcd.survey.startSeq + 100 * max 1 (fld s.rcd.period 0 16) ∧
        u.rcd.survey.trigs = 0 ∧ u.rcd.mem = s.rcd.mem ∧ u.heads = s.heads) ∧
    (∀ v : Word, hostOk s = true →
      (bit s.rcd.trigEn 14 = true →
        ∃ u g, exec (.recMarkWrite t v 15) s = .next u ∧ u.rcd.raised = s.rcd.raised ++ [g] ∧ g.cls = 14 ∧
          g.detail = v ∧ g.source = 0xFFFF ∧ g.epoch = s.epc.seq ∧ u.device = s.device) ∧
      (reachable s v.toNat = true →
        exec (.recCursorWrite t v 15) s = .next { s.advance t with rcd := { s.rcd with
          cursor := v, window := recordBytes s v.toNat, winNo := some v.toNat, winStale := false, winGone := false,
          winAt := some (max s.now t) } }) ∧
      (reachable s v.toNat = false →
        exec (.recCursorWrite t v 15) s = .next { s.advance t with rcd := { s.rcd with
          cursor := v, window := zeros 128, winNo := none, winStale := false, winGone := true,
          winAt := some (max s.now t) } }))

/-- R310, R314, R316, R317: the next staged record is written whole into the slot of its RECNO, NEXT steps, and every byte of
the recorder's memory outside that slot and outside bytes 48 to 53 of the open record reads as before; a write-back
writes those bytes alone. The premise is an invariant that every step keeps. -/
def Obligations.Recorder_writing : Prop :=
  ∀ (t : Nat) (s : State), awake s = true → MemInv s →
    (∀ e rest, s.rcd.staging = e :: rest → mayWrite (s.advance t) = true →
      ∃ u, exec (.recWrite t) s = .next u ∧ u.rcd.staging = rest ∧ u.aon.next = (s.aon.next + 1) % 2 ^ 32 ∧
        u.rcd.lost = 0 ∧ u.rcd.lastWrite = some (max s.now t) ∧
        memRead u.rcd.mem (128 * (s.aon.next % 262144)) 128 = entryBytes e s.aon.next s.rcd.lost (writtenDetail s e) ∧
        (∀ a, (a < 128 * (s.aon.next % 262144) ∨ 128 * (s.aon.next % 262144) + 128 ≤ a) →
          (∀ o, s.rcd.open_ = some o →
            a < 128 * (o.recno % 262144) + 48 ∨ 128 * (o.recno % 262144) + 54 ≤ a) →
          memGet u.rcd.mem a = memGet s.rcd.mem a) ∧ u.heads = s.heads ∧ u.sections = s.sections) ∧
    (∀ o, s.rcd.open_ = some o → o.latest + fld s.rcd.cfg 16 16 < s.epc.seq →
      ∃ u, exec (.recWriteBack t) s = .next u ∧ u.rcd.open_ = none ∧
        memRead u.rcd.mem (128 * (o.recno % 262144) + 48) 6 =
          le 2 o.rep ++ le 4 (if o.rep = 0 then 0 else o.lastEp) ∧
        (∀ a, (a < 128 * (o.recno % 262144) + 48 ∨ 128 * (o.recno % 262144) + 54 ≤ a) →
          memGet u.rcd.mem a = memGet s.rcd.mem a) ∧
        u.device = ({ s with rcd := { s.rcd with mem := u.rcd.mem, open_ := none } }).device)

/-- R268, R270, R273, R275: HP_NOP with room in its completion orbit: the command's slot is consumed, the completion is
written with its descriptor's index, tag and epochs, both shadows follow, and nothing else of the device changes. -/
def Obligations.Completion_of_a_command : Prop :=
  ∀ (t : Nat) (c : Cmd) (s : State), Accepted 0x0001 false 0 0 c (s.advance t) →
    (∀ e ∈ s.hp.inflight, e.admSeq ≠ s.hp.admSeq) →
    ∃ u, exec (.hpNop t c) s = .next u ∧ u.device = s.device ∧ u.hp.inflight = s.hp.inflight ∧
      u.hp.admSeq = s.hp.admSeq + 1 ∧ u.hp.completed = (s.hp.completed + 1) % 65536 ∧
      u.hp.refused = s.hp.refused ∧ u.hp.flrLost = s.hp.flrLost ∧
      (u.orbit (cmdOrbit c.orbit)).devIdx = (s.orbit (cmdOrbit c.orbit)).devIdx + 1 ∧
      (u.orbit (compOrbit c.orbit)).devIdx = (s.orbit (compOrbit c.orbit)).devIdx + 1 ∧
      (∀ k, k ≠ cmdOrbit c.orbit → k ≠ compOrbit c.orbit → u.orbit k = s.orbit k) ∧
      (let writes (a : BitVec 64) (b : List Byte) : List Out := (dmaRequests s.hp.maxPayload a [] b).reverse
       u.out = writes (s.orbit (compOrbit c.orbit)).shadow (leWord ((s.orbit (compOrbit c.orbit)).devIdx + 1)) ++
        (writes ((s.orbit (compOrbit c.orbit)).slot (s.orbit (compOrbit c.orbit)).devIdx)
          (le 2 1 ++ le 2 c.tag.toNat ++ [0, 0, BitVec.ofNat 8 c.orbit.val, 0] ++
            leWord (s.orbit (cmdOrbit c.orbit)).devIdx ++ le 2 0 ++ [0, 0] ++ le 6 s.epc.seq ++ le 6 s.epc.seq ++
            le 4 s.hp.admSeq) ++
        (writes (s.orbit (cmdOrbit c.orbit)).shadow (leWord ((s.orbit (cmdOrbit c.orbit)).devIdx + 1)) ++ s.out)))

/-- R270 to R272: for every command row of the table: a descriptor that may not be admitted changes nothing; one that finds no
slot, or an earlier command under FENCE, is kept, and no other descriptor of its orbit is admitted before it. One admitted
completes BAD_LENGTH with less than its PLEN, REFUSED_BUSY, for a long one with 8 long ones in progress, for any with 64,
and SHORT_BUFFER with less than its RLEN, in that order (the order is the model's choice, assumption log 14); none of
these changes the device. -/
def Obligations.Host_port_checks : Prop :=
  ∀ (i : Instr) (s : State) (op : BitVec 16) (long : Bool) (need rneed : Nat) (c : Cmd),
    commandShape i = some (op, long, need, rneed, c) →
    (admissible op c (s.advance (timeOf i)) = false →
      ∃ u, exec i s = .next u ∧ u.device = s.device ∧ u.hp = s.hp ∧ u.out = s.out ∧ u.irq = s.irq ∧
        (∀ k, { u.orbit k with waiting := (s.orbit k).waiting } = s.orbit k) ∧
        (∀ w, (s.orbit (cmdOrbit c.orbit)).waiting = some w → (u.orbit (cmdOrbit c.orbit)).waiting = some w) ∧
        (orbitReady c.orbit s = true → (s.orbit (cmdOrbit c.orbit)).waiting = none →
          (noSlot c.orbit s = true ∨ fenceHolds c s = true) →
          (u.orbit (cmdOrbit c.orbit)).waiting = some { opcode := op, desc := descOf c })) ∧
    (∀ w, (s.orbit (cmdOrbit c.orbit)).waiting = some w → (w.opcode ≠ op ∨ w.desc ≠ descOf c) →
      admissible op c (s.advance (timeOf i)) = false) ∧
    (admissible op c (s.advance (timeOf i)) = true →
      (c.plen.toNat < need →
        ∃ v, exec i s = .next (complete s.hp.admSeq .badLength 0xF0 [] v) ∧ v.device = s.device) ∧
      (need ≤ c.plen.toNat → long = true → 8 ≤ (s.hp.inflight.filter (·.long)).length →
        ∃ v, exec i s = .next (complete s.hp.admSeq .refusedBusy 0xF3 [] v) ∧ v.device = s.device) ∧
      (need ≤ c.plen.toNat → 64 ≤ s.hp.inflight.length →
        (long = true → (s.hp.inflight.filter (·.long)).length < 8) →
        ∃ v, exec i s = .next (complete s.hp.admSeq .refusedBusy 0xF2 [] v) ∧ v.device = s.device) ∧
      (need ≤ c.plen.toNat → s.hp.inflight.length < 64 →
        (long = true → (s.hp.inflight.filter (·.long)).length < 8) → c.rlen.toNat < rneed →
        ∃ v, exec i s = .next (complete s.hp.admSeq .shortBuffer 0 [] v) ∧ v.device = s.device))

/-- R264, R274, R275: HP_SEAL seals once; HP_WRITE completes SEALED after sealing and CONFLICT 0xF4 where there is no
register, and before sealing writes EPC_CFG; HP_IDENT reads the identification with the epoch number whose high half
it captures; an opcode outside the table completes BAD_OPCODE. -/
def Obligations.Host_port_commands : Prop :=
  ∀ (t : Nat) (c : Cmd) (s : State),
    (Accepted 0x0002 false 0 0 c (s.advance t) →
      (s.hp.isSealed = false →
        ∃ v, exec (.hpSeal t c) s = .next (complete s.hp.admSeq .ok 0 [] v) ∧ Admitted c s v ∧ v.hp.isSealed = true ∧
          v.device = s.device) ∧
      (s.hp.isSealed = true →
        ∃ v, exec (.hpSeal t c) s = .next (complete s.hp.admSeq .sealed 0 [] v) ∧ Admitted c s v ∧ v.hp.isSealed = true ∧
          v.device = s.device)) ∧
    (Accepted 0x0003 false 8 0 c (s.advance t) →
      (s.hp.isSealed = true →
        Answers (exec (.hpWrite t c) s) c s .sealed 0 []
          s) ∧
      (s.hp.isSealed = false → (regView s (field c.payload 0 4)).isNone = true →
        Answers (exec (.hpWrite t c) s) c s .conflict 0xF4 []
          s) ∧
      (s.hp.isSealed = false → field c.payload 0 4 = 0x4700C →
        Answers (exec (.hpWrite t c) s) c s .ok 0 []
          ({ s with epc := { s.epc with cfg := word (field c.payload 4 4) &&& 0xFFFF } }))) ∧
    (Accepted 0x0004 false 0 32 c (s.advance t) →
      ∃ v, exec (.hpIdent t c) s = .next (complete s.hp.admSeq .ok 0
          (leWords ([0x00, 0x04, 0x08, 0x0C, 0x10, 0x20, 0x47000, 0x47004].map (readReg v))) v) ∧ Admitted c s v ∧
        readReg v 0x47000 = word s.epc.seq ∧ readReg v 0x47004 = word (s.epc.seq / 2 ^ 32 % 65536) ∧
        v.device = ({ s with epc := { s.epc with seqHi := s.epc.seq / 2 ^ 32 % 65536 } }).device) ∧
    (∀ opcode, admissible opcode c (s.advance t) = true →
      Answers (exec (.commandBadOpcode t opcode c) s) c s .badOpcode 0 []
          s)

/-- R4, R5, R211, R227, R262 to R264, R283: accesses of the host to registers. The seal takes one value, compared whole
(the model's choice, assumption log 79); ERR_CLR zeroes the error counter and log; EPC_FAULT loses exactly the bits
written as 1; a write outside the map, with byte enables missing or, after sealing, to EPC_CFG changes nothing and is
counted with its cause. EPC_CTRL.CLR restarts EPC_MIN and EPC_PACE.MIN, a read of EPC_SEQ_LO captures the high half and
returns the bytes its enables select, and VSP_TEST arms exactly the named lanes. -/
def Obligations.Host_register_accesses : Prop :=
  ∀ (t : Nat) (s : State), hostOk s = true →
    (∀ v : Word, bit v 0 = true →
      exec (.epcCtrlClr t v 15) s = .next { s.advance t with
        epc := { s.epc with minSlack := 0x8C, minAt := 0, paceMin := 0xFFFF } }) ∧
    exec (.epcSeqLoRead t { off := 0x47000, dwords := 2, firstBe := 15, lastBe := 3 }) s = .next { s.advance t with
      epc := { s.epc with seqHi := s.epc.seq / 2 ^ 32 % 65536 }
      hp := { s.hp with readData := some (le 4 s.epc.seq ++ le 2 (s.epc.seq / 2 ^ 32)) } } ∧
    (∀ r : BusRead, (16 < r.dwords ∨ r.off / 4096 ≠ (r.off + 4 * r.dwords - 1) / 4096) →
      exec (.epcSeqLoRead t r) s = .next { s.advance t with hp := { s.hp with readData := none } }) ∧
    (∀ v : Word, (∀ l r, (s.vsp.lane l).read = some r → max s.now t < r.done) →
      ∃ u, exec (.vspTestCrcFail t v 15) s = .next u ∧
      (∀ l : Lane, (u.vsp.lane l).crcFail = ((s.vsp.lane l).crcFail || bit v (laneIdx l)) ∧
        (u.vsp.lane l).bits = (s.vsp.lane l).bits) ∧
      u = { s.advance t with vsp := u.vsp }) ∧
    exec (.hpSealWrite t 0x5EA10001 15) s = .next { s.advance t with hp := { s.hp with isSealed := true } } ∧
    (∀ v : Word, v ≠ 0x5EA10001 → s.hp.muted = none →
      ∃ u, exec (.hpSealWrite t v 15) s = .next u ∧ u.hp.isSealed = s.hp.isSealed ∧
        u.hp.errCount = min (s.hp.errCount + 1) 65535 ∧ u.hp.errLog = put 28 4 7 ||| put 0 23 0x20 ∧
        u.device = s.device) ∧
    (∀ v : Word, bit v 0 = true →
      exec (.hpCtrlErrClr t v 15) s = .next { s.advance t with hp := { s.hp with errCount := 0, errLog := 0 } }) ∧
    (∀ v : Word, exec (.registerWrite t .bar0 0x47024 v 15 1) s = .next { s.advance t with
      epc := { s.epc with fault := s.epc.fault &&& ~~~ (v &&& 0x1F) } }) ∧
    (∀ (off : Nat) (v : Word), regView s off = none → s.hp.muted = none →
      ∃ u, exec (.registerWrite t .bar0 off v 15 1) s = .next u ∧ u.device = s.device ∧
        u.hp.errCount = min (s.hp.errCount + 1) 65535 ∧ u.hp.errLog = put 28 4 3 ||| put 27 1 0 ||| put 0 23 off) ∧
    (∀ (off : Nat) (v : Word) (be : BitVec 4), be ≠ 15 → s.hp.muted = none →
      ∃ u, exec (.registerWrite t .bar0 off v be 1) s = .next u ∧ u.device = s.device ∧
        u.hp.errCount = min (s.hp.errCount + 1) 65535 ∧ u.hp.errLog = put 28 4 1 ||| put 27 1 0 ||| put 0 23 off) ∧
    (∀ v : Word, s.hp.isSealed = true → v &&& 0xFFFF ≠ s.epc.cfg → s.epc.cfg &&& 0xFFFF = s.epc.cfg → s.hp.muted = none →
      ∃ u, exec (.registerWrite t .bar0 0x4700C v 15 1) s = .next u ∧ u.device = s.device ∧
        u.hp.errCount = min (s.hp.errCount + 1) 65535 ∧ u.hp.errLog = put 28 4 2 ||| put 27 1 0 ||| put 0 23 0x4700C)

/-- R9, R264: on a sealed device no access of the host, whatever row it comes by, changes a set-up value; the seal stays. A
write to a set-up register with all byte enables is counted exactly where it would have changed the value of an RW field,
and one to FE_ROUTE_CTRL also where it writes 1 to GO, which does not act. REC_CURSOR and ZL_PDB act before and after
sealing. -/
def Obligations.Sealed_set_up_is_kept : Prop :=
  ∀ s : State, s.hp.isSealed = true →
    (∀ i : Instr, hostAccess i = true → ∃ u, exec i s = .next u ∧ SetUpKept s u) ∧
    (∀ t : Nat, hostOk (s.advance t) = true → s.hp.muted = none →
      (∀ (off : Nat) (v : Word) (r : RegView), regView (s.advance t) off = some r → 0x20000 ≤ off →
        off ≠ 0x49030 → off ≠ 0x4B07C → (0x100000 ≤ off → off < 0x200000 → off % 0x1000 ≠ 8) →
        ∃ u, exec (.registerWrite t .bar0 off v 15 1) s = .next u ∧ u.hp.errCount =
          (if (v ^^^ r.val) &&& r.rw = 0 then s.hp.errCount else min (s.hp.errCount + 1) 65535)) ∧
      (∀ (h : HeadId) (v : Word), ∃ u, exec (.feRouteCtrlGo t h v 15) s = .next u ∧ u.hp.errCount =
        (if bit v 31 = false ∧ fld v 0 2 = fld (s.head h).fe.routeCtrl 0 2 then s.hp.errCount
         else min (s.hp.errCount + 1) 65535)))

/-- R266, R267, R276, R278: a write of ORB_CFG that passes its test sets the fields, and EN from 0 to 1 starts both
indices at zero; one that fails changes nothing of the orbit but, for a refused
clear of EN, that BUSY shows it. A doorbell of a command or completion orbit in range
moves the host's index; one out of range or on a disabled orbit moves nothing and sets its flag. A stream buffer whose
time has come is handed back. -/
def Obligations.Orbits_and_doorbells : Prop :=
  ∀ (t : Nat) (s : State) (k : Fin 16) (v : Word),
    (hostOk s = true → orbCfgTest s k v = 0 →
      ∃ u, exec (.orbCfgWrite t k v 15) s = .next u ∧ (u.orbit k).cfg = v &&& 0xFF01011F ∧
        (bit v 8 = true → (s.orbit k).en = false →
          (u.orbit k).hostIdx = 0 ∧ (u.orbit k).devIdx = 0 ∧ (u.orbit k).halt = false) ∧
        (∀ j, j ≠ k → u.orbit j = s.orbit j) ∧ u.device = s.device ∧ u.hp = s.hp) ∧
    (hostOk s = true → orbCfgTest s k v ≠ 0 → k ≠ 15 →
      ∃ u, exec (.orbCfgWrite t k v 15) s = .next u ∧
        { u.orbit k with clrRefused := (s.orbit k).clrRefused } = s.orbit k ∧
        ((s.orbit k).en = true → bit v 8 = false → mayDisable s k = false → (u.orbit k).clrRefused = true) ∧
        u.device = s.device) ∧
    (∀ descs, hostOk s = true → (s.orbit k).en = true → k.val < 8 →
      (doorbellFlags k (s.orbit k) v = 0 →
        ∃ u, exec (.orbDoorbell t k v 15 descs) s = .next u ∧ (u.orbit k).hostIdx = v ∧
          (u.orbit k).devIdx = (s.orbit k).devIdx ∧ (∀ j, j ≠ k → u.orbit j = s.orbit j) ∧
          u.device = s.device ∧ u.hp = s.hp) ∧
      (doorbellFlags k (s.orbit k) v ≠ 0 →
        ∃ u, exec (.orbDoorbell t k v 15 descs) s = .next u ∧ (u.orbit k).hostIdx = (s.orbit k).hostIdx ∧
          (u.orbit k).fault = (s.orbit k).fault ||| doorbellFlags k (s.orbit k) v ∧ u.device = s.device)) ∧
    (∀ descs, hostOk s = true → (s.orbit k).en = false → k ≠ 15 →
      ∃ u, exec (.orbDoorbell t k v 15 descs) s = .next u ∧ (u.orbit k).hostIdx = (s.orbit k).hostIdx ∧
        bit (u.orbit k).fault 4 = true ∧ u.device = s.device) ∧
    (∀ (b : Buf) (e : Nat), s.phase = .running → (s.orbit k).posted = [b] → b.first = some e → (s.orbit k).en = true →
      (s.orbit k).halt = false → canMaster s = true → e + fld (s.orbit k).cfg 24 8 < s.epc.seq →
      ∃ u, exec (.streamFlush t k) s = .next u ∧ (u.orbit k).posted = [] ∧ (u.orbit k).dropsSince = 0 ∧
        (u.orbit k).devIdx = (s.orbit k).devIdx + 1 ∧
        u.out = (dmaRequests s.hp.maxPayload (s.orbit k).shadow [] (leWord ((s.orbit k).devIdx + 1))).reverse ++
          ((dmaRequests s.hp.maxPayload ((s.orbit k).slot (s.orbit k).devIdx + 12) []
            (le 2 b.used ++ [3, 0] ++ le 6 e ++ le 2 (s.orbit k).dropsSince)).reverse ++ s.out) ∧
        (∀ j, j ≠ k → u.orbit j = s.orbit j) ∧ u.device = s.device)

/-- R279 to R281: the function's resets put the orbits and the interrupt controller at their reset values and keep the
seal and everything behind the host port; a command in progress stays, marked lost. A failed
descriptor read halts its orbit and sets DMA; a failed payload read completes BAD_LENGTH without the command's effect; a
poisoned write is dropped; each is logged for AER. A write of the device goes out whole, in order, as requests of at most
Max_Payload_Size that cross no 4 KiB boundary. -/
def Obligations.Function_resets_and_dma_errors : Prop :=
  ∀ (t : Nat) (s : State),
    (awake s = true →
      (hostUp s = true →
        (∃ u, exec (.functionLevelReset t) s = .next u ∧ u.hp.isSealed = s.hp.isSealed ∧
          u.hp.flrCount = (s.hp.flrCount + 1) % 65536 ∧ u.hp.flrLost = 0 ∧ u.hp.bme = false ∧ u.hp.d3hot = false ∧
          u.hp.inflight = s.hp.inflight.map (fun c => { c with lost := true }) ∧
          u.orbits = Vector.replicate 16 Orbit.reset ∧ u.irq = Irq.reset ∧ u.out = s.out ∧ u.device = s.device) ∧
        (s.hp.d3hot = true →
          ∃ u, exec (.d3hotToD0 t) s = .next u ∧ u.hp.isSealed = s.hp.isSealed ∧ u.hp.d3hot = false ∧
            u.hp.flrCount = (s.hp.flrCount + 1) % 65536 ∧ u.hp.flrLost = s.hp.flrLost ∧
            u.orbits = Vector.replicate 16 Orbit.reset ∧ u.irq = Irq.reset ∧ u.device = s.device) ∧
        (s.hp.d3hot = false →
          exec (.d0ToD3hot t) s = .next { s.advance t with hp := { s.hp with
            d3hot := true, flrLost := 0, inflight := s.hp.inflight.map (fun c => { c with lost := true }) } }) ∧
        exec (.busMasterEnableChange t false) s = .next { s.advance t with hp := { s.hp with bme := false } } ∧
        (∃ u, exec (.busMasterEnableChange t true) s = .next u ∧ u.hp = { s.hp with bme := true } ∧
          u.device = s.device)) ∧
      (∃ u, exec (.conventionalReset t) s = .next u ∧ u.hp.isSealed = s.hp.isSealed ∧ u.hp.flrCount = s.hp.flrCount ∧
        u.orbits = Vector.replicate 16 Orbit.reset ∧ u.irq = Irq.reset ∧ u.device = s.device)) ∧
    (∀ k : Fin 4, orbitReady k s = true → (s.orbit (cmdOrbit k)).waiting = none →
      ∃ u, exec (.dmaReadError t (.descriptor (cmdOrbit k))) s = .next u ∧ (u.orbit (cmdOrbit k)).halt = true ∧
        bit (u.orbit (cmdOrbit k)).fault 2 = true ∧
        (u.orbit (cmdOrbit k)).devIdx = (s.orbit (cmdOrbit k)).devIdx ∧ u.hp.aerLogged = s.hp.aerLogged + 1 ∧
        u.device = s.device) ∧
    (∀ opcode c, admissible opcode c (s.advance t) = true →
      ∃ v, exec (.dmaReadError t (.payload opcode c)) s = .next (complete s.hp.admSeq .badLength 0xF1 [] v) ∧ Admitted c s v ∧
        v.hp.aerLogged = s.hp.aerLogged + 1 ∧ v.device = s.device) ∧
    (hostOk s = true →
      exec (.poisonedWrite t) s = .next { s.advance t with hp := { s.hp with aerLogged := s.hp.aerLogged + 1 } }) ∧
    (∀ (mps : Nat) (a : BitVec 64) (bytes : List Byte), 0 < mps →
      ∃ l : List (BitVec 64 × List Byte), dmaRequests mps a [] bytes = l.map (fun r => .dma r.1 r.2) ∧
        l.flatMap (·.2) = bytes ∧
        (∀ r ∈ l, 1 ≤ r.2.length ∧ r.2.length ≤ mps ∧ r.1.toNat % 4096 + r.2.length ≤ 4096) ∧
        (∀ l1 r l2, l = l1 ++ r :: l2 → r.1 = a + BitVec.ofNat 64 (l1.flatMap (·.2)).length))

/-- A step takes the command at the front of the queue and runs it on the state with the queue's rest; on an empty queue
the block idles (the model's choice, assumption log 4). -/
def Obligations.Step_runs_the_front_command : Prop :=
  ∀ (s : State) (c : Instr) (rest : List Instr),
    step { s with pending := c :: rest } = exec c { s with pending := rest } ∧
      step { s with pending := [] } = .next { s with pending := [] }

/-- Before anything has come in: reset values that the register maps state, and the state of the section, vital and duplex
logic that the rules give; the recorder's memory has its canonical form. -/
def Obligations.Reset_values : Prop :=
  State.reset.phase = .reset ∧ State.reset.pending = [] ∧
    (∀ n : SecId, (State.reset.sec n).core.state = .disturbed ∧ (State.reset.sec n).core.service = false ∧
      (State.reset.sec n).latch = true) ∧
    (∀ h : HeadId, (State.reset.head h).fe.route.cur.mode = 0 ∧ (State.reset.head h).cmp.slice.one.forced = true ∧
      (State.reset.head h).cmp.slice.two.forced = true ∧ (State.reset.head h).xs.freq = ⟨0x7530, 0x84D0⟩) ∧
    State.reset.hp.isSealed = false ∧ State.reset.vsp.ctrl = 7 ∧ State.reset.aon.driveAge = 65535 ∧
    State.reset.irq.mask = BitVec.allOnes 512 ∧ drives State.reset = false ∧ MemInv State.reset ∧
    RingInv State.reset

/-- R310, R316, R317: whatever command a step runs, the recorder's memory keeps its canonical form (one entry a byte,
addresses rising), its ring keeps NEXT and OLDEST at most 262,144 records apart, and no command but those of the recorder's writing and set-up changes a byte of it. -/
def Obligations.Every_step_keeps_the_memory_canonical : Prop :=
  ∀ s u : State, step s = .next u →
    (MemInv s → MemInv u) ∧ (RingInv s → RingInv u) ∧
    (∀ (i : Instr) (rest : List Instr), s.pending = i :: rest → writesRecorder i = false → u.rcd.mem = s.rcd.mem)

/-- R189: the customer key is programmed once, by SEC_KEY_PROGRAM, on a device that has none and is not sealed; sealed, the
command completes SEALED, and with a key CONFLICT 3, changing nothing. SEC_AUTH.KEY shows whether there is a key. A key
once programmed is never changed by any command, not by any reset either. -/
def Obligations.Key_is_programmed_once : Prop :=
  (∀ (t : Nat) (c : Cmd) (s : State), Accepted 0x0266 true 32 0 c (s.advance t) →
    (s.hp.isSealed = false → s.key = none →
      Answers (exec (.secKeyProgram t c) s) c s .ok 0 [] { s with key := some (c.payload.take 32) }) ∧
    (s.hp.isSealed = false → s.key.isSome = true →
      Answers (exec (.secKeyProgram t c) s) c s .conflict 3 [] s) ∧
    (s.hp.isSealed = true →
      Answers (exec (.secKeyProgram t c) s) c s .sealed 0 [] s)) ∧
  (∀ s : State, bit (readReg s 0x46000) 31 = s.key.isSome) ∧
  (∀ (i : Instr) (s u : State), exec i s = .next u → u.key ≠ s.key → ∃ t c, i = .secKeyProgram t c) ∧
  (∀ (s u : State) (k : List Byte), s.key = some k → step s = .next u → u.key = some k)

/-- R18: no command, access or configuration request of the host and no message of the partner changes the state, count,
service or code of any section or releases its trip latch, and none queues a reset of a section but a reset command that
carries the valid tokens. -/
def Obligations.Software_moves_no_section_towards_clear : Prop :=
  ∀ (i : Instr) (s u : State) (n : SecId), fromSoftware i = true → exec i s = .next u →
    (u.sec n).core.state = (s.sec n).core.state ∧ (u.sec n).core.count = (s.sec n).core.count ∧
      (u.sec n).core.service = (s.sec n).core.service ∧ (u.sec n).code = (s.sec n).code ∧
      ((s.sec n).latch = true → (u.sec n).latch = true) ∧
      (∀ q ∈ (u.sec n).cmds, (∃ direct, q.op = .reset direct) → q ∈ (s.sec n).cmds ∨ carriesTokens i s n)

/-- R12, R329, R346: while the core die is in reset, no command changes anything but those that reach the supplies, the
role pins, the interlock in AON, the voter pads, the TAP's reset, ECLIPSE_N and CLKREF, and the release itself. While the
device is in eclipse, no command changes anything but the TAP, the AON cells, ECLIPSE_N, the holds of the supply monitors,
what a voter last read, and of ZL_ the pins, the role input and the interlock logic with its instants; a voter reads
zeros. Every read of a lane has been cut off as eclipse was entered, and none begins in it. -/
def Obligations.Core_reset_and_eclipse_stop_the_rest : Prop :=
  (∀ (i : Instr) (s : State), s.phase = .reset → actsInReset i = false → exec i s = .next (s.advance (timeOf i))) ∧
  (∀ (i : Instr) (s u : State), s.phase = .eclipse → (∀ l, (s.vsp.lane l).read = none) → exec i s = .next u →
    u.phase = .eclipse →
    u = { s with
      now := u.now, free := u.free, tap := u.tap, aon := u.aon, ecl := { s.ecl with pinLow := u.ecl.pinLow }
      pwr := { s.pwr with
        supplyOk := u.pwr.supplyOk, held := u.pwr.held, aonHeld := u.pwr.aonHeld, coreHeld := u.pwr.coreHeld,
        hostHeld := u.pwr.hostHeld, linkHeld := u.pwr.linkHeld }
      vsp := { s.vsp with
        a := { s.vsp.a with bits := u.vsp.a.bits }, b := { s.vsp.b with bits := u.vsp.b.bits },
        c := { s.vsp.c with bits := u.vsp.c.bits } }
      zl := { s.zl with
        pins := u.zl.pins, roleIn := u.zl.roleIn, deposed := u.zl.deposed, roleAt := u.zl.roleAt, claim := u.zl.claim,
        claimAt := u.zl.claimAt, wantSince := u.zl.wantSince, wonAt := u.zl.wonAt, holdIn := u.zl.holdIn,
        holdOut := u.zl.holdOut, driveFrom := u.zl.driveFrom } }) ∧
  (∀ (i : Instr) (s u : State), s.phase ≠ .eclipse → exec i s = .next u → u.phase = .eclipse →
    ∀ l, (u.vsp.lane l).read = none) ∧
  (∀ (t : Nat) (l : Lane) (r : ReadInput) (s : State), s.phase = .eclipse →
    ∃ u, exec (.vspRead t l r) s = .next u ∧ (u.vsp.lane l).bits = List.replicate 576 false)

/-- R9, R12: an event that names a head leaves the chassis (key, vital port, time base, power, clocks, eclipse, TAP, AON,
recorder memory, run phase), every other head and the set-up words of its own head as they were. -/
def Obligations.Head_events_stay_on_their_head : Prop :=
  ∀ (i : Instr) (h : HeadId) (s u : State), headEvent i = some h → exec i s = .next u →
    u.chassis = s.chassis ∧ OtherHeadsKept h s u ∧ (u.head h).setUp = (s.head h).setUp
end

