-- ==== Sys2Proof/Laws/State.lean ====
section
/-! SUPPORT. What each update of the state leaves alone, field by field, and what the tables give back after a write. -/
namespace Sys2Proof.Machine

/-! ### Tables -/

theorem tget_eq {α : Type} {n : Nat} (v : Vector α n) (i : Fin n) : tget v i = v[i.val] := rfl

@[simp] theorem tget_tset_same {α : Type} {n : Nat} (v : Vector α n) (i : Fin n) (a : α) : tget (tset v i a) i = a := by
  simp [tget_eq, tset]

theorem tget_tset_other {α : Type} {n : Nat} (v : Vector α n) (i j : Fin n) (a : α) (h : j ≠ i) :
    tget (tset v i a) j = tget v j := by
  have : i.val ≠ j.val := fun e => h (Fin.ext e.symm)
  simp [tget_eq, tset, this]

theorem tget_tset {α : Type} {n : Nat} (v : Vector α n) (i j : Fin n) (a : α) :
    tget (tset v i a) j = if j = i then a else tget v j := by
  split
  · subst_vars; simp
  · exact tget_tset_other v i j a ‹_›

@[simp] theorem tget_tmod_same {α : Type} {n : Nat} (v : Vector α n) (i : Fin n) (f : α → α) :
    tget (tmod v i f) i = f (tget v i) := by simp [tmod]

theorem tget_tmod_other {α : Type} {n : Nat} (v : Vector α n) (i j : Fin n) (f : α → α) (h : j ≠ i) :
    tget (tmod v i f) j = tget v j := tget_tset_other v i j _ h

theorem tget_tmod {α : Type} {n : Nat} (v : Vector α n) (i j : Fin n) (f : α → α) :
    tget (tmod v i f) j = if j = i then f (tget v j) else tget v j := by
  rw [tmod, tget_tset]; split <;> simp_all

/-- A table is known by its entries. -/
theorem table_ext {α : Type} {n : Nat} (v w : Vector α n) (h : ∀ i, tget v i = tget w i) : v = w := by
  ext i hi
  exact h ⟨i, hi⟩

@[simp] theorem tmod_tmod {α : Type} {n : Nat} (v : Vector α n) (i : Fin n) (f g : α → α) :
    tmod (tmod v i f) i g = tmod v i (fun a => g (f a)) := by
  apply table_ext; intro j; simp only [tget_tmod]; split <;> simp_all

@[simp] theorem tget_replicate {α : Type} {n : Nat} (a : α) (i : Fin n) : tget (Vector.replicate n a) i = a := by
  simp [tget_eq]

@[simp] theorem tget_tabulate {α : Type} {n : Nat} (f : Nat → α) (i : Fin n) : tget (tabulate n f) i = f i.val := by
  simp [tget_eq, tabulate]

theorem tget_mk_map {α β : Type} {n : Nat} (v : Vector α n) (f : α → β) (i : Fin n) :
    tget (v.map f) i = f (tget v i) := by
  simp [tget_eq]

/-! ### The two slices -/

@[simp] theorem pair_get_set_same {α : Type} (p : Pair α) (x : Sys) (a : α) : (p.set x a).get x = a := by cases x <;> rfl
@[simp] theorem pair_get_set_other {α : Type} (p : Pair α) (x : Sys) (a : α) : (p.set x a).get x.other = p.get x.other := by
  cases x <;> rfl
@[simp] theorem pair_get_mod_same {α : Type} (p : Pair α) (x : Sys) (f : α → α) : (p.mod x f).get x = f (p.get x) := by
  cases x <;> rfl
@[simp] theorem pair_get_mod_other {α : Type} (p : Pair α) (x : Sys) (f : α → α) :
    (p.mod x f).get x.other = p.get x.other := by cases x <;> rfl
theorem pair_get_mod {α : Type} (p : Pair α) (x y : Sys) (f : α → α) :
    (p.mod x f).get y = if y = x then f (p.get y) else p.get y := by cases x <;> cases y <;> rfl
theorem pair_get_set {α : Type} (p : Pair α) (x y : Sys) (a : α) :
    (p.set x a).get y = if y = x then a else p.get y := by cases x <;> cases y <;> rfl
@[simp] theorem pair_get_one {α : Type} (p : Pair α) : p.get .sys1 = p.one := rfl
@[simp] theorem pair_get_two {α : Type} (p : Pair α) : p.get .sys2 = p.two := rfl
@[simp] theorem sys_other_ne (x : Sys) : x.other ≠ x := by cases x <;> decide

/-! ### Updates of one field -/

variable (s : State)

@[simp] theorem advance_pending (t : Nat) : (s.advance t).pending = s.pending := (rfl)
@[simp] theorem advance_free (t : Nat) : (s.advance t).free = s.free := (rfl)
@[simp] theorem advance_phase (t : Nat) : (s.advance t).phase = s.phase := (rfl)
@[simp] theorem advance_resetAt (t : Nat) : (s.advance t).resetAt = s.resetAt := (rfl)
@[simp] theorem advance_out (t : Nat) : (s.advance t).out = s.out := (rfl)
@[simp] theorem advance_key (t : Nat) : (s.advance t).key = s.key := (rfl)
@[simp] theorem advance_subsys (t : Nat) : (s.advance t).subsys = s.subsys := (rfl)
@[simp] theorem advance_hp (t : Nat) : (s.advance t).hp = s.hp := (rfl)
@[simp] theorem advance_orbits (t : Nat) : (s.advance t).orbits = s.orbits := (rfl)
@[simp] theorem advance_irq (t : Nat) : (s.advance t).irq = s.irq := (rfl)
@[simp] theorem advance_heads (t : Nat) : (s.advance t).heads = s.heads := (rfl)
@[simp] theorem advance_dies (t : Nat) : (s.advance t).dies = s.dies := (rfl)
@[simp] theorem advance_dev (t : Nat) : (s.advance t).dev = s.dev := (rfl)
@[simp] theorem advance_sections (t : Nat) : (s.advance t).sections = s.sections := (rfl)
@[simp] theorem advance_epc (t : Nat) : (s.advance t).epc = s.epc := (rfl)
@[simp] theorem advance_vsp (t : Nat) : (s.advance t).vsp = s.vsp := (rfl)
@[simp] theorem advance_zl (t : Nat) : (s.advance t).zl = s.zl := (rfl)
@[simp] theorem advance_tb (t : Nat) : (s.advance t).tb = s.tb := (rfl)
@[simp] theorem advance_rcd (t : Nat) : (s.advance t).rcd = s.rcd := (rfl)
@[simp] theorem advance_pwr (t : Nat) : (s.advance t).pwr = s.pwr := (rfl)
@[simp] theorem advance_clk (t : Nat) : (s.advance t).clk = s.clk := (rfl)
@[simp] theorem advance_ecl (t : Nat) : (s.advance t).ecl = s.ecl := (rfl)
@[simp] theorem advance_tap (t : Nat) : (s.advance t).tap = s.tap := (rfl)
@[simp] theorem advance_aon (t : Nat) : (s.advance t).aon = s.aon := (rfl)
@[simp] theorem advance_head (t : Nat) (g : HeadId) : (s.advance t).head g = s.head g := (rfl)
@[simp] theorem advance_sec (t : Nat) (m : SecId) : (s.advance t).sec m = s.sec m := (rfl)
@[simp] theorem advance_die (t : Nat) (e : DieId) : (s.advance t).die e = s.die e := (rfl)
@[simp] theorem advance_orbit (t : Nat) (j : Fin 16) : (s.advance t).orbit j = s.orbit j := (rfl)

@[simp] theorem modHead_pending (h : HeadId) (f : Head → Head) : (s.modHead h f).pending = s.pending := (rfl)
@[simp] theorem modHead_now (h : HeadId) (f : Head → Head) : (s.modHead h f).now = s.now := (rfl)
@[simp] theorem modHead_free (h : HeadId) (f : Head → Head) : (s.modHead h f).free = s.free := (rfl)
@[simp] theorem modHead_phase (h : HeadId) (f : Head → Head) : (s.modHead h f).phase = s.phase := (rfl)
@[simp] theorem modHead_resetAt (h : HeadId) (f : Head → Head) : (s.modHead h f).resetAt = s.resetAt := (rfl)
@[simp] theorem modHead_out (h : HeadId) (f : Head → Head) : (s.modHead h f).out = s.out := (rfl)
@[simp] theorem modHead_key (h : HeadId) (f : Head → Head) : (s.modHead h f).key = s.key := (rfl)
@[simp] theorem modHead_subsys (h : HeadId) (f : Head → Head) : (s.modHead h f).subsys = s.subsys := (rfl)
@[simp] theorem modHead_hp (h : HeadId) (f : Head → Head) : (s.modHead h f).hp = s.hp := (rfl)
@[simp] theorem modHead_orbits (h : HeadId) (f : Head → Head) : (s.modHead h f).orbits = s.orbits := (rfl)
@[simp] theorem modHead_irq (h : HeadId) (f : Head → Head) : (s.modHead h f).irq = s.irq := (rfl)
@[simp] theorem modHead_dies (h : HeadId) (f : Head → Head) : (s.modHead h f).dies = s.dies := (rfl)
@[simp] theorem modHead_dev (h : HeadId) (f : Head → Head) : (s.modHead h f).dev = s.dev := (rfl)
@[simp] theorem modHead_sections (h : HeadId) (f : Head → Head) : (s.modHead h f).sections = s.sections := (rfl)
@[simp] theorem modHead_epc (h : HeadId) (f : Head → Head) : (s.modHead h f).epc = s.epc := (rfl)
@[simp] theorem modHead_vsp (h : HeadId) (f : Head → Head) : (s.modHead h f).vsp = s.vsp := (rfl)
@[simp] theorem modHead_zl (h : HeadId) (f : Head → Head) : (s.modHead h f).zl = s.zl := (rfl)
@[simp] theorem modHead_tb (h : HeadId) (f : Head → Head) : (s.modHead h f).tb = s.tb := (rfl)
@[simp] theorem modHead_rcd (h : HeadId) (f : Head → Head) : (s.modHead h f).rcd = s.rcd := (rfl)
@[simp] theorem modHead_pwr (h : HeadId) (f : Head → Head) : (s.modHead h f).pwr = s.pwr := (rfl)
@[simp] theorem modHead_clk (h : HeadId) (f : Head → Head) : (s.modHead h f).clk = s.clk := (rfl)
@[simp] theorem modHead_ecl (h : HeadId) (f : Head → Head) : (s.modHead h f).ecl = s.ecl := (rfl)
@[simp] theorem modHead_tap (h : HeadId) (f : Head → Head) : (s.modHead h f).tap = s.tap := (rfl)
@[simp] theorem modHead_aon (h : HeadId) (f : Head → Head) : (s.modHead h f).aon = s.aon := (rfl)
@[simp] theorem modHead_sec (h : HeadId) (f : Head → Head) (m : SecId) : (s.modHead h f).sec m = s.sec m := (rfl)
@[simp] theorem modHead_die (h : HeadId) (f : Head → Head) (e : DieId) : (s.modHead h f).die e = s.die e := (rfl)
@[simp] theorem modHead_orbit (h : HeadId) (f : Head → Head) (j : Fin 16) : (s.modHead h f).orbit j = s.orbit j := (rfl)

@[simp] theorem modFe_pending (h : HeadId) (f : FeHead → FeHead) : (s.modFe h f).pending = s.pending := (rfl)
@[simp] theorem modFe_now (h : HeadId) (f : FeHead → FeHead) : (s.modFe h f).now = s.now := (rfl)
@[simp] theorem modFe_free (h : HeadId) (f : FeHead → FeHead) : (s.modFe h f).free = s.free := (rfl)
@[simp] theorem modFe_phase (h : HeadId) (f : FeHead → FeHead) : (s.modFe h f).phase = s.phase := (rfl)
@[simp] theorem modFe_resetAt (h : HeadId) (f : FeHead → FeHead) : (s.modFe h f).resetAt = s.resetAt := (rfl)
@[simp] theorem modFe_out (h : HeadId) (f : FeHead → FeHead) : (s.modFe h f).out = s.out := (rfl)
@[simp] theorem modFe_key (h : HeadId) (f : FeHead → FeHead) : (s.modFe h f).key = s.key := (rfl)
@[simp] theorem modFe_subsys (h : HeadId) (f : FeHead → FeHead) : (s.modFe h f).subsys = s.subsys := (rfl)
@[simp] theorem modFe_hp (h : HeadId) (f : FeHead → FeHead) : (s.modFe h f).hp = s.hp := (rfl)
@[simp] theorem modFe_orbits (h : HeadId) (f : FeHead → FeHead) : (s.modFe h f).orbits = s.orbits := (rfl)
@[simp] theorem modFe_irq (h : HeadId) (f : FeHead → FeHead) : (s.modFe h f).irq = s.irq := (rfl)
@[simp] theorem modFe_dies (h : HeadId) (f : FeHead → FeHead) : (s.modFe h f).dies = s.dies := (rfl)
@[simp] theorem modFe_dev (h : HeadId) (f : FeHead → FeHead) : (s.modFe h f).dev = s.dev := (rfl)
@[simp] theorem modFe_sections (h : HeadId) (f : FeHead → FeHead) : (s.modFe h f).sections = s.sections := (rfl)
@[simp] theorem modFe_epc (h : HeadId) (f : FeHead → FeHead) : (s.modFe h f).epc = s.epc := (rfl)
@[simp] theorem modFe_vsp (h : HeadId) (f : FeHead → FeHead) : (s.modFe h f).vsp = s.vsp := (rfl)
@[simp] theorem modFe_zl (h : HeadId) (f : FeHead → FeHead) : (s.modFe h f).zl = s.zl := (rfl)
@[simp] theorem modFe_tb (h : HeadId) (f : FeHead → FeHead) : (s.modFe h f).tb = s.tb := (rfl)
@[simp] theorem modFe_rcd (h : HeadId) (f : FeHead → FeHead) : (s.modFe h f).rcd = s.rcd := (rfl)
@[simp] theorem modFe_pwr (h : HeadId) (f : FeHead → FeHead) : (s.modFe h f).pwr = s.pwr := (rfl)
@[simp] theorem modFe_clk (h : HeadId) (f : FeHead → FeHead) : (s.modFe h f).clk = s.clk := (rfl)
@[simp] theorem modFe_ecl (h : HeadId) (f : FeHead → FeHead) : (s.modFe h f).ecl = s.ecl := (rfl)
@[simp] theorem modFe_tap (h : HeadId) (f : FeHead → FeHead) : (s.modFe h f).tap = s.tap := (rfl)
@[simp] theorem modFe_aon (h : HeadId) (f : FeHead → FeHead) : (s.modFe h f).aon = s.aon := (rfl)
@[simp] theorem modFe_sec (h : HeadId) (f : FeHead → FeHead) (m : SecId) : (s.modFe h f).sec m = s.sec m := (rfl)
@[simp] theorem modFe_die (h : HeadId) (f : FeHead → FeHead) (e : DieId) : (s.modFe h f).die e = s.die e := (rfl)
@[simp] theorem modFe_orbit (h : HeadId) (f : FeHead → FeHead) (j : Fin 16) : (s.modFe h f).orbit j = s.orbit j := (rfl)

@[simp] theorem modXs_pending (h : HeadId) (f : XsHead → XsHead) : (s.modXs h f).pending = s.pending := (rfl)
@[simp] theorem modXs_now (h : HeadId) (f : XsHead → XsHead) : (s.modXs h f).now = s.now := (rfl)
@[simp] theorem modXs_free (h : HeadId) (f : XsHead → XsHead) : (s.modXs h f).free = s.free := (rfl)
@[simp] theorem modXs_phase (h : HeadId) (f : XsHead → XsHead) : (s.modXs h f).phase = s.phase := (rfl)
@[simp] theorem modXs_resetAt (h : HeadId) (f : XsHead → XsHead) : (s.modXs h f).resetAt = s.resetAt := (rfl)
@[simp] theorem modXs_out (h : HeadId) (f : XsHead → XsHead) : (s.modXs h f).out = s.out := (rfl)
@[simp] theorem modXs_key (h : HeadId) (f : XsHead → XsHead) : (s.modXs h f).key = s.key := (rfl)
@[simp] theorem modXs_subsys (h : HeadId) (f : XsHead → XsHead) : (s.modXs h f).subsys = s.subsys := (rfl)
@[simp] theorem modXs_hp (h : HeadId) (f : XsHead → XsHead) : (s.modXs h f).hp = s.hp := (rfl)
@[simp] theorem modXs_orbits (h : HeadId) (f : XsHead → XsHead) : (s.modXs h f).orbits = s.orbits := (rfl)
@[simp] theorem modXs_irq (h : HeadId) (f : XsHead → XsHead) : (s.modXs h f).irq = s.irq := (rfl)
@[simp] theorem modXs_dies (h : HeadId) (f : XsHead → XsHead) : (s.modXs h f).dies = s.dies := (rfl)
@[simp] theorem modXs_dev (h : HeadId) (f : XsHead → XsHead) : (s.modXs h f).dev = s.dev := (rfl)
@[simp] theorem modXs_sections (h : HeadId) (f : XsHead → XsHead) : (s.modXs h f).sections = s.sections := (rfl)
@[simp] theorem modXs_epc (h : HeadId) (f : XsHead → XsHead) : (s.modXs h f).epc = s.epc := (rfl)
@[simp] theorem modXs_vsp (h : HeadId) (f : XsHead → XsHead) : (s.modXs h f).vsp = s.vsp := (rfl)
@[simp] theorem modXs_zl (h : HeadId) (f : XsHead → XsHead) : (s.modXs h f).zl = s.zl := (rfl)
@[simp] theorem modXs_tb (h : HeadId) (f : XsHead → XsHead) : (s.modXs h f).tb = s.tb := (rfl)
@[simp] theorem modXs_rcd (h : HeadId) (f : XsHead → XsHead) : (s.modXs h f).rcd = s.rcd := (rfl)
@[simp] theorem modXs_pwr (h : HeadId) (f : XsHead → XsHead) : (s.modXs h f).pwr = s.pwr := (rfl)
@[simp] theorem modXs_clk (h : HeadId) (f : XsHead → XsHead) : (s.modXs h f).clk = s.clk := (rfl)
@[simp] theorem modXs_ecl (h : HeadId) (f : XsHead → XsHead) : (s.modXs h f).ecl = s.ecl := (rfl)
@[simp] theorem modXs_tap (h : HeadId) (f : XsHead → XsHead) : (s.modXs h f).tap = s.tap := (rfl)
@[simp] theorem modXs_aon (h : HeadId) (f : XsHead → XsHead) : (s.modXs h f).aon = s.aon := (rfl)
@[simp] theorem modXs_sec (h : HeadId) (f : XsHead → XsHead) (m : SecId) : (s.modXs h f).sec m = s.sec m := (rfl)
@[simp] theorem modXs_die (h : HeadId) (f : XsHead → XsHead) (e : DieId) : (s.modXs h f).die e = s.die e := (rfl)
@[simp] theorem modXs_orbit (h : HeadId) (f : XsHead → XsHead) (j : Fin 16) : (s.modXs h f).orbit j = s.orbit j := (rfl)

@[simp] theorem modFlt_pending (h : HeadId) (f : FltHead → FltHead) : (s.modFlt h f).pending = s.pending := (rfl)
@[simp] theorem modFlt_now (h : HeadId) (f : FltHead → FltHead) : (s.modFlt h f).now = s.now := (rfl)
@[simp] theorem modFlt_free (h : HeadId) (f : FltHead → FltHead) : (s.modFlt h f).free = s.free := (rfl)
@[simp] theorem modFlt_phase (h : HeadId) (f : FltHead → FltHead) : (s.modFlt h f).phase = s.phase := (rfl)
@[simp] theorem modFlt_resetAt (h : HeadId) (f : FltHead → FltHead) : (s.modFlt h f).resetAt = s.resetAt := (rfl)
@[simp] theorem modFlt_out (h : HeadId) (f : FltHead → FltHead) : (s.modFlt h f).out = s.out := (rfl)
@[simp] theorem modFlt_key (h : HeadId) (f : FltHead → FltHead) : (s.modFlt h f).key = s.key := (rfl)
@[simp] theorem modFlt_subsys (h : HeadId) (f : FltHead → FltHead) : (s.modFlt h f).subsys = s.subsys := (rfl)
@[simp] theorem modFlt_hp (h : HeadId) (f : FltHead → FltHead) : (s.modFlt h f).hp = s.hp := (rfl)
@[simp] theorem modFlt_orbits (h : HeadId) (f : FltHead → FltHead) : (s.modFlt h f).orbits = s.orbits := (rfl)
@[simp] theorem modFlt_irq (h : HeadId) (f : FltHead → FltHead) : (s.modFlt h f).irq = s.irq := (rfl)
@[simp] theorem modFlt_dies (h : HeadId) (f : FltHead → FltHead) : (s.modFlt h f).dies = s.dies := (rfl)
@[simp] theorem modFlt_dev (h : HeadId) (f : FltHead → FltHead) : (s.modFlt h f).dev = s.dev := (rfl)
@[simp] theorem modFlt_sections (h : HeadId) (f : FltHead → FltHead) : (s.modFlt h f).sections = s.sections := (rfl)
@[simp] theorem modFlt_epc (h : HeadId) (f : FltHead → FltHead) : (s.modFlt h f).epc = s.epc := (rfl)
@[simp] theorem modFlt_vsp (h : HeadId) (f : FltHead → FltHead) : (s.modFlt h f).vsp = s.vsp := (rfl)
@[simp] theorem modFlt_zl (h : HeadId) (f : FltHead → FltHead) : (s.modFlt h f).zl = s.zl := (rfl)
@[simp] theorem modFlt_tb (h : HeadId) (f : FltHead → FltHead) : (s.modFlt h f).tb = s.tb := (rfl)
@[simp] theorem modFlt_rcd (h : HeadId) (f : FltHead → FltHead) : (s.modFlt h f).rcd = s.rcd := (rfl)
@[simp] theorem modFlt_pwr (h : HeadId) (f : FltHead → FltHead) : (s.modFlt h f).pwr = s.pwr := (rfl)
@[simp] theorem modFlt_clk (h : HeadId) (f : FltHead → FltHead) : (s.modFlt h f).clk = s.clk := (rfl)
@[simp] theorem modFlt_ecl (h : HeadId) (f : FltHead → FltHead) : (s.modFlt h f).ecl = s.ecl := (rfl)
@[simp] theorem modFlt_tap (h : HeadId) (f : FltHead → FltHead) : (s.modFlt h f).tap = s.tap := (rfl)
@[simp] theorem modFlt_aon (h : HeadId) (f : FltHead → FltHead) : (s.modFlt h f).aon = s.aon := (rfl)
@[simp] theorem modFlt_sec (h : HeadId) (f : FltHead → FltHead) (m : SecId) : (s.modFlt h f).sec m = s.sec m := (rfl)
@[simp] theorem modFlt_die (h : HeadId) (f : FltHead → FltHead) (e : DieId) : (s.modFlt h f).die e = s.die e := (rfl)
@[simp] theorem modFlt_orbit (h : HeadId) (f : FltHead → FltHead) (j : Fin 16) : (s.modFlt h f).orbit j = s.orbit j := (rfl)

@[simp] theorem modCmp_pending (h : HeadId) (f : CmpHead → CmpHead) : (s.modCmp h f).pending = s.pending := (rfl)
@[simp] theorem modCmp_now (h : HeadId) (f : CmpHead → CmpHead) : (s.modCmp h f).now = s.now := (rfl)
@[simp] theorem modCmp_free (h : HeadId) (f : CmpHead → CmpHead) : (s.modCmp h f).free = s.free := (rfl)
@[simp] theorem modCmp_phase (h : HeadId) (f : CmpHead → CmpHead) : (s.modCmp h f).phase = s.phase := (rfl)
@[simp] theorem modCmp_resetAt (h : HeadId) (f : CmpHead → CmpHead) : (s.modCmp h f).resetAt = s.resetAt := (rfl)
@[simp] theorem modCmp_out (h : HeadId) (f : CmpHead → CmpHead) : (s.modCmp h f).out = s.out := (rfl)
@[simp] theorem modCmp_key (h : HeadId) (f : CmpHead → CmpHead) : (s.modCmp h f).key = s.key := (rfl)
@[simp] theorem modCmp_subsys (h : HeadId) (f : CmpHead → CmpHead) : (s.modCmp h f).subsys = s.subsys := (rfl)
@[simp] theorem modCmp_hp (h : HeadId) (f : CmpHead → CmpHead) : (s.modCmp h f).hp = s.hp := (rfl)
@[simp] theorem modCmp_orbits (h : HeadId) (f : CmpHead → CmpHead) : (s.modCmp h f).orbits = s.orbits := (rfl)
@[simp] theorem modCmp_irq (h : HeadId) (f : CmpHead → CmpHead) : (s.modCmp h f).irq = s.irq := (rfl)
@[simp] theorem modCmp_dies (h : HeadId) (f : CmpHead → CmpHead) : (s.modCmp h f).dies = s.dies := (rfl)
@[simp] theorem modCmp_dev (h : HeadId) (f : CmpHead → CmpHead) : (s.modCmp h f).dev = s.dev := (rfl)
@[simp] theorem modCmp_sections (h : HeadId) (f : CmpHead → CmpHead) : (s.modCmp h f).sections = s.sections := (rfl)
@[simp] theorem modCmp_epc (h : HeadId) (f : CmpHead → CmpHead) : (s.modCmp h f).epc = s.epc := (rfl)
@[simp] theorem modCmp_vsp (h : HeadId) (f : CmpHead → CmpHead) : (s.modCmp h f).vsp = s.vsp := (rfl)
@[simp] theorem modCmp_zl (h : HeadId) (f : CmpHead → CmpHead) : (s.modCmp h f).zl = s.zl := (rfl)
@[simp] theorem modCmp_tb (h : HeadId) (f : CmpHead → CmpHead) : (s.modCmp h f).tb = s.tb := (rfl)
@[simp] theorem modCmp_rcd (h : HeadId) (f : CmpHead → CmpHead) : (s.modCmp h f).rcd = s.rcd := (rfl)
@[simp] theorem modCmp_pwr (h : HeadId) (f : CmpHead → CmpHead) : (s.modCmp h f).pwr = s.pwr := (rfl)
@[simp] theorem modCmp_clk (h : HeadId) (f : CmpHead → CmpHead) : (s.modCmp h f).clk = s.clk := (rfl)
@[simp] theorem modCmp_ecl (h : HeadId) (f : CmpHead → CmpHead) : (s.modCmp h f).ecl = s.ecl := (rfl)
@[simp] theorem modCmp_tap (h : HeadId) (f : CmpHead → CmpHead) : (s.modCmp h f).tap = s.tap := (rfl)
@[simp] theorem modCmp_aon (h : HeadId) (f : CmpHead → CmpHead) : (s.modCmp h f).aon = s.aon := (rfl)
@[simp] theorem modCmp_sec (h : HeadId) (f : CmpHead → CmpHead) (m : SecId) : (s.modCmp h f).sec m = s.sec m := (rfl)
@[simp] theorem modCmp_die (h : HeadId) (f : CmpHead → CmpHead) (e : DieId) : (s.modCmp h f).die e = s.die e := (rfl)
@[simp] theorem modCmp_orbit (h : HeadId) (f : CmpHead → CmpHead) (j : Fin 16) : (s.modCmp h f).orbit j = s.orbit j := (rfl)

@[simp] theorem modTrn_pending (h : HeadId) (f : TrnHead → TrnHead) : (s.modTrn h f).pending = s.pending := (rfl)
@[simp] theorem modTrn_now (h : HeadId) (f : TrnHead → TrnHead) : (s.modTrn h f).now = s.now := (rfl)
@[simp] theorem modTrn_free (h : HeadId) (f : TrnHead → TrnHead) : (s.modTrn h f).free = s.free := (rfl)
@[simp] theorem modTrn_phase (h : HeadId) (f : TrnHead → TrnHead) : (s.modTrn h f).phase = s.phase := (rfl)
@[simp] theorem modTrn_resetAt (h : HeadId) (f : TrnHead → TrnHead) : (s.modTrn h f).resetAt = s.resetAt := (rfl)
@[simp] theorem modTrn_out (h : HeadId) (f : TrnHead → TrnHead) : (s.modTrn h f).out = s.out := (rfl)
@[simp] theorem modTrn_key (h : HeadId) (f : TrnHead → TrnHead) : (s.modTrn h f).key = s.key := (rfl)
@[simp] theorem modTrn_subsys (h : HeadId) (f : TrnHead → TrnHead) : (s.modTrn h f).subsys = s.subsys := (rfl)
@[simp] theorem modTrn_hp (h : HeadId) (f : TrnHead → TrnHead) : (s.modTrn h f).hp = s.hp := (rfl)
@[simp] theorem modTrn_orbits (h : HeadId) (f : TrnHead → TrnHead) : (s.modTrn h f).orbits = s.orbits := (rfl)
@[simp] theorem modTrn_irq (h : HeadId) (f : TrnHead → TrnHead) : (s.modTrn h f).irq = s.irq := (rfl)
@[simp] theorem modTrn_dies (h : HeadId) (f : TrnHead → TrnHead) : (s.modTrn h f).dies = s.dies := (rfl)
@[simp] theorem modTrn_dev (h : HeadId) (f : TrnHead → TrnHead) : (s.modTrn h f).dev = s.dev := (rfl)
@[simp] theorem modTrn_sections (h : HeadId) (f : TrnHead → TrnHead) : (s.modTrn h f).sections = s.sections := (rfl)
@[simp] theorem modTrn_epc (h : HeadId) (f : TrnHead → TrnHead) : (s.modTrn h f).epc = s.epc := (rfl)
@[simp] theorem modTrn_vsp (h : HeadId) (f : TrnHead → TrnHead) : (s.modTrn h f).vsp = s.vsp := (rfl)
@[simp] theorem modTrn_zl (h : HeadId) (f : TrnHead → TrnHead) : (s.modTrn h f).zl = s.zl := (rfl)
@[simp] theorem modTrn_tb (h : HeadId) (f : TrnHead → TrnHead) : (s.modTrn h f).tb = s.tb := (rfl)
@[simp] theorem modTrn_rcd (h : HeadId) (f : TrnHead → TrnHead) : (s.modTrn h f).rcd = s.rcd := (rfl)
@[simp] theorem modTrn_pwr (h : HeadId) (f : TrnHead → TrnHead) : (s.modTrn h f).pwr = s.pwr := (rfl)
@[simp] theorem modTrn_clk (h : HeadId) (f : TrnHead → TrnHead) : (s.modTrn h f).clk = s.clk := (rfl)
@[simp] theorem modTrn_ecl (h : HeadId) (f : TrnHead → TrnHead) : (s.modTrn h f).ecl = s.ecl := (rfl)
@[simp] theorem modTrn_tap (h : HeadId) (f : TrnHead → TrnHead) : (s.modTrn h f).tap = s.tap := (rfl)
@[simp] theorem modTrn_aon (h : HeadId) (f : TrnHead → TrnHead) : (s.modTrn h f).aon = s.aon := (rfl)
@[simp] theorem modTrn_sec (h : HeadId) (f : TrnHead → TrnHead) (m : SecId) : (s.modTrn h f).sec m = s.sec m := (rfl)
@[simp] theorem modTrn_die (h : HeadId) (f : TrnHead → TrnHead) (e : DieId) : (s.modTrn h f).die e = s.die e := (rfl)
@[simp] theorem modTrn_orbit (h : HeadId) (f : TrnHead → TrnHead) (j : Fin 16) : (s.modTrn h f).orbit j = s.orbit j := (rfl)

@[simp] theorem modXsSlice_pending (h : HeadId) (x : Sys) (f : XsSlice → XsSlice) : (s.modXsSlice h x f).pending = s.pending := (rfl)
@[simp] theorem modXsSlice_now (h : HeadId) (x : Sys) (f : XsSlice → XsSlice) : (s.modXsSlice h x f).now = s.now := (rfl)
@[simp] theorem modXsSlice_free (h : HeadId) (x : Sys) (f : XsSlice → XsSlice) : (s.modXsSlice h x f).free = s.free := (rfl)
@[simp] theorem modXsSlice_phase (h : HeadId) (x : Sys) (f : XsSlice → XsSlice) : (s.modXsSlice h x f).phase = s.phase := (rfl)
@[simp] theorem modXsSlice_resetAt (h : HeadId) (x : Sys) (f : XsSlice → XsSlice) : (s.modXsSlice h x f).resetAt = s.resetAt := (rfl)
@[simp] theorem modXsSlice_out (h : HeadId) (x : Sys) (f : XsSlice → XsSlice) : (s.modXsSlice h x f).out = s.out := (rfl)
@[simp] theorem modXsSlice_key (h : HeadId) (x : Sys) (f : XsSlice → XsSlice) : (s.modXsSlice h x f).key = s.key := (rfl)
@[simp] theorem modXsSlice_subsys (h : HeadId) (x : Sys) (f : XsSlice → XsSlice) : (s.modXsSlice h x f).subsys = s.subsys := (rfl)
@[simp] theorem modXsSlice_hp (h : HeadId) (x : Sys) (f : XsSlice → XsSlice) : (s.modXsSlice h x f).hp = s.hp := (rfl)
@[simp] theorem modXsSlice_orbits (h : HeadId) (x : Sys) (f : XsSlice → XsSlice) : (s.modXsSlice h x f).orbits = s.orbits := (rfl)
@[simp] theorem modXsSlice_irq (h : HeadId) (x : Sys) (f : XsSlice → XsSlice) : (s.modXsSlice h x f).irq = s.irq := (rfl)
@[simp] theorem modXsSlice_dies (h : HeadId) (x : Sys) (f : XsSlice → XsSlice) : (s.modXsSlice h x f).dies = s.dies := (rfl)
@[simp] theorem modXsSlice_dev (h : HeadId) (x : Sys) (f : XsSlice → XsSlice) : (s.modXsSlice h x f).dev = s.dev := (rfl)
@[simp] theorem modXsSlice_sections (h : HeadId) (x : Sys) (f : XsSlice → XsSlice) : (s.modXsSlice h x f).sections = s.sections := (rfl)
@[simp] theorem modXsSlice_epc (h : HeadId) (x : Sys) (f : XsSlice → XsSlice) : (s.modXsSlice h x f).epc = s.epc := (rfl)
@[simp] theorem modXsSlice_vsp (h : HeadId) (x : Sys) (f : XsSlice → XsSlice) : (s.modXsSlice h x f).vsp = s.vsp := (rfl)
@[simp] theorem modXsSlice_zl (h : HeadId) (x : Sys) (f : XsSlice → XsSlice) : (s.modXsSlice h x f).zl = s.zl := (rfl)
@[simp] theorem modXsSlice_tb (h : HeadId) (x : Sys) (f : XsSlice → XsSlice) : (s.modXsSlice h x f).tb = s.tb := (rfl)
@[simp] theorem modXsSlice_rcd (h : HeadId) (x : Sys) (f : XsSlice → XsSlice) : (s.modXsSlice h x f).rcd = s.rcd := (rfl)
@[simp] theorem modXsSlice_pwr (h : HeadId) (x : Sys) (f : XsSlice → XsSlice) : (s.modXsSlice h x f).pwr = s.pwr := (rfl)
@[simp] theorem modXsSlice_clk (h : HeadId) (x : Sys) (f : XsSlice → XsSlice) : (s.modXsSlice h x f).clk = s.clk := (rfl)
@[simp] theorem modXsSlice_ecl (h : HeadId) (x : Sys) (f : XsSlice → XsSlice) : (s.modXsSlice h x f).ecl = s.ecl := (rfl)
@[simp] theorem modXsSlice_tap (h : HeadId) (x : Sys) (f : XsSlice → XsSlice) : (s.modXsSlice h x f).tap = s.tap := (rfl)
@[simp] theorem modXsSlice_aon (h : HeadId) (x : Sys) (f : XsSlice → XsSlice) : (s.modXsSlice h x f).aon = s.aon := (rfl)
@[simp] theorem modXsSlice_sec (h : HeadId) (x : Sys) (f : XsSlice → XsSlice) (m : SecId) : (s.modXsSlice h x f).sec m = s.sec m := (rfl)
@[simp] theorem modXsSlice_die (h : HeadId) (x : Sys) (f : XsSlice → XsSlice) (e : DieId) : (s.modXsSlice h x f).die e = s.die e := (rfl)
@[simp] theorem modXsSlice_orbit (h : HeadId) (x : Sys) (f : XsSlice → XsSlice) (j : Fin 16) : (s.modXsSlice h x f).orbit j = s.orbit j := (rfl)

@[simp] theorem modFltSlice_pending (h : HeadId) (x : Sys) (f : FltSlice → FltSlice) : (s.modFltSlice h x f).pending = s.pending := (rfl)
@[simp] theorem modFltSlice_now (h : HeadId) (x : Sys) (f : FltSlice → FltSlice) : (s.modFltSlice h x f).now = s.now := (rfl)
@[simp] theorem modFltSlice_free (h : HeadId) (x : Sys) (f : FltSlice → FltSlice) : (s.modFltSlice h x f).free = s.free := (rfl)
@[simp] theorem modFltSlice_phase (h : HeadId) (x : Sys) (f : FltSlice → FltSlice) : (s.modFltSlice h x f).phase = s.phase := (rfl)
@[simp] theorem modFltSlice_resetAt (h : HeadId) (x : Sys) (f : FltSlice → FltSlice) : (s.modFltSlice h x f).resetAt = s.resetAt := (rfl)
@[simp] theorem modFltSlice_out (h : HeadId) (x : Sys) (f : FltSlice → FltSlice) : (s.modFltSlice h x f).out = s.out := (rfl)
@[simp] theorem modFltSlice_key (h : HeadId) (x : Sys) (f : FltSlice → FltSlice) : (s.modFltSlice h x f).key = s.key := (rfl)
@[simp] theorem modFltSlice_subsys (h : HeadId) (x : Sys) (f : FltSlice → FltSlice) : (s.modFltSlice h x f).subsys = s.subsys := (rfl)
@[simp] theorem modFltSlice_hp (h : HeadId) (x : Sys) (f : FltSlice → FltSlice) : (s.modFltSlice h x f).hp = s.hp := (rfl)
@[simp] theorem modFltSlice_orbits (h : HeadId) (x : Sys) (f : FltSlice → FltSlice) : (s.modFltSlice h x f).orbits = s.orbits := (rfl)
@[simp] theorem modFltSlice_irq (h : HeadId) (x : Sys) (f : FltSlice → FltSlice) : (s.modFltSlice h x f).irq = s.irq := (rfl)
@[simp] theorem modFltSlice_dies (h : HeadId) (x : Sys) (f : FltSlice → FltSlice) : (s.modFltSlice h x f).dies = s.dies := (rfl)
@[simp] theorem modFltSlice_dev (h : HeadId) (x : Sys) (f : FltSlice → FltSlice) : (s.modFltSlice h x f).dev = s.dev := (rfl)
@[simp] theorem modFltSlice_sections (h : HeadId) (x : Sys) (f : FltSlice → FltSlice) : (s.modFltSlice h x f).sections = s.sections := (rfl)
@[simp] theorem modFltSlice_epc (h : HeadId) (x : Sys) (f : FltSlice → FltSlice) : (s.modFltSlice h x f).epc = s.epc := (rfl)
@[simp] theorem modFltSlice_vsp (h : HeadId) (x : Sys) (f : FltSlice → FltSlice) : (s.modFltSlice h x f).vsp = s.vsp := (rfl)
@[simp] theorem modFltSlice_zl (h : HeadId) (x : Sys) (f : FltSlice → FltSlice) : (s.modFltSlice h x f).zl = s.zl := (rfl)
@[simp] theorem modFltSlice_tb (h : HeadId) (x : Sys) (f : FltSlice → FltSlice) : (s.modFltSlice h x f).tb = s.tb := (rfl)
@[simp] theorem modFltSlice_rcd (h : HeadId) (x : Sys) (f : FltSlice → FltSlice) : (s.modFltSlice h x f).rcd = s.rcd := (rfl)
@[simp] theorem modFltSlice_pwr (h : HeadId) (x : Sys) (f : FltSlice → FltSlice) : (s.modFltSlice h x f).pwr = s.pwr := (rfl)
@[simp] theorem modFltSlice_clk (h : HeadId) (x : Sys) (f : FltSlice → FltSlice) : (s.modFltSlice h x f).clk = s.clk := (rfl)
@[simp] theorem modFltSlice_ecl (h : HeadId) (x : Sys) (f : FltSlice → FltSlice) : (s.modFltSlice h x f).ecl = s.ecl := (rfl)
@[simp] theorem modFltSlice_tap (h : HeadId) (x : Sys) (f : FltSlice → FltSlice) : (s.modFltSlice h x f).tap = s.tap := (rfl)
@[simp] theorem modFltSlice_aon (h : HeadId) (x : Sys) (f : FltSlice → FltSlice) : (s.modFltSlice h x f).aon = s.aon := (rfl)
@[simp] theorem modFltSlice_sec (h : HeadId) (x : Sys) (f : FltSlice → FltSlice) (m : SecId) : (s.modFltSlice h x f).sec m = s.sec m := (rfl)
@[simp] theorem modFltSlice_die (h : HeadId) (x : Sys) (f : FltSlice → FltSlice) (e : DieId) : (s.modFltSlice h x f).die e = s.die e := (rfl)
@[simp] theorem modFltSlice_orbit (h : HeadId) (x : Sys) (f : FltSlice → FltSlice) (j : Fin 16) : (s.modFltSlice h x f).orbit j = s.orbit j := (rfl)

@[simp] theorem modCmpSlice_pending (h : HeadId) (x : Sys) (f : CmpSlice → CmpSlice) : (s.modCmpSlice h x f).pending = s.pending := (rfl)
@[simp] theorem modCmpSlice_now (h : HeadId) (x : Sys) (f : CmpSlice → CmpSlice) : (s.modCmpSlice h x f).now = s.now := (rfl)
@[simp] theorem modCmpSlice_free (h : HeadId) (x : Sys) (f : CmpSlice → CmpSlice) : (s.modCmpSlice h x f).free = s.free := (rfl)
@[simp] theorem modCmpSlice_phase (h : HeadId) (x : Sys) (f : CmpSlice → CmpSlice) : (s.modCmpSlice h x f).phase = s.phase := (rfl)
@[simp] theorem modCmpSlice_resetAt (h : HeadId) (x : Sys) (f : CmpSlice → CmpSlice) : (s.modCmpSlice h x f).resetAt = s.resetAt := (rfl)
@[simp] theorem modCmpSlice_out (h : HeadId) (x : Sys) (f : CmpSlice → CmpSlice) : (s.modCmpSlice h x f).out = s.out := (rfl)
@[simp] theorem modCmpSlice_key (h : HeadId) (x : Sys) (f : CmpSlice → CmpSlice) : (s.modCmpSlice h x f).key = s.key := (rfl)
@[simp] theorem modCmpSlice_subsys (h : HeadId) (x : Sys) (f : CmpSlice → CmpSlice) : (s.modCmpSlice h x f).subsys = s.subsys := (rfl)
@[simp] theorem modCmpSlice_hp (h : HeadId) (x : Sys) (f : CmpSlice → CmpSlice) : (s.modCmpSlice h x f).hp = s.hp := (rfl)
@[simp] theorem modCmpSlice_orbits (h : HeadId) (x : Sys) (f : CmpSlice → CmpSlice) : (s.modCmpSlice h x f).orbits = s.orbits := (rfl)
@[simp] theorem modCmpSlice_irq (h : HeadId) (x : Sys) (f : CmpSlice → CmpSlice) : (s.modCmpSlice h x f).irq = s.irq := (rfl)
@[simp] theorem modCmpSlice_dies (h : HeadId) (x : Sys) (f : CmpSlice → CmpSlice) : (s.modCmpSlice h x f).dies = s.dies := (rfl)
@[simp] theorem modCmpSlice_dev (h : HeadId) (x : Sys) (f : CmpSlice → CmpSlice) : (s.modCmpSlice h x f).dev = s.dev := (rfl)
@[simp] theorem modCmpSlice_sections (h : HeadId) (x : Sys) (f : CmpSlice → CmpSlice) : (s.modCmpSlice h x f).sections = s.sections := (rfl)
@[simp] theorem modCmpSlice_epc (h : HeadId) (x : Sys) (f : CmpSlice → CmpSlice) : (s.modCmpSlice h x f).epc = s.epc := (rfl)
@[simp] theorem modCmpSlice_vsp (h : HeadId) (x : Sys) (f : CmpSlice → CmpSlice) : (s.modCmpSlice h x f).vsp = s.vsp := (rfl)
@[simp] theorem modCmpSlice_zl (h : HeadId) (x : Sys) (f : CmpSlice → CmpSlice) : (s.modCmpSlice h x f).zl = s.zl := (rfl)
@[simp] theorem modCmpSlice_tb (h : HeadId) (x : Sys) (f : CmpSlice → CmpSlice) : (s.modCmpSlice h x f).tb = s.tb := (rfl)
@[simp] theorem modCmpSlice_rcd (h : HeadId) (x : Sys) (f : CmpSlice → CmpSlice) : (s.modCmpSlice h x f).rcd = s.rcd := (rfl)
@[simp] theorem modCmpSlice_pwr (h : HeadId) (x : Sys) (f : CmpSlice → CmpSlice) : (s.modCmpSlice h x f).pwr = s.pwr := (rfl)
@[simp] theorem modCmpSlice_clk (h : HeadId) (x : Sys) (f : CmpSlice → CmpSlice) : (s.modCmpSlice h x f).clk = s.clk := (rfl)
@[simp] theorem modCmpSlice_ecl (h : HeadId) (x : Sys) (f : CmpSlice → CmpSlice) : (s.modCmpSlice h x f).ecl = s.ecl := (rfl)
@[simp] theorem modCmpSlice_tap (h : HeadId) (x : Sys) (f : CmpSlice → CmpSlice) : (s.modCmpSlice h x f).tap = s.tap := (rfl)
@[simp] theorem modCmpSlice_aon (h : HeadId) (x : Sys) (f : CmpSlice → CmpSlice) : (s.modCmpSlice h x f).aon = s.aon := (rfl)
@[simp] theorem modCmpSlice_sec (h : HeadId) (x : Sys) (f : CmpSlice → CmpSlice) (m : SecId) : (s.modCmpSlice h x f).sec m = s.sec m := (rfl)
@[simp] theorem modCmpSlice_die (h : HeadId) (x : Sys) (f : CmpSlice → CmpSlice) (e : DieId) : (s.modCmpSlice h x f).die e = s.die e := (rfl)
@[simp] theorem modCmpSlice_orbit (h : HeadId) (x : Sys) (f : CmpSlice → CmpSlice) (j : Fin 16) : (s.modCmpSlice h x f).orbit j = s.orbit j := (rfl)

@[simp] theorem modTrnSlice_pending (h : HeadId) (x : Sys) (f : TrnSlice → TrnSlice) : (s.modTrnSlice h x f).pending = s.pending := (rfl)
@[simp] theorem modTrnSlice_now (h : HeadId) (x : Sys) (f : TrnSlice → TrnSlice) : (s.modTrnSlice h x f).now = s.now := (rfl)
@[simp] theorem modTrnSlice_free (h : HeadId) (x : Sys) (f : TrnSlice → TrnSlice) : (s.modTrnSlice h x f).free = s.free := (rfl)
@[simp] theorem modTrnSlice_phase (h : HeadId) (x : Sys) (f : TrnSlice → TrnSlice) : (s.modTrnSlice h x f).phase = s.phase := (rfl)
@[simp] theorem modTrnSlice_resetAt (h : HeadId) (x : Sys) (f : TrnSlice → TrnSlice) : (s.modTrnSlice h x f).resetAt = s.resetAt := (rfl)
@[simp] theorem modTrnSlice_out (h : HeadId) (x : Sys) (f : TrnSlice → TrnSlice) : (s.modTrnSlice h x f).out = s.out := (rfl)
@[simp] theorem modTrnSlice_key (h : HeadId) (x : Sys) (f : TrnSlice → TrnSlice) : (s.modTrnSlice h x f).key = s.key := (rfl)
@[simp] theorem modTrnSlice_subsys (h : HeadId) (x : Sys) (f : TrnSlice → TrnSlice) : (s.modTrnSlice h x f).subsys = s.subsys := (rfl)
@[simp] theorem modTrnSlice_hp (h : HeadId) (x : Sys) (f : TrnSlice → TrnSlice) : (s.modTrnSlice h x f).hp = s.hp := (rfl)
@[simp] theorem modTrnSlice_orbits (h : HeadId) (x : Sys) (f : TrnSlice → TrnSlice) : (s.modTrnSlice h x f).orbits = s.orbits := (rfl)
@[simp] theorem modTrnSlice_irq (h : HeadId) (x : Sys) (f : TrnSlice → TrnSlice) : (s.modTrnSlice h x f).irq = s.irq := (rfl)
@[simp] theorem modTrnSlice_dies (h : HeadId) (x : Sys) (f : TrnSlice → TrnSlice) : (s.modTrnSlice h x f).dies = s.dies := (rfl)
@[simp] theorem modTrnSlice_dev (h : HeadId) (x : Sys) (f : TrnSlice → TrnSlice) : (s.modTrnSlice h x f).dev = s.dev := (rfl)
@[simp] theorem modTrnSlice_sections (h : HeadId) (x : Sys) (f : TrnSlice → TrnSlice) : (s.modTrnSlice h x f).sections = s.sections := (rfl)
@[simp] theorem modTrnSlice_epc (h : HeadId) (x : Sys) (f : TrnSlice → TrnSlice) : (s.modTrnSlice h x f).epc = s.epc := (rfl)
@[simp] theorem modTrnSlice_vsp (h : HeadId) (x : Sys) (f : TrnSlice → TrnSlice) : (s.modTrnSlice h x f).vsp = s.vsp := (rfl)
@[simp] theorem modTrnSlice_zl (h : HeadId) (x : Sys) (f : TrnSlice → TrnSlice) : (s.modTrnSlice h x f).zl = s.zl := (rfl)
@[simp] theorem modTrnSlice_tb (h : HeadId) (x : Sys) (f : TrnSlice → TrnSlice) : (s.modTrnSlice h x f).tb = s.tb := (rfl)
@[simp] theorem modTrnSlice_rcd (h : HeadId) (x : Sys) (f : TrnSlice → TrnSlice) : (s.modTrnSlice h x f).rcd = s.rcd := (rfl)
@[simp] theorem modTrnSlice_pwr (h : HeadId) (x : Sys) (f : TrnSlice → TrnSlice) : (s.modTrnSlice h x f).pwr = s.pwr := (rfl)
@[simp] theorem modTrnSlice_clk (h : HeadId) (x : Sys) (f : TrnSlice → TrnSlice) : (s.modTrnSlice h x f).clk = s.clk := (rfl)
@[simp] theorem modTrnSlice_ecl (h : HeadId) (x : Sys) (f : TrnSlice → TrnSlice) : (s.modTrnSlice h x f).ecl = s.ecl := (rfl)
@[simp] theorem modTrnSlice_tap (h : HeadId) (x : Sys) (f : TrnSlice → TrnSlice) : (s.modTrnSlice h x f).tap = s.tap := (rfl)
@[simp] theorem modTrnSlice_aon (h : HeadId) (x : Sys) (f : TrnSlice → TrnSlice) : (s.modTrnSlice h x f).aon = s.aon := (rfl)
@[simp] theorem modTrnSlice_sec (h : HeadId) (x : Sys) (f : TrnSlice → TrnSlice) (m : SecId) : (s.modTrnSlice h x f).sec m = s.sec m := (rfl)
@[simp] theorem modTrnSlice_die (h : HeadId) (x : Sys) (f : TrnSlice → TrnSlice) (e : DieId) : (s.modTrnSlice h x f).die e = s.die e := (rfl)
@[simp] theorem modTrnSlice_orbit (h : HeadId) (x : Sys) (f : TrnSlice → TrnSlice) (j : Fin 16) : (s.modTrnSlice h x f).orbit j = s.orbit j := (rfl)

@[simp] theorem modSec_pending (n : SecId) (f : Section → Section) : (s.modSec n f).pending = s.pending := (rfl)
@[simp] theorem modSec_now (n : SecId) (f : Section → Section) : (s.modSec n f).now = s.now := (rfl)
@[simp] theorem modSec_free (n : SecId) (f : Section → Section) : (s.modSec n f).free = s.free := (rfl)
@[simp] theorem modSec_phase (n : SecId) (f : Section → Section) : (s.modSec n f).phase = s.phase := (rfl)
@[simp] theorem modSec_resetAt (n : SecId) (f : Section → Section) : (s.modSec n f).resetAt = s.resetAt := (rfl)
@[simp] theorem modSec_out (n : SecId) (f : Section → Section) : (s.modSec n f).out = s.out := (rfl)
@[simp] theorem modSec_key (n : SecId) (f : Section → Section) : (s.modSec n f).key = s.key := (rfl)
@[simp] theorem modSec_subsys (n : SecId) (f : Section → Section) : (s.modSec n f).subsys = s.subsys := (rfl)
@[simp] theorem modSec_hp (n : SecId) (f : Section → Section) : (s.modSec n f).hp = s.hp := (rfl)
@[simp] theorem modSec_orbits (n : SecId) (f : Section → Section) : (s.modSec n f).orbits = s.orbits := (rfl)
@[simp] theorem modSec_irq (n : SecId) (f : Section → Section) : (s.modSec n f).irq = s.irq := (rfl)
@[simp] theorem modSec_heads (n : SecId) (f : Section → Section) : (s.modSec n f).heads = s.heads := (rfl)
@[simp] theorem modSec_dies (n : SecId) (f : Section → Section) : (s.modSec n f).dies = s.dies := (rfl)
@[simp] theorem modSec_dev (n : SecId) (f : Section → Section) : (s.modSec n f).dev = s.dev := (rfl)
@[simp] theorem modSec_epc (n : SecId) (f : Section → Section) : (s.modSec n f).epc = s.epc := (rfl)
@[simp] theorem modSec_vsp (n : SecId) (f : Section → Section) : (s.modSec n f).vsp = s.vsp := (rfl)
@[simp] theorem modSec_zl (n : SecId) (f : Section → Section) : (s.modSec n f).zl = s.zl := (rfl)
@[simp] theorem modSec_tb (n : SecId) (f : Section → Section) : (s.modSec n f).tb = s.tb := (rfl)
@[simp] theorem modSec_rcd (n : SecId) (f : Section → Section) : (s.modSec n f).rcd = s.rcd := (rfl)
@[simp] theorem modSec_pwr (n : SecId) (f : Section → Section) : (s.modSec n f).pwr = s.pwr := (rfl)
@[simp] theorem modSec_clk (n : SecId) (f : Section → Section) : (s.modSec n f).clk = s.clk := (rfl)
@[simp] theorem modSec_ecl (n : SecId) (f : Section → Section) : (s.modSec n f).ecl = s.ecl := (rfl)
@[simp] theorem modSec_tap (n : SecId) (f : Section → Section) : (s.modSec n f).tap = s.tap := (rfl)
@[simp] theorem modSec_aon (n : SecId) (f : Section → Section) : (s.modSec n f).aon = s.aon := (rfl)
@[simp] theorem modSec_head (n : SecId) (f : Section → Section) (g : HeadId) : (s.modSec n f).head g = s.head g := (rfl)
@[simp] theorem modSec_die (n : SecId) (f : Section → Section) (e : DieId) : (s.modSec n f).die e = s.die e := (rfl)
@[simp] theorem modSec_orbit (n : SecId) (f : Section → Section) (j : Fin 16) : (s.modSec n f).orbit j = s.orbit j := (rfl)

@[simp] theorem modDie_pending (d : DieId) (f : Die → Die) : (s.modDie d f).pending = s.pending := (rfl)
@[simp] theorem modDie_now (d : DieId) (f : Die → Die) : (s.modDie d f).now = s.now := (rfl)
@[simp] theorem modDie_free (d : DieId) (f : Die → Die) : (s.modDie d f).free = s.free := (rfl)
@[simp] theorem modDie_phase (d : DieId) (f : Die → Die) : (s.modDie d f).phase = s.phase := (rfl)
@[simp] theorem modDie_resetAt (d : DieId) (f : Die → Die) : (s.modDie d f).resetAt = s.resetAt := (rfl)
@[simp] theorem modDie_out (d : DieId) (f : Die → Die) : (s.modDie d f).out = s.out := (rfl)
@[simp] theorem modDie_key (d : DieId) (f : Die → Die) : (s.modDie d f).key = s.key := (rfl)
@[simp] theorem modDie_subsys (d : DieId) (f : Die → Die) : (s.modDie d f).subsys = s.subsys := (rfl)
@[simp] theorem modDie_hp (d : DieId) (f : Die → Die) : (s.modDie d f).hp = s.hp := (rfl)
@[simp] theorem modDie_orbits (d : DieId) (f : Die → Die) : (s.modDie d f).orbits = s.orbits := (rfl)
@[simp] theorem modDie_irq (d : DieId) (f : Die → Die) : (s.modDie d f).irq = s.irq := (rfl)
@[simp] theorem modDie_heads (d : DieId) (f : Die → Die) : (s.modDie d f).heads = s.heads := (rfl)
@[simp] theorem modDie_dev (d : DieId) (f : Die → Die) : (s.modDie d f).dev = s.dev := (rfl)
@[simp] theorem modDie_sections (d : DieId) (f : Die → Die) : (s.modDie d f).sections = s.sections := (rfl)
@[simp] theorem modDie_epc (d : DieId) (f : Die → Die) : (s.modDie d f).epc = s.epc := (rfl)
@[simp] theorem modDie_vsp (d : DieId) (f : Die → Die) : (s.modDie d f).vsp = s.vsp := (rfl)
@[simp] theorem modDie_zl (d : DieId) (f : Die → Die) : (s.modDie d f).zl = s.zl := (rfl)
@[simp] theorem modDie_tb (d : DieId) (f : Die → Die) : (s.modDie d f).tb = s.tb := (rfl)
@[simp] theorem modDie_rcd (d : DieId) (f : Die → Die) : (s.modDie d f).rcd = s.rcd := (rfl)
@[simp] theorem modDie_pwr (d : DieId) (f : Die → Die) : (s.modDie d f).pwr = s.pwr := (rfl)
@[simp] theorem modDie_clk (d : DieId) (f : Die → Die) : (s.modDie d f).clk = s.clk := (rfl)
@[simp] theorem modDie_ecl (d : DieId) (f : Die → Die) : (s.modDie d f).ecl = s.ecl := (rfl)
@[simp] theorem modDie_tap (d : DieId) (f : Die → Die) : (s.modDie d f).tap = s.tap := (rfl)
@[simp] theorem modDie_aon (d : DieId) (f : Die → Die) : (s.modDie d f).aon = s.aon := (rfl)
@[simp] theorem modDie_head (d : DieId) (f : Die → Die) (g : HeadId) : (s.modDie d f).head g = s.head g := (rfl)
@[simp] theorem modDie_sec (d : DieId) (f : Die → Die) (m : SecId) : (s.modDie d f).sec m = s.sec m := (rfl)
@[simp] theorem modDie_orbit (d : DieId) (f : Die → Die) (j : Fin 16) : (s.modDie d f).orbit j = s.orbit j := (rfl)

@[simp] theorem modOrbit_pending (k : Fin 16) (f : Orbit → Orbit) : (s.modOrbit k f).pending = s.pending := (rfl)
@[simp] theorem modOrbit_now (k : Fin 16) (f : Orbit → Orbit) : (s.modOrbit k f).now = s.now := (rfl)
@[simp] theorem modOrbit_free (k : Fin 16) (f : Orbit → Orbit) : (s.modOrbit k f).free = s.free := (rfl)
@[simp] theorem modOrbit_phase (k : Fin 16) (f : Orbit → Orbit) : (s.modOrbit k f).phase = s.phase := (rfl)
@[simp] theorem modOrbit_resetAt (k : Fin 16) (f : Orbit → Orbit) : (s.modOrbit k f).resetAt = s.resetAt := (rfl)
@[simp] theorem modOrbit_out (k : Fin 16) (f : Orbit → Orbit) : (s.modOrbit k f).out = s.out := (rfl)
@[simp] theorem modOrbit_key (k : Fin 16) (f : Orbit → Orbit) : (s.modOrbit k f).key = s.key := (rfl)
@[simp] theorem modOrbit_subsys (k : Fin 16) (f : Orbit → Orbit) : (s.modOrbit k f).subsys = s.subsys := (rfl)
@[simp] theorem modOrbit_hp (k : Fin 16) (f : Orbit → Orbit) : (s.modOrbit k f).hp = s.hp := (rfl)
@[simp] theorem modOrbit_irq (k : Fin 16) (f : Orbit → Orbit) : (s.modOrbit k f).irq = s.irq := (rfl)
@[simp] theorem modOrbit_heads (k : Fin 16) (f : Orbit → Orbit) : (s.modOrbit k f).heads = s.heads := (rfl)
@[simp] theorem modOrbit_dies (k : Fin 16) (f : Orbit → Orbit) : (s.modOrbit k f).dies = s.dies := (rfl)
@[simp] theorem modOrbit_dev (k : Fin 16) (f : Orbit → Orbit) : (s.modOrbit k f).dev = s.dev := (rfl)
@[simp] theorem modOrbit_sections (k : Fin 16) (f : Orbit → Orbit) : (s.modOrbit k f).sections = s.sections := (rfl)
@[simp] theorem modOrbit_epc (k : Fin 16) (f : Orbit → Orbit) : (s.modOrbit k f).epc = s.epc := (rfl)
@[simp] theorem modOrbit_vsp (k : Fin 16) (f : Orbit → Orbit) : (s.modOrbit k f).vsp = s.vsp := (rfl)
@[simp] theorem modOrbit_zl (k : Fin 16) (f : Orbit → Orbit) : (s.modOrbit k f).zl = s.zl := (rfl)
@[simp] theorem modOrbit_tb (k : Fin 16) (f : Orbit → Orbit) : (s.modOrbit k f).tb = s.tb := (rfl)
@[simp] theorem modOrbit_rcd (k : Fin 16) (f : Orbit → Orbit) : (s.modOrbit k f).rcd = s.rcd := (rfl)
@[simp] theorem modOrbit_pwr (k : Fin 16) (f : Orbit → Orbit) : (s.modOrbit k f).pwr = s.pwr := (rfl)
@[simp] theorem modOrbit_clk (k : Fin 16) (f : Orbit → Orbit) : (s.modOrbit k f).clk = s.clk := (rfl)
@[simp] theorem modOrbit_ecl (k : Fin 16) (f : Orbit → Orbit) : (s.modOrbit k f).ecl = s.ecl := (rfl)
@[simp] theorem modOrbit_tap (k : Fin 16) (f : Orbit → Orbit) : (s.modOrbit k f).tap = s.tap := (rfl)
@[simp] theorem modOrbit_aon (k : Fin 16) (f : Orbit → Orbit) : (s.modOrbit k f).aon = s.aon := (rfl)
@[simp] theorem modOrbit_head (k : Fin 16) (f : Orbit → Orbit) (g : HeadId) : (s.modOrbit k f).head g = s.head g := (rfl)
@[simp] theorem modOrbit_sec (k : Fin 16) (f : Orbit → Orbit) (m : SecId) : (s.modOrbit k f).sec m = s.sec m := (rfl)
@[simp] theorem modOrbit_die (k : Fin 16) (f : Orbit → Orbit) (e : DieId) : (s.modOrbit k f).die e = s.die e := (rfl)

@[simp] theorem advance_now (t : Nat) : (s.advance t).now = max s.now t := rfl

/-! ### Updates of one block -/

@[simp] theorem modHp_pending (f : Hp → Hp) : (s.modHp f).pending = s.pending := (rfl)
@[simp] theorem modHp_now (f : Hp → Hp) : (s.modHp f).now = s.now := (rfl)
@[simp] theorem modHp_free (f : Hp → Hp) : (s.modHp f).free = s.free := (rfl)
@[simp] theorem modHp_phase (f : Hp → Hp) : (s.modHp f).phase = s.phase := (rfl)
@[simp] theorem modHp_resetAt (f : Hp → Hp) : (s.modHp f).resetAt = s.resetAt := (rfl)
@[simp] theorem modHp_out (f : Hp → Hp) : (s.modHp f).out = s.out := (rfl)
@[simp] theorem modHp_key (f : Hp → Hp) : (s.modHp f).key = s.key := (rfl)
@[simp] theorem modHp_subsys (f : Hp → Hp) : (s.modHp f).subsys = s.subsys := (rfl)
@[simp] theorem modHp_hp (f : Hp → Hp) : (s.modHp f).hp = f s.hp := (rfl)
@[simp] theorem modHp_orbits (f : Hp → Hp) : (s.modHp f).orbits = s.orbits := (rfl)
@[simp] theorem modHp_irq (f : Hp → Hp) : (s.modHp f).irq = s.irq := (rfl)
@[simp] theorem modHp_heads (f : Hp → Hp) : (s.modHp f).heads = s.heads := (rfl)
@[simp] theorem modHp_dies (f : Hp → Hp) : (s.modHp f).dies = s.dies := (rfl)
@[simp] theorem modHp_dev (f : Hp → Hp) : (s.modHp f).dev = s.dev := (rfl)
@[simp] theorem modHp_sections (f : Hp → Hp) : (s.modHp f).sections = s.sections := (rfl)
@[simp] theorem modHp_epc (f : Hp → Hp) : (s.modHp f).epc = s.epc := (rfl)
@[simp] theorem modHp_vsp (f : Hp → Hp) : (s.modHp f).vsp = s.vsp := (rfl)
@[simp] theorem modHp_zl (f : Hp → Hp) : (s.modHp f).zl = s.zl := (rfl)
@[simp] theorem modHp_tb (f : Hp → Hp) : (s.modHp f).tb = s.tb := (rfl)
@[simp] theorem modHp_rcd (f : Hp → Hp) : (s.modHp f).rcd = s.rcd := (rfl)
@[simp] theorem modHp_pwr (f : Hp → Hp) : (s.modHp f).pwr = s.pwr := (rfl)
@[simp] theorem modHp_clk (f : Hp → Hp) : (s.modHp f).clk = s.clk := (rfl)
@[simp] theorem modHp_ecl (f : Hp → Hp) : (s.modHp f).ecl = s.ecl := (rfl)
@[simp] theorem modHp_tap (f : Hp → Hp) : (s.modHp f).tap = s.tap := (rfl)
@[simp] theorem modHp_aon (f : Hp → Hp) : (s.modHp f).aon = s.aon := (rfl)
@[simp] theorem modHp_head (f : Hp → Hp) (h : HeadId) : (s.modHp f).head h = s.head h := (rfl)
@[simp] theorem modHp_sec (f : Hp → Hp) (n : SecId) : (s.modHp f).sec n = s.sec n := (rfl)
@[simp] theorem modHp_die (f : Hp → Hp) (d : DieId) : (s.modHp f).die d = s.die d := (rfl)
@[simp] theorem modHp_orbit (f : Hp → Hp) (k : Fin 16) : (s.modHp f).orbit k = s.orbit k := (rfl)

@[simp] theorem modIrq_pending (f : Irq → Irq) : (s.modIrq f).pending = s.pending := (rfl)
@[simp] theorem modIrq_now (f : Irq → Irq) : (s.modIrq f).now = s.now := (rfl)
@[simp] theorem modIrq_free (f : Irq → Irq) : (s.modIrq f).free = s.free := (rfl)
@[simp] theorem modIrq_phase (f : Irq → Irq) : (s.modIrq f).phase = s.phase := (rfl)
@[simp] theorem modIrq_resetAt (f : Irq → Irq) : (s.modIrq f).resetAt = s.resetAt := (rfl)
@[simp] theorem modIrq_out (f : Irq → Irq) : (s.modIrq f).out = s.out := (rfl)
@[simp] theorem modIrq_key (f : Irq → Irq) : (s.modIrq f).key = s.key := (rfl)
@[simp] theorem modIrq_subsys (f : Irq → Irq) : (s.modIrq f).subsys = s.subsys := (rfl)
@[simp] theorem modIrq_hp (f : Irq → Irq) : (s.modIrq f).hp = s.hp := (rfl)
@[simp] theorem modIrq_orbits (f : Irq → Irq) : (s.modIrq f).orbits = s.orbits := (rfl)
@[simp] theorem modIrq_irq (f : Irq → Irq) : (s.modIrq f).irq = f s.irq := (rfl)
@[simp] theorem modIrq_heads (f : Irq → Irq) : (s.modIrq f).heads = s.heads := (rfl)
@[simp] theorem modIrq_dies (f : Irq → Irq) : (s.modIrq f).dies = s.dies := (rfl)
@[simp] theorem modIrq_dev (f : Irq → Irq) : (s.modIrq f).dev = s.dev := (rfl)
@[simp] theorem modIrq_sections (f : Irq → Irq) : (s.modIrq f).sections = s.sections := (rfl)
@[simp] theorem modIrq_epc (f : Irq → Irq) : (s.modIrq f).epc = s.epc := (rfl)
@[simp] theorem modIrq_vsp (f : Irq → Irq) : (s.modIrq f).vsp = s.vsp := (rfl)
@[simp] theorem modIrq_zl (f : Irq → Irq) : (s.modIrq f).zl = s.zl := (rfl)
@[simp] theorem modIrq_tb (f : Irq → Irq) : (s.modIrq f).tb = s.tb := (rfl)
@[simp] theorem modIrq_rcd (f : Irq → Irq) : (s.modIrq f).rcd = s.rcd := (rfl)
@[simp] theorem modIrq_pwr (f : Irq → Irq) : (s.modIrq f).pwr = s.pwr := (rfl)
@[simp] theorem modIrq_clk (f : Irq → Irq) : (s.modIrq f).clk = s.clk := (rfl)
@[simp] theorem modIrq_ecl (f : Irq → Irq) : (s.modIrq f).ecl = s.ecl := (rfl)
@[simp] theorem modIrq_tap (f : Irq → Irq) : (s.modIrq f).tap = s.tap := (rfl)
@[simp] theorem modIrq_aon (f : Irq → Irq) : (s.modIrq f).aon = s.aon := (rfl)
@[simp] theorem modIrq_head (f : Irq → Irq) (h : HeadId) : (s.modIrq f).head h = s.head h := (rfl)
@[simp] theorem modIrq_sec (f : Irq → Irq) (n : SecId) : (s.modIrq f).sec n = s.sec n := (rfl)
@[simp] theorem modIrq_die (f : Irq → Irq) (d : DieId) : (s.modIrq f).die d = s.die d := (rfl)
@[simp] theorem modIrq_orbit (f : Irq → Irq) (k : Fin 16) : (s.modIrq f).orbit k = s.orbit k := (rfl)

@[simp] theorem modPwr_pending (f : Pwr → Pwr) : (s.modPwr f).pending = s.pending := (rfl)
@[simp] theorem modPwr_now (f : Pwr → Pwr) : (s.modPwr f).now = s.now := (rfl)
@[simp] theorem modPwr_free (f : Pwr → Pwr) : (s.modPwr f).free = s.free := (rfl)
@[simp] theorem modPwr_phase (f : Pwr → Pwr) : (s.modPwr f).phase = s.phase := (rfl)
@[simp] theorem modPwr_resetAt (f : Pwr → Pwr) : (s.modPwr f).resetAt = s.resetAt := (rfl)
@[simp] theorem modPwr_out (f : Pwr → Pwr) : (s.modPwr f).out = s.out := (rfl)
@[simp] theorem modPwr_key (f : Pwr → Pwr) : (s.modPwr f).key = s.key := (rfl)
@[simp] theorem modPwr_subsys (f : Pwr → Pwr) : (s.modPwr f).subsys = s.subsys := (rfl)
@[simp] theorem modPwr_hp (f : Pwr → Pwr) : (s.modPwr f).hp = s.hp := (rfl)
@[simp] theorem modPwr_orbits (f : Pwr → Pwr) : (s.modPwr f).orbits = s.orbits := (rfl)
@[simp] theorem modPwr_irq (f : Pwr → Pwr) : (s.modPwr f).irq = s.irq := (rfl)
@[simp] theorem modPwr_heads (f : Pwr → Pwr) : (s.modPwr f).heads = s.heads := (rfl)
@[simp] theorem modPwr_dies (f : Pwr → Pwr) : (s.modPwr f).dies = s.dies := (rfl)
@[simp] theorem modPwr_dev (f : Pwr → Pwr) : (s.modPwr f).dev = s.dev := (rfl)
@[simp] theorem modPwr_sections (f : Pwr → Pwr) : (s.modPwr f).sections = s.sections := (rfl)
@[simp] theorem modPwr_epc (f : Pwr → Pwr) : (s.modPwr f).epc = s.epc := (rfl)
@[simp] theorem modPwr_vsp (f : Pwr → Pwr) : (s.modPwr f).vsp = s.vsp := (rfl)
@[simp] theorem modPwr_zl (f : Pwr → Pwr) : (s.modPwr f).zl = s.zl := (rfl)
@[simp] theorem modPwr_tb (f : Pwr → Pwr) : (s.modPwr f).tb = s.tb := (rfl)
@[simp] theorem modPwr_rcd (f : Pwr → Pwr) : (s.modPwr f).rcd = s.rcd := (rfl)
@[simp] theorem modPwr_pwr (f : Pwr → Pwr) : (s.modPwr f).pwr = f s.pwr := (rfl)
@[simp] theorem modPwr_clk (f : Pwr → Pwr) : (s.modPwr f).clk = s.clk := (rfl)
@[simp] theorem modPwr_ecl (f : Pwr → Pwr) : (s.modPwr f).ecl = s.ecl := (rfl)
@[simp] theorem modPwr_tap (f : Pwr → Pwr) : (s.modPwr f).tap = s.tap := (rfl)
@[simp] theorem modPwr_aon (f : Pwr → Pwr) : (s.modPwr f).aon = s.aon := (rfl)
@[simp] theorem modPwr_head (f : Pwr → Pwr) (h : HeadId) : (s.modPwr f).head h = s.head h := (rfl)
@[simp] theorem modPwr_sec (f : Pwr → Pwr) (n : SecId) : (s.modPwr f).sec n = s.sec n := (rfl)
@[simp] theorem modPwr_die (f : Pwr → Pwr) (d : DieId) : (s.modPwr f).die d = s.die d := (rfl)
@[simp] theorem modPwr_orbit (f : Pwr → Pwr) (k : Fin 16) : (s.modPwr f).orbit k = s.orbit k := (rfl)

@[simp] theorem modClk_pending (f : Clk → Clk) : (s.modClk f).pending = s.pending := (rfl)
@[simp] theorem modClk_now (f : Clk → Clk) : (s.modClk f).now = s.now := (rfl)
@[simp] theorem modClk_free (f : Clk → Clk) : (s.modClk f).free = s.free := (rfl)
@[simp] theorem modClk_phase (f : Clk → Clk) : (s.modClk f).phase = s.phase := (rfl)
@[simp] theorem modClk_resetAt (f : Clk → Clk) : (s.modClk f).resetAt = s.resetAt := (rfl)
@[simp] theorem modClk_out (f : Clk → Clk) : (s.modClk f).out = s.out := (rfl)
@[simp] theorem modClk_key (f : Clk → Clk) : (s.modClk f).key = s.key := (rfl)
@[simp] theorem modClk_subsys (f : Clk → Clk) : (s.modClk f).subsys = s.subsys := (rfl)
@[simp] theorem modClk_hp (f : Clk → Clk) : (s.modClk f).hp = s.hp := (rfl)
@[simp] theorem modClk_orbits (f : Clk → Clk) : (s.modClk f).orbits = s.orbits := (rfl)
@[simp] theorem modClk_irq (f : Clk → Clk) : (s.modClk f).irq = s.irq := (rfl)
@[simp] theorem modClk_heads (f : Clk → Clk) : (s.modClk f).heads = s.heads := (rfl)
@[simp] theorem modClk_dies (f : Clk → Clk) : (s.modClk f).dies = s.dies := (rfl)
@[simp] theorem modClk_dev (f : Clk → Clk) : (s.modClk f).dev = s.dev := (rfl)
@[simp] theorem modClk_sections (f : Clk → Clk) : (s.modClk f).sections = s.sections := (rfl)
@[simp] theorem modClk_epc (f : Clk → Clk) : (s.modClk f).epc = s.epc := (rfl)
@[simp] theorem modClk_vsp (f : Clk → Clk) : (s.modClk f).vsp = s.vsp := (rfl)
@[simp] theorem modClk_zl (f : Clk → Clk) : (s.modClk f).zl = s.zl := (rfl)
@[simp] theorem modClk_tb (f : Clk → Clk) : (s.modClk f).tb = s.tb := (rfl)
@[simp] theorem modClk_rcd (f : Clk → Clk) : (s.modClk f).rcd = s.rcd := (rfl)
@[simp] theorem modClk_pwr (f : Clk → Clk) : (s.modClk f).pwr = s.pwr := (rfl)
@[simp] theorem modClk_clk (f : Clk → Clk) : (s.modClk f).clk = f s.clk := (rfl)
@[simp] theorem modClk_ecl (f : Clk → Clk) : (s.modClk f).ecl = s.ecl := (rfl)
@[simp] theorem modClk_tap (f : Clk → Clk) : (s.modClk f).tap = s.tap := (rfl)
@[simp] theorem modClk_aon (f : Clk → Clk) : (s.modClk f).aon = s.aon := (rfl)
@[simp] theorem modClk_head (f : Clk → Clk) (h : HeadId) : (s.modClk f).head h = s.head h := (rfl)
@[simp] theorem modClk_sec (f : Clk → Clk) (n : SecId) : (s.modClk f).sec n = s.sec n := (rfl)
@[simp] theorem modClk_die (f : Clk → Clk) (d : DieId) : (s.modClk f).die d = s.die d := (rfl)
@[simp] theorem modClk_orbit (f : Clk → Clk) (k : Fin 16) : (s.modClk f).orbit k = s.orbit k := (rfl)

@[simp] theorem modRec_pending (f : Rec → Rec) : (s.modRec f).pending = s.pending := (rfl)
@[simp] theorem modRec_now (f : Rec → Rec) : (s.modRec f).now = s.now := (rfl)
@[simp] theorem modRec_free (f : Rec → Rec) : (s.modRec f).free = s.free := (rfl)
@[simp] theorem modRec_phase (f : Rec → Rec) : (s.modRec f).phase = s.phase := (rfl)
@[simp] theorem modRec_resetAt (f : Rec → Rec) : (s.modRec f).resetAt = s.resetAt := (rfl)
@[simp] theorem modRec_out (f : Rec → Rec) : (s.modRec f).out = s.out := (rfl)
@[simp] theorem modRec_key (f : Rec → Rec) : (s.modRec f).key = s.key := (rfl)
@[simp] theorem modRec_subsys (f : Rec → Rec) : (s.modRec f).subsys = s.subsys := (rfl)
@[simp] theorem modRec_hp (f : Rec → Rec) : (s.modRec f).hp = s.hp := (rfl)
@[simp] theorem modRec_orbits (f : Rec → Rec) : (s.modRec f).orbits = s.orbits := (rfl)
@[simp] theorem modRec_irq (f : Rec → Rec) : (s.modRec f).irq = s.irq := (rfl)
@[simp] theorem modRec_heads (f : Rec → Rec) : (s.modRec f).heads = s.heads := (rfl)
@[simp] theorem modRec_dies (f : Rec → Rec) : (s.modRec f).dies = s.dies := (rfl)
@[simp] theorem modRec_dev (f : Rec → Rec) : (s.modRec f).dev = s.dev := (rfl)
@[simp] theorem modRec_sections (f : Rec → Rec) : (s.modRec f).sections = s.sections := (rfl)
@[simp] theorem modRec_epc (f : Rec → Rec) : (s.modRec f).epc = s.epc := (rfl)
@[simp] theorem modRec_vsp (f : Rec → Rec) : (s.modRec f).vsp = s.vsp := (rfl)
@[simp] theorem modRec_zl (f : Rec → Rec) : (s.modRec f).zl = s.zl := (rfl)
@[simp] theorem modRec_tb (f : Rec → Rec) : (s.modRec f).tb = s.tb := (rfl)
@[simp] theorem modRec_rcd (f : Rec → Rec) : (s.modRec f).rcd = f s.rcd := (rfl)
@[simp] theorem modRec_pwr (f : Rec → Rec) : (s.modRec f).pwr = s.pwr := (rfl)
@[simp] theorem modRec_clk (f : Rec → Rec) : (s.modRec f).clk = s.clk := (rfl)
@[simp] theorem modRec_ecl (f : Rec → Rec) : (s.modRec f).ecl = s.ecl := (rfl)
@[simp] theorem modRec_tap (f : Rec → Rec) : (s.modRec f).tap = s.tap := (rfl)
@[simp] theorem modRec_aon (f : Rec → Rec) : (s.modRec f).aon = s.aon := (rfl)
@[simp] theorem modRec_head (f : Rec → Rec) (h : HeadId) : (s.modRec f).head h = s.head h := (rfl)
@[simp] theorem modRec_sec (f : Rec → Rec) (n : SecId) : (s.modRec f).sec n = s.sec n := (rfl)
@[simp] theorem modRec_die (f : Rec → Rec) (d : DieId) : (s.modRec f).die d = s.die d := (rfl)
@[simp] theorem modRec_orbit (f : Rec → Rec) (k : Fin 16) : (s.modRec f).orbit k = s.orbit k := (rfl)

@[simp] theorem modLane_pending (l : Lane) (f : LaneSt → LaneSt) : (s.modLane l f).pending = s.pending := (rfl)
@[simp] theorem modLane_now (l : Lane) (f : LaneSt → LaneSt) : (s.modLane l f).now = s.now := (rfl)
@[simp] theorem modLane_free (l : Lane) (f : LaneSt → LaneSt) : (s.modLane l f).free = s.free := (rfl)
@[simp] theorem modLane_phase (l : Lane) (f : LaneSt → LaneSt) : (s.modLane l f).phase = s.phase := (rfl)
@[simp] theorem modLane_resetAt (l : Lane) (f : LaneSt → LaneSt) : (s.modLane l f).resetAt = s.resetAt := (rfl)
@[simp] theorem modLane_out (l : Lane) (f : LaneSt → LaneSt) : (s.modLane l f).out = s.out := (rfl)
@[simp] theorem modLane_key (l : Lane) (f : LaneSt → LaneSt) : (s.modLane l f).key = s.key := (rfl)
@[simp] theorem modLane_subsys (l : Lane) (f : LaneSt → LaneSt) : (s.modLane l f).subsys = s.subsys := (rfl)
@[simp] theorem modLane_hp (l : Lane) (f : LaneSt → LaneSt) : (s.modLane l f).hp = s.hp := (rfl)
@[simp] theorem modLane_orbits (l : Lane) (f : LaneSt → LaneSt) : (s.modLane l f).orbits = s.orbits := (rfl)
@[simp] theorem modLane_irq (l : Lane) (f : LaneSt → LaneSt) : (s.modLane l f).irq = s.irq := (rfl)
@[simp] theorem modLane_heads (l : Lane) (f : LaneSt → LaneSt) : (s.modLane l f).heads = s.heads := (rfl)
@[simp] theorem modLane_dies (l : Lane) (f : LaneSt → LaneSt) : (s.modLane l f).dies = s.dies := (rfl)
@[simp] theorem modLane_dev (l : Lane) (f : LaneSt → LaneSt) : (s.modLane l f).dev = s.dev := (rfl)
@[simp] theorem modLane_sections (l : Lane) (f : LaneSt → LaneSt) : (s.modLane l f).sections = s.sections := (rfl)
@[simp] theorem modLane_epc (l : Lane) (f : LaneSt → LaneSt) : (s.modLane l f).epc = s.epc := (rfl)
@[simp] theorem modLane_vsp (l : Lane) (f : LaneSt → LaneSt) : (s.modLane l f).vsp = s.vsp.setLane l (f (s.vsp.lane l)) := (rfl)
@[simp] theorem modLane_zl (l : Lane) (f : LaneSt → LaneSt) : (s.modLane l f).zl = s.zl := (rfl)
@[simp] theorem modLane_tb (l : Lane) (f : LaneSt → LaneSt) : (s.modLane l f).tb = s.tb := (rfl)
@[simp] theorem modLane_rcd (l : Lane) (f : LaneSt → LaneSt) : (s.modLane l f).rcd = s.rcd := (rfl)
@[simp] theorem modLane_pwr (l : Lane) (f : LaneSt → LaneSt) : (s.modLane l f).pwr = s.pwr := (rfl)
@[simp] theorem modLane_clk (l : Lane) (f : LaneSt → LaneSt) : (s.modLane l f).clk = s.clk := (rfl)
@[simp] theorem modLane_ecl (l : Lane) (f : LaneSt → LaneSt) : (s.modLane l f).ecl = s.ecl := (rfl)
@[simp] theorem modLane_tap (l : Lane) (f : LaneSt → LaneSt) : (s.modLane l f).tap = s.tap := (rfl)
@[simp] theorem modLane_aon (l : Lane) (f : LaneSt → LaneSt) : (s.modLane l f).aon = s.aon := (rfl)
@[simp] theorem modLane_head (l : Lane) (f : LaneSt → LaneSt) (h : HeadId) : (s.modLane l f).head h = s.head h := (rfl)
@[simp] theorem modLane_sec (l : Lane) (f : LaneSt → LaneSt) (n : SecId) : (s.modLane l f).sec n = s.sec n := (rfl)
@[simp] theorem modLane_die (l : Lane) (f : LaneSt → LaneSt) (d : DieId) : (s.modLane l f).die d = s.die d := (rfl)
@[simp] theorem modLane_orbit (l : Lane) (f : LaneSt → LaneSt) (k : Fin 16) : (s.modLane l f).orbit k = s.orbit k := (rfl)

@[simp] theorem setLane_same (v : Vsp) (l : Lane) (x : LaneSt) : (v.setLane l x).lane l = x := by cases l <;> rfl
theorem setLane_other (v : Vsp) (l m : Lane) (x : LaneSt) (h : m ≠ l) : (v.setLane l x).lane m = v.lane m := by
  cases l <;> cases m <;> first | rfl | exact absurd rfl h

/-! ### The entry that an update changes, and the others -/

@[simp] theorem modHead_head_same (h : HeadId) (f : Head → Head) : (s.modHead h f).head h = f (s.head h) := by
  simp [State.modHead, State.head]
theorem modHead_head_other (h g : HeadId) (f : Head → Head) (hg : g ≠ h) : (s.modHead h f).head g = s.head g := by
  simp [State.modHead, State.head, tget_tmod_other _ _ _ _ hg]
theorem modHead_head (h g : HeadId) (f : Head → Head) :
    (s.modHead h f).head g = if g = h then f (s.head g) else s.head g := tget_tmod _ _ _ _
@[simp] theorem modSec_sec_same (n : SecId) (f : Section → Section) : (s.modSec n f).sec n = f (s.sec n) := by
  simp [State.modSec, State.sec]
theorem modSec_sec_other (n m : SecId) (f : Section → Section) (hm : m ≠ n) : (s.modSec n f).sec m = s.sec m := by
  simp [State.modSec, State.sec, tget_tmod_other _ _ _ _ hm]
theorem modSec_sec (n m : SecId) (f : Section → Section) :
    (s.modSec n f).sec m = if m = n then f (s.sec m) else s.sec m := tget_tmod _ _ _ _
@[simp] theorem modDie_die_same (d : DieId) (f : Die → Die) : (s.modDie d f).die d = f (s.die d) := by
  simp [State.modDie, State.die]
theorem modDie_die_other (d e : DieId) (f : Die → Die) (he : e ≠ d) : (s.modDie d f).die e = s.die e := by
  simp [State.modDie, State.die, tget_tmod_other _ _ _ _ he]
theorem modDie_die (d e : DieId) (f : Die → Die) :
    (s.modDie d f).die e = if e = d then f (s.die e) else s.die e := tget_tmod _ _ _ _
@[simp] theorem modOrbit_orbit_same (k : Fin 16) (f : Orbit → Orbit) : (s.modOrbit k f).orbit k = f (s.orbit k) := by
  simp [State.modOrbit, State.orbit]
theorem modOrbit_orbit_other (k j : Fin 16) (f : Orbit → Orbit) (hj : j ≠ k) :
    (s.modOrbit k f).orbit j = s.orbit j := by
  simp [State.modOrbit, State.orbit, tget_tmod_other _ _ _ _ hj]
theorem modOrbit_orbit (k j : Fin 16) (f : Orbit → Orbit) :
    (s.modOrbit k f).orbit j = if j = k then f (s.orbit j) else s.orbit j := tget_tmod _ _ _ _

@[simp] theorem modFe_head_same (h : HeadId) (f : FeHead → FeHead) :
    (s.modFe h f).head h = { s.head h with fe := f (s.head h).fe } := modHead_head_same s h _
theorem modFe_head_other (h g : HeadId) (f : FeHead → FeHead) (hg : g ≠ h) : (s.modFe h f).head g = s.head g :=
  modHead_head_other s h g _ hg
theorem modFe_head (h g : HeadId) (f : FeHead → FeHead) :
    (s.modFe h f).head g = if g = h then { s.head g with fe := f (s.head g).fe } else s.head g :=
  modHead_head s h g _
@[simp] theorem modXs_head_same (h : HeadId) (f : XsHead → XsHead) :
    (s.modXs h f).head h = { s.head h with xs := f (s.head h).xs } := modHead_head_same s h _
theorem modXs_head_other (h g : HeadId) (f : XsHead → XsHead) (hg : g ≠ h) : (s.modXs h f).head g = s.head g :=
  modHead_head_other s h g _ hg
theorem modXs_head (h g : HeadId) (f : XsHead → XsHead) :
    (s.modXs h f).head g = if g = h then { s.head g with xs := f (s.head g).xs } else s.head g :=
  modHead_head s h g _
@[simp] theorem modXsSlice_head_same (h : HeadId) (x : Sys) (f : XsSlice → XsSlice) :
    (s.modXsSlice h x f).head h =
      { s.head h with xs := { (s.head h).xs with slice := (s.head h).xs.slice.mod x f } } :=
  modHead_head_same s h _
theorem modXsSlice_head_other (h g : HeadId) (x : Sys) (f : XsSlice → XsSlice) (hg : g ≠ h) :
    (s.modXsSlice h x f).head g = s.head g := modHead_head_other s h g _ hg
theorem modXsSlice_head (h g : HeadId) (x : Sys) (f : XsSlice → XsSlice) :
    (s.modXsSlice h x f).head g = if g = h then
      { s.head g with xs := { (s.head g).xs with slice := (s.head g).xs.slice.mod x f } } else s.head g :=
  modHead_head s h g _
@[simp] theorem modFlt_head_same (h : HeadId) (f : FltHead → FltHead) :
    (s.modFlt h f).head h = { s.head h with flt := f (s.head h).flt } := modHead_head_same s h _
theorem modFlt_head_other (h g : HeadId) (f : FltHead → FltHead) (hg : g ≠ h) : (s.modFlt h f).head g = s.head g :=
  modHead_head_other s h g _ hg
theorem modFlt_head (h g : HeadId) (f : FltHead → FltHead) :
    (s.modFlt h f).head g = if g = h then { s.head g with flt := f (s.head g).flt } else s.head g :=
  modHead_head s h g _
@[simp] theorem modFltSlice_head_same (h : HeadId) (x : Sys) (f : FltSlice → FltSlice) :
    (s.modFltSlice h x f).head h =
      { s.head h with flt := { (s.head h).flt with slice := (s.head h).flt.slice.mod x f } } :=
  modHead_head_same s h _
theorem modFltSlice_head_other (h g : HeadId) (x : Sys) (f : FltSlice → FltSlice) (hg : g ≠ h) :
    (s.modFltSlice h x f).head g = s.head g := modHead_head_other s h g _ hg
theorem modFltSlice_head (h g : HeadId) (x : Sys) (f : FltSlice → FltSlice) :
    (s.modFltSlice h x f).head g = if g = h then
      { s.head g with flt := { (s.head g).flt with slice := (s.head g).flt.slice.mod x f } } else s.head g :=
  modHead_head s h g _
@[simp] theorem modCmp_head_same (h : HeadId) (f : CmpHead → CmpHead) :
    (s.modCmp h f).head h = { s.head h with cmp := f (s.head h).cmp } := modHead_head_same s h _
theorem modCmp_head_other (h g : HeadId) (f : CmpHead → CmpHead) (hg : g ≠ h) : (s.modCmp h f).head g = s.head g :=
  modHead_head_other s h g _ hg
theorem modCmp_head (h g : HeadId) (f : CmpHead → CmpHead) :
    (s.modCmp h f).head g = if g = h then { s.head g with cmp := f (s.head g).cmp } else s.head g :=
  modHead_head s h g _
@[simp] theorem modCmpSlice_head_same (h : HeadId) (x : Sys) (f : CmpSlice → CmpSlice) :
    (s.modCmpSlice h x f).head h =
      { s.head h with cmp := { (s.head h).cmp with slice := (s.head h).cmp.slice.mod x f } } :=
  modHead_head_same s h _
theorem modCmpSlice_head_other (h g : HeadId) (x : Sys) (f : CmpSlice → CmpSlice) (hg : g ≠ h) :
    (s.modCmpSlice h x f).head g = s.head g := modHead_head_other s h g _ hg
theorem modCmpSlice_head (h g : HeadId) (x : Sys) (f : CmpSlice → CmpSlice) :
    (s.modCmpSlice h x f).head g = if g = h then
      { s.head g with cmp := { (s.head g).cmp with slice := (s.head g).cmp.slice.mod x f } } else s.head g :=
  modHead_head s h g _
@[simp] theorem modTrn_head_same (h : HeadId) (f : TrnHead → TrnHead) :
    (s.modTrn h f).head h = { s.head h with trn := f (s.head h).trn } := modHead_head_same s h _
theorem modTrn_head_other (h g : HeadId) (f : TrnHead → TrnHead) (hg : g ≠ h) : (s.modTrn h f).head g = s.head g :=
  modHead_head_other s h g _ hg
theorem modTrn_head (h g : HeadId) (f : TrnHead → TrnHead) :
    (s.modTrn h f).head g = if g = h then { s.head g with trn := f (s.head g).trn } else s.head g :=
  modHead_head s h g _
@[simp] theorem modTrnSlice_head_same (h : HeadId) (x : Sys) (f : TrnSlice → TrnSlice) :
    (s.modTrnSlice h x f).head h =
      { s.head h with trn := { (s.head h).trn with slice := (s.head h).trn.slice.mod x f } } :=
  modHead_head_same s h _
theorem modTrnSlice_head_other (h g : HeadId) (x : Sys) (f : TrnSlice → TrnSlice) (hg : g ≠ h) :
    (s.modTrnSlice h x f).head g = s.head g := modHead_head_other s h g _ hg
theorem modTrnSlice_head (h g : HeadId) (x : Sys) (f : TrnSlice → TrnSlice) :
    (s.modTrnSlice h x f).head g = if g = h then
      { s.head g with trn := { (s.head g).trn with slice := (s.head g).trn.slice.mod x f } } else s.head g :=
  modHead_head s h g _

/-! ### Two updates of one entry -/

@[simp] theorem modHead_modHead (h : HeadId) (f g : Head → Head) :
    (s.modHead h f).modHead h g = s.modHead h (fun x => g (f x)) := by simp [State.modHead]
@[simp] theorem modSec_modSec (n : SecId) (f g : Section → Section) :
    (s.modSec n f).modSec n g = s.modSec n (fun x => g (f x)) := by simp [State.modSec]
@[simp] theorem modDie_modDie (d : DieId) (f g : Die → Die) :
    (s.modDie d f).modDie d g = s.modDie d (fun x => g (f x)) := by simp [State.modDie]
@[simp] theorem modOrbit_modOrbit (k : Fin 16) (f g : Orbit → Orbit) :
    (s.modOrbit k f).modOrbit k g = s.modOrbit k (fun x => g (f x)) := by simp [State.modOrbit]

/-! ### Updates that agree on the entry, or leave it -/

theorem tmod_congr {α : Type} {n : Nat} (v : Vector α n) (i : Fin n) (f g : α → α) (h : f (tget v i) = g (tget v i)) :
    tmod v i f = tmod v i g := by simp [tmod, h]
theorem tmod_id {α : Type} {n : Nat} (v : Vector α n) (i : Fin n) (f : α → α) (h : f (tget v i) = tget v i) :
    tmod v i f = v := by
  apply table_ext; intro j; rw [tget_tmod]; split
  · rename_i e; subst e; exact h
  · rfl
theorem modHead_congr (h : HeadId) (f g : Head → Head) (e : f (s.head h) = g (s.head h)) :
    s.modHead h f = s.modHead h g := by
  simp only [State.modHead]; rw [tmod_congr _ _ _ _ e]
theorem modHead_id (h : HeadId) (f : Head → Head) (e : f (s.head h) = s.head h) : s.modHead h f = s := by
  simp only [State.modHead]; rw [tmod_id _ _ _ e]
theorem modSec_congr (n : SecId) (f g : Section → Section) (e : f (s.sec n) = g (s.sec n)) :
    s.modSec n f = s.modSec n g := by
  simp only [State.modSec]; rw [tmod_congr _ _ _ _ e]
theorem modSec_id (n : SecId) (f : Section → Section) (e : f (s.sec n) = s.sec n) : s.modSec n f = s := by
  simp only [State.modSec]; rw [tmod_id _ _ _ e]
theorem modDie_congr (d : DieId) (f g : Die → Die) (e : f (s.die d) = g (s.die d)) :
    s.modDie d f = s.modDie d g := by
  simp only [State.modDie]; rw [tmod_congr _ _ _ _ e]
theorem modDie_id (d : DieId) (f : Die → Die) (e : f (s.die d) = s.die d) : s.modDie d f = s := by
  simp only [State.modDie]; rw [tmod_id _ _ _ e]
theorem modOrbit_congr (k : Fin 16) (f g : Orbit → Orbit) (e : f (s.orbit k) = g (s.orbit k)) :
    s.modOrbit k f = s.modOrbit k g := by
  simp only [State.modOrbit]; rw [tmod_congr _ _ _ _ e]
theorem modOrbit_id (k : Fin 16) (f : Orbit → Orbit) (e : f (s.orbit k) = s.orbit k) : s.modOrbit k f = s := by
  simp only [State.modOrbit]; rw [tmod_id _ _ _ e]

end Sys2Proof.Machine
end

