-- ==== Sys2Proof/Laws/Ops.lean ====
section
/-! SUPPORT. What each shared operation can do: the gates, event stamps and flags, DMA and orbits, admission and
completion. `State.device` erases what every command may touch in passing, so a law `(op s).device = s.device` says that
`op` changes nothing else; the laws of single fields follow from it. -/
namespace Sys2Proof.Machine

/-! ### The device of a state -/

section
variable (s : State)
@[simp] theorem device_device : s.device.device = s.device := (rfl)
@[simp] theorem device_pending : s.device.pending = s.pending := (rfl)
@[simp] theorem device_phase : s.device.phase = s.phase := (rfl)
@[simp] theorem device_resetAt : s.device.resetAt = s.resetAt := (rfl)
@[simp] theorem device_key : s.device.key = s.key := (rfl)
@[simp] theorem device_heads : s.device.heads = s.heads := (rfl)
@[simp] theorem device_dies : s.device.dies = s.dies := (rfl)
@[simp] theorem device_dev : s.device.dev = s.dev := (rfl)
@[simp] theorem device_sections : s.device.sections = s.sections := (rfl)
@[simp] theorem device_epc : s.device.epc = s.epc := (rfl)
@[simp] theorem device_vsp : s.device.vsp = s.vsp := (rfl)
@[simp] theorem device_zl : s.device.zl = s.zl := (rfl)
@[simp] theorem device_tb : s.device.tb = s.tb := (rfl)
@[simp] theorem device_rcd : s.device.rcd = { s.rcd with raised := [] } := (rfl)
@[simp] theorem device_pwr : s.device.pwr = s.pwr := (rfl)
@[simp] theorem device_clk : s.device.clk = s.clk := (rfl)
@[simp] theorem device_ecl : s.device.ecl = s.ecl := (rfl)
@[simp] theorem device_tap : s.device.tap = s.tap := (rfl)
@[simp] theorem device_aon : s.device.aon = s.aon := (rfl)
@[simp] theorem device_head (h : HeadId) : s.device.head h = s.head h := (rfl)
@[simp] theorem device_sec (n : SecId) : s.device.sec n = s.sec n := (rfl)
@[simp] theorem device_die (d : DieId) : s.device.die d = s.die d := (rfl)
end

section
variable {s u : State} (e : u.device = s.device)
include e
theorem pending_of_device : u.pending = s.pending := (congrArg State.pending e :)
theorem phase_of_device : u.phase = s.phase := (congrArg State.phase e :)
theorem resetAt_of_device : u.resetAt = s.resetAt := (congrArg State.resetAt e :)
theorem key_of_device : u.key = s.key := (congrArg State.key e :)
theorem heads_of_device : u.heads = s.heads := (congrArg State.heads e :)
theorem dies_of_device : u.dies = s.dies := (congrArg State.dies e :)
theorem dev_of_device : u.dev = s.dev := (congrArg State.dev e :)
theorem sections_of_device : u.sections = s.sections := (congrArg State.sections e :)
theorem epc_of_device : u.epc = s.epc := (congrArg State.epc e :)
theorem vsp_of_device : u.vsp = s.vsp := (congrArg State.vsp e :)
theorem zl_of_device : u.zl = s.zl := (congrArg State.zl e :)
theorem tb_of_device : u.tb = s.tb := (congrArg State.tb e :)
theorem pwr_of_device : u.pwr = s.pwr := (congrArg State.pwr e :)
theorem clk_of_device : u.clk = s.clk := (congrArg State.clk e :)
theorem ecl_of_device : u.ecl = s.ecl := (congrArg State.ecl e :)
theorem tap_of_device : u.tap = s.tap := (congrArg State.tap e :)
theorem aon_of_device : u.aon = s.aon := (congrArg State.aon e :)
theorem mem_of_device : u.rcd.mem = s.rcd.mem := (congrArg (fun x => x.rcd.mem) e :)
theorem chassis_of_device : u.chassis = s.chassis := (congrArg State.chassis e :)
theorem head_of_device (h : HeadId) : u.head h = s.head h := (congrArg (fun x => x.head h) e :)
theorem sec_of_device (n : SecId) : u.sec n = s.sec n := (congrArg (fun x => x.sec n) e :)
theorem die_of_device (d : DieId) : u.die d = s.die d := (congrArg (fun x => x.die d) e :)
end

section
variable (s : State)
@[simp] theorem advance_device (t : Nat) : (s.advance t).device = s.device := (rfl)
@[simp] theorem modHead_device (h : HeadId) (f : Head → Head) : (s.modHead h f).device = s.device.modHead h f := (rfl)
@[simp] theorem modFe_device (h : HeadId) (f : FeHead → FeHead) : (s.modFe h f).device = s.device.modFe h f := (rfl)
@[simp] theorem modXs_device (h : HeadId) (f : XsHead → XsHead) : (s.modXs h f).device = s.device.modXs h f := (rfl)
@[simp] theorem modFlt_device (h : HeadId) (f : FltHead → FltHead) : (s.modFlt h f).device = s.device.modFlt h f := (rfl)
@[simp] theorem modCmp_device (h : HeadId) (f : CmpHead → CmpHead) : (s.modCmp h f).device = s.device.modCmp h f := (rfl)
@[simp] theorem modTrn_device (h : HeadId) (f : TrnHead → TrnHead) : (s.modTrn h f).device = s.device.modTrn h f := (rfl)
@[simp] theorem modSec_device (n : SecId) (f : Section → Section) : (s.modSec n f).device = s.device.modSec n f := (rfl)
@[simp] theorem modDie_device (d : DieId) (f : Die → Die) : (s.modDie d f).device = s.device.modDie d f := (rfl)
@[simp] theorem modOrbit_device (k : Fin 16) (f : Orbit → Orbit) : (s.modOrbit k f).device = s.device := (rfl)
@[simp] theorem modXsSlice_device (h : HeadId) (x : Sys) (f : XsSlice → XsSlice) :
    (s.modXsSlice h x f).device = s.device.modXsSlice h x f := (rfl)
@[simp] theorem modFltSlice_device (h : HeadId) (x : Sys) (f : FltSlice → FltSlice) :
    (s.modFltSlice h x f).device = s.device.modFltSlice h x f := (rfl)
@[simp] theorem modCmpSlice_device (h : HeadId) (x : Sys) (f : CmpSlice → CmpSlice) :
    (s.modCmpSlice h x f).device = s.device.modCmpSlice h x f := (rfl)
@[simp] theorem modTrnSlice_device (h : HeadId) (x : Sys) (f : TrnSlice → TrnSlice) :
    (s.modTrnSlice h x f).device = s.device.modTrnSlice h x f := (rfl)
end

theorem ite_proj {α : Type} (f : State → α) {p : Prop} [Decidable p] {a b : State} {x : α} (ha : f a = x) (hb : f b = x) :
    f (if p then a else b) = x := by split <;> assumption

/-! ### The gates -/

section
variable {s : State}
theorem whenAwake_open (f : State → State) (h : awake s = true) : whenAwake f s = f s := if_pos h
theorem whenAwake_shut (f : State → State) (h : awake s = false) : whenAwake f s = s := by simp [whenAwake, h]
theorem whenRunning_open (f : State → State) (h : s.phase = .running) : whenRunning f s = f s := by
  simp [whenRunning, running, h]
theorem whenRunning_shut (f : State → State) (h : s.phase ≠ .running) : whenRunning f s = s := by
  simp [whenRunning, running, h]
theorem whenHost_open (f : State → State) (h : hostOk s = true) : whenHost f s = f s := if_pos h
theorem whenHost_shut (f : State → State) (h : hostOk s = false) : whenHost f s = s := by simp [whenHost, h]
theorem awake_of_running (h : s.phase = .running) : awake s = true := by simp [awake, h]
theorem awake_of_hostOk (h : hostOk s = true) : awake s = true := by
  simp only [hostOk, Bool.and_eq_true] at h; exact h.1.1
@[simp] theorem advance_awake (t : Nat) : awake (s.advance t) = awake s := (rfl)
@[simp] theorem advance_running (t : Nat) : running (s.advance t) = running s := (rfl)
@[simp] theorem advance_hostUp (t : Nat) : hostUp (s.advance t) = hostUp s := (rfl)
@[simp] theorem advance_hostOk (t : Nat) : hostOk (s.advance t) = hostOk s := (rfl)
@[simp] theorem advance_canMaster (t : Nat) : canMaster (s.advance t) = canMaster s := (rfl)
@[simp] theorem advance_admissible (t : Nat) (op : BitVec 16) (c : Cmd) :
    admissible op c (s.advance t) = admissible op c s := (rfl)
end

/-! ### Stamps, messages and flags -/

section
variable (s : State)
@[simp] theorem raise_device (n : Nat) : (raise n s).device = s.device := (rfl)
@[simp] theorem raise_msgs (n : Nat) :
    (raise n s).irq.msgs = insertMsg { at_ := s.now, src := Fin.ofNat 512 n } s.irq.msgs := (rfl)
@[simp] theorem raise_hp (n : Nat) : (raise n s).hp = s.hp := (rfl)
@[simp] theorem raise_orbits (n : Nat) : (raise n s).orbits = s.orbits := (rfl)
@[simp] theorem raise_out (n : Nat) : (raise n s).out = s.out := (rfl)
@[simp] theorem raise_now (n : Nat) : (raise n s).now = s.now := (rfl)
@[simp] theorem raise_rcd (n : Nat) : (raise n s).rcd = s.rcd := (rfl)
@[simp] theorem trig_device (cls source : Nat) (detail : Word) : (trig cls source detail s).device = s.device := by
  unfold trig; split <;> rfl
@[simp] theorem trig_hp (cls source : Nat) (detail : Word) : (trig cls source detail s).hp = s.hp := by
  unfold trig; split <;> rfl
@[simp] theorem trig_orbits (cls source : Nat) (detail : Word) : (trig cls source detail s).orbits = s.orbits := by
  unfold trig; split <;> rfl
@[simp] theorem trig_irq (cls source : Nat) (detail : Word) : (trig cls source detail s).irq = s.irq := by
  unfold trig; split <;> rfl
@[simp] theorem trig_out (cls source : Nat) (detail : Word) : (trig cls source detail s).out = s.out := by
  unfold trig; split <;> rfl
@[simp] theorem trig_now (cls source : Nat) (detail : Word) : (trig cls source detail s).now = s.now := by
  unfold trig; split <;> rfl
/-- A trigger of a class that is not enabled is none (R312). -/
theorem trig_disabled (cls source : Nat) (detail : Word) (h : bit s.rcd.trigEn cls = false) :
    trig cls source detail s = s := by simp [trig, h]

@[simp] theorem countEvents_device (h : HeadId) (n : Nat) : (countEvents h n s).device = s.device := by
  simp only [countEvents]; split <;> rfl
@[simp] theorem countEvents_hp (h : HeadId) (n : Nat) : (countEvents h n s).hp = s.hp := by
  simp only [countEvents]; split <;> rfl
@[simp] theorem countEvents_orbits (h : HeadId) (n : Nat) : (countEvents h n s).orbits = s.orbits := by
  simp only [countEvents]; split <;> rfl
@[simp] theorem countEvents_out (h : HeadId) (n : Nat) : (countEvents h n s).out = s.out := by
  simp only [countEvents]; split <;> rfl
@[simp] theorem countEvents_now (h : HeadId) (n : Nat) : (countEvents h n s).now = s.now := by
  simp only [countEvents]; split <;> rfl

/-- A word whose wanted flags already stand takes nothing new. -/
theorem or_rise (old flags : Word) : old ||| (flags &&& ~~~ old) = old ||| flags := by
  ext i hi
  simp only [BitVec.getElem_or, BitVec.getElem_and, BitVec.getElem_not]
  cases old[i] <;> cases flags[i] <;> rfl

theorem or_of_no_rise (old flags : Word) (h : flags &&& ~~~ old = 0) : old ||| flags = old := by
  rw [← or_rise, h]; simp

@[simp] theorem setHeadFault_self (r : HeadReg) (x : Head) : setHeadFault r (headFault r x) x = x := by cases r <;> rfl
@[simp] theorem headFault_setHeadFault (r : HeadReg) (w : Word) (x : Head) : headFault r (setHeadFault r w x) = w := by
  cases r <;> rfl

@[simp] theorem headFault_spoil (r q : HeadReg) (flags : Word) (t : Nat) (x : Head) :
    headFault q (Head.spoil r flags t x) = headFault q x := by
  unfold Head.spoil; split <;> cases q <;> rfl
/-- Flags that are no REG_FAULT, ILIM or HEALTH spoil no drive interval (R255). -/
theorem spoil_none {r : HeadReg} {flags : Word} (t : Nat) (x : Head) (h : spoils r flags = false) :
    Head.spoil r flags t x = x := by simp [Head.spoil, h]
@[simp] theorem spoil_flt (flags : Word) (t : Nat) (x : Head) : Head.spoil .flt flags t x = x := spoil_none t x rfl
@[simp] theorem spoil_cmp (flags : Word) (t : Nat) (x : Head) : Head.spoil .cmp flags t x = x := spoil_none t x rfl
@[simp] theorem spoil_trn (flags : Word) (t : Nat) (x : Head) : Head.spoil .trn flags t x = x := spoil_none t x rfl

/-- Everything that setting flags of a head can do to the device: the flags of that register of that head (R287), and the
instant from which its drive interval runs (R255). -/
theorem flagHead_device (r : HeadReg) (h : HeadId) (flags : Word) :
    (flagHead r h flags s).device = s.device.modHead h (fun x =>
      setHeadFault r (headFault r x ||| flags) (Head.spoil r flags s.now x)) := by
  simp only [flagHead]
  split
  · rename_i hz
    have e := or_of_no_rise _ _ hz
    simp only [modHead_head_same, headFault_spoil] at e
    rw [modHead_device]
    refine modHead_congr _ _ _ _ ?_
    simp only [device_head, e]
    conv_rhs => rw [← headFault_spoil r r flags s.now, setHeadFault_self]
  · simp only [trig_device, countEvents_device, modHead_device, modHead_modHead, modHead_head_same, headFault_spoil,
      or_rise]
    exact modHead_congr _ _ _ _ rfl
@[simp] theorem flagHead_hp (r : HeadReg) (h : HeadId) (flags : Word) : (flagHead r h flags s).hp = s.hp := by
  simp only [flagHead]; split <;> simp
@[simp] theorem flagHead_orbits (r : HeadReg) (h : HeadId) (flags : Word) :
    (flagHead r h flags s).orbits = s.orbits := by
  simp only [flagHead]; split <;> simp
@[simp] theorem flagHead_out (r : HeadReg) (h : HeadId) (flags : Word) : (flagHead r h flags s).out = s.out := by
  simp only [flagHead]; split <;> simp
@[simp] theorem flagHead_now (r : HeadReg) (h : HeadId) (flags : Word) : (flagHead r h flags s).now = s.now := by
  simp only [flagHead]; split <;> simp
theorem flagHead_head (r : HeadReg) (h : HeadId) (flags : Word) :
    (flagHead r h flags s).head h =
      setHeadFault r (headFault r (s.head h) ||| flags) (Head.spoil r flags s.now (s.head h)) := by
  rw [← device_head, flagHead_device]; simp
theorem flagHead_head_other (r : HeadReg) (h g : HeadId) (flags : Word) (hg : g ≠ h) :
    (flagHead r h flags s).head g = s.head g := by
  rw [← device_head, flagHead_device, modHead_head_other _ _ _ _ hg]; rfl

@[simp] theorem announce_device (src cls : Nat) (old new : Word) : (announce src cls old new s).device = s.device := by
  unfold announce; split <;> simp
@[simp] theorem announce_hp (src cls : Nat) (old new : Word) : (announce src cls old new s).hp = s.hp := by
  unfold announce; split <;> simp
@[simp] theorem announce_orbits (src cls : Nat) (old new : Word) :
    (announce src cls old new s).orbits = s.orbits := by
  unfold announce; split <;> simp
@[simp] theorem announce_out (src cls : Nat) (old new : Word) : (announce src cls old new s).out = s.out := by
  unfold announce; split <;> simp
@[simp] theorem announce_now (src cls : Nat) (old new : Word) : (announce src cls old new s).now = s.now := by
  unfold announce; split <;> simp

/-- Setting a device flag changes that fault register and nothing else of the device. -/
theorem flagVsp_device (flags : Word) :
    (flagVsp flags s).device = ({ s with vsp := { s.vsp with fault := s.vsp.fault ||| flags } } : State).device := by
  simp [flagVsp]
theorem flagZl_device (n : Nat) :
    (flagZl n s).device = ({ s with zl := { s.zl with fault := s.zl.fault ||| bits n 1 } } : State).device := by
  simp [flagZl]
theorem flagEpc_device (flags : Word) :
    (flagEpc flags s).device = ({ s with epc := { s.epc with fault := s.epc.fault ||| flags } } : State).device := by
  simp [flagEpc]
theorem flagClk_device (flags : Word) :
    (flagClk flags s).device = ({ s with clk := { s.clk with fault := s.clk.fault ||| flags } } : State).device := by
  simp [flagClk]
theorem flagTb_device (n : Nat) :
    (flagTb n s).device = ({ s with tb := { s.tb with fault := s.tb.fault ||| bits n 1 } } : State).device := by
  simp [flagTb]
theorem flagRec_device (n : Nat) :
    (flagRec n s).device = ({ s with rcd := { s.rcd with fault := s.rcd.fault ||| bits n 1 } } : State).device := by
  simp only [flagRec]; split <;> rfl
@[simp] theorem flagSec_device (n : SecId) (k : Nat) :
    (flagSec n k s).device = s.device.modSec n (fun x => { x with core := { x.core with
      fault := x.core.fault ||| bits k 1 } }) := (rfl)
end

/-! ### DMA, orbits and streams -/

section
variable (s : State)
@[simp] theorem dma_device (a : BitVec 64) (l : List Byte) : (dma a l s).device = s.device := (rfl)
@[simp] theorem dma_hp (a : BitVec 64) (l : List Byte) : (dma a l s).hp = s.hp := (rfl)
@[simp] theorem dma_orbits (a : BitVec 64) (l : List Byte) : (dma a l s).orbits = s.orbits := (rfl)
@[simp] theorem dma_irq (a : BitVec 64) (l : List Byte) : (dma a l s).irq = s.irq := (rfl)
@[simp] theorem dma_now (a : BitVec 64) (l : List Byte) : (dma a l s).now = s.now := (rfl)
@[simp] theorem orbFault_device (k : Fin 16) (w : Word) : (orbFault k w s).device = s.device := by
  simp only [orbFault]; split <;> rfl
@[simp] theorem orbFault_hp (k : Fin 16) (w : Word) : (orbFault k w s).hp = s.hp := by
  simp only [orbFault]; split <;> rfl
@[simp] theorem stepIndex_device (k : Fin 16) : (stepIndex k s).device = s.device := by
  simp only [stepIndex]; split <;> simp
@[simp] theorem stepIndex_hp (k : Fin 16) : (stepIndex k s).hp = s.hp := by
  simp only [stepIndex]; split <;> simp
@[simp] theorem dropRecord_device (k : Fin 16) : (dropRecord k s).device = s.device := by simp [dropRecord]
@[simp] theorem dropRecord_hp (k : Fin 16) : (dropRecord k s).hp = s.hp := by simp [dropRecord]
@[simp] theorem handBack_device (k : Fin 16) (b : Buf) (n : Nat) : (handBack k b n s).device = s.device := by
  simp [handBack]
@[simp] theorem handBack_hp (k : Fin 16) (b : Buf) (n : Nat) : (handBack k b n s).hp = s.hp := by simp [handBack]
end

@[simp] theorem offerFrom_device (k : Fin 16) (bytes : List Byte) (bufs : List Buf) (s : State) :
    (offerFrom k bytes bufs s).1.device = s.device := by
  induction bufs generalizing s with
  | nil => simp [offerFrom]
  | cons b rest ih =>
    simp only [offerFrom]; split
    · simp [ih]
    · split
      · simp
      · simp [ih]
@[simp] theorem offerFrom_hp (k : Fin 16) (bytes : List Byte) (bufs : List Buf) (s : State) :
    (offerFrom k bytes bufs s).1.hp = s.hp := by
  induction bufs generalizing s with
  | nil => simp [offerFrom]
  | cons b rest ih =>
    simp only [offerFrom]; split
    · simp [ih]
    · split
      · simp
      · simp [ih]
@[simp] theorem offer_device (k : Fin 16) (bytes : List Byte) (s : State) : (offer k bytes s).1.device = s.device := by
  simp only [offer]; split <;> simp
@[simp] theorem offer_hp (k : Fin 16) (bytes : List Byte) (s : State) : (offer k bytes s).1.hp = s.hp := by
  simp only [offer]; split <;> simp

section
variable (s : State)
@[simp] theorem hpErr_device (cause : Nat) (bar2 : Bool) (off : Nat) (v : Word) :
    (hpErr cause bar2 off v s).device = s.device := by
  simp only [hpErr]
  split
  · rfl
  · split <;> split <;> first | rfl | (rw [offer_device]; rfl)

/-! ### Admission and completion -/

@[simp] theorem writeCompletion_device (c : InFlight) (st : Status) (d : Nat) (resp : List Byte) :
    (writeCompletion c st d resp s).device = s.device := by
  simp only [writeCompletion, stepIndex_device]; rfl

/-- A completion changes nothing of the device. -/
@[simp] theorem complete_device (seq : Nat) (st : Status) (d : Nat) (resp : List Byte) :
    (complete seq st d resp s).device = s.device := by
  unfold complete
  split
  · rfl
  · exact ite_proj State.device rfl (ite_proj State.device (writeCompletion_device ..) (writeCompletion_device ..))

@[simp] theorem completeJob_device (job : Option Nat) (st : Status) (d : Nat) :
    (completeJob job st d s).device = s.device := by
  cases job <;> simp [completeJob]

@[simp] theorem holdBack_device (op : BitVec 16) (c : Cmd) : (holdBack op c s).device = s.device := by
  unfold holdBack; split <;> simp
@[simp] theorem holdBack_hp (op : BitVec 16) (c : Cmd) : (holdBack op c s).hp = s.hp := by unfold holdBack; split <;> simp

/-- Admission changes the host port's side only: the command is in progress and the consumer index has stepped. -/
@[simp] theorem admitCmd_device (op : BitVec 16) (long : Bool) (c : Cmd) : (admitCmd op long c s).device = s.device := by
  simp only [admitCmd, stepIndex_device]; rfl

theorem admitCmd_admitted (op : BitVec 16) (long : Bool) (c : Cmd) : Admitted c s (admitCmd op long c s) := by
  refine ⟨by simp [admitCmd], _, by simp only [admitCmd, stepIndex_hp]; rfl, ?_⟩
  simp

@[simp] theorem admitCmd_now (op : BitVec 16) (long : Bool) (c : Cmd) : (admitCmd op long c s).now = s.now := by
  simp only [admitCmd, stepIndex]; split <;> simp
@[simp] theorem admitCmd_free (op : BitVec 16) (long : Bool) (c : Cmd) : (admitCmd op long c s).free = s.free := by
  simp only [admitCmd, stepIndex]; split <;> rfl
@[simp] theorem admitCmd_raised (op : BitVec 16) (long : Bool) (c : Cmd) : (admitCmd op long c s).rcd = s.rcd := by
  simp only [admitCmd, stepIndex]; split <;> rfl
end

/-! ### Time, free counter and recorder through the host port's operations -/

section
variable (s : State)
@[simp] theorem orbFault_now (k : Fin 16) (w : Word) : (orbFault k w s).now = s.now := by
  simp only [orbFault]; split <;> rfl
@[simp] theorem stepIndex_now (k : Fin 16) : (stepIndex k s).now = s.now := by
  simp only [stepIndex]; split <;> simp
@[simp] theorem dropRecord_now (k : Fin 16) : (dropRecord k s).now = s.now := by simp [dropRecord]
@[simp] theorem handBack_now (k : Fin 16) (b : Buf) (n : Nat) : (handBack k b n s).now = s.now := by simp [handBack]
@[simp] theorem offerFrom_now (k : Fin 16) (bytes : List Byte) (bufs : List Buf) :
    (offerFrom k bytes bufs s).1.now = s.now := by
  induction bufs generalizing s with
  | nil => simp [offerFrom]
  | cons b rest ih =>
    simp only [offerFrom]; split
    · simp [ih]
    · split
      · simp
      · simp [ih]
@[simp] theorem offer_now (k : Fin 16) (bytes : List Byte) : (offer k bytes s).1.now = s.now := by
  simp only [offer]; split <;> simp
@[simp] theorem hpErr_now (cause : Nat) (bar2 : Bool) (off : Nat) (v : Word) :
    (hpErr cause bar2 off v s).now = s.now := by
  simp only [hpErr]
  split
  · rfl
  · split <;> split <;> first | rfl | exact (offer_now ..).trans rfl
@[simp] theorem writeCompletion_now (c : InFlight) (st : Status) (d : Nat) (resp : List Byte) :
    (writeCompletion c st d resp s).now = s.now := by
  simp [writeCompletion]
@[simp] theorem complete_now (seq : Nat) (st : Status) (d : Nat) (resp : List Byte) :
    (complete seq st d resp s).now = s.now := by
  unfold complete
  split
  · rfl
  · exact ite_proj State.now rfl (ite_proj State.now (writeCompletion_now ..) (writeCompletion_now ..))
@[simp] theorem completeJob_now (job : Option Nat) (st : Status) (d : Nat) :
    (completeJob job st d s).now = s.now := by
  cases job <;> simp [completeJob]
@[simp] theorem holdBack_now (op : BitVec 16) (c : Cmd) : (holdBack op c s).now = s.now := by unfold holdBack; split <;> simp
end

section
variable (s : State)
@[simp] theorem raise_free (n : Nat) : (raise n s).free = s.free := (rfl)
@[simp] theorem trig_free (cls source : Nat) (detail : Word) : (trig cls source detail s).free = s.free := by
  unfold trig; split <;> rfl
@[simp] theorem countEvents_free (h : HeadId) (n : Nat) : (countEvents h n s).free = s.free := by
  simp only [countEvents]; split <;> rfl
@[simp] theorem flagHead_free (r : HeadReg) (h : HeadId) (w : Word) : (flagHead r h w s).free = s.free := by
  simp only [flagHead]; split <;> simp
@[simp] theorem announce_free (src cls : Nat) (old new : Word) : (announce src cls old new s).free = s.free := by
  unfold announce; split <;> simp
@[simp] theorem dma_free (a : BitVec 64) (l : List Byte) : (dma a l s).free = s.free := (rfl)
@[simp] theorem orbFault_free (k : Fin 16) (w : Word) : (orbFault k w s).free = s.free := by
  simp only [orbFault]; split <;> rfl
@[simp] theorem stepIndex_free (k : Fin 16) : (stepIndex k s).free = s.free := by
  simp only [stepIndex]; split <;> simp
@[simp] theorem dropRecord_free (k : Fin 16) : (dropRecord k s).free = s.free := by simp [dropRecord]
@[simp] theorem handBack_free (k : Fin 16) (b : Buf) (n : Nat) : (handBack k b n s).free = s.free := by simp [handBack]
@[simp] theorem offerFrom_free (k : Fin 16) (bytes : List Byte) (bufs : List Buf) :
    (offerFrom k bytes bufs s).1.free = s.free := by
  induction bufs generalizing s with
  | nil => simp [offerFrom]
  | cons b rest ih =>
    simp only [offerFrom]; split
    · simp [ih]
    · split
      · simp
      · simp [ih]
@[simp] theorem offer_free (k : Fin 16) (bytes : List Byte) : (offer k bytes s).1.free = s.free := by
  simp only [offer]; split <;> simp
@[simp] theorem hpErr_free (cause : Nat) (bar2 : Bool) (off : Nat) (v : Word) :
    (hpErr cause bar2 off v s).free = s.free := by
  simp only [hpErr]
  split
  · rfl
  · split <;> split <;> first | rfl | exact (offer_free ..).trans rfl
@[simp] theorem writeCompletion_free (c : InFlight) (st : Status) (d : Nat) (resp : List Byte) :
    (writeCompletion c st d resp s).free = s.free := by
  simp [writeCompletion]
@[simp] theorem complete_free (seq : Nat) (st : Status) (d : Nat) (resp : List Byte) :
    (complete seq st d resp s).free = s.free := by
  unfold complete
  split
  · rfl
  · exact ite_proj State.free rfl (ite_proj State.free (writeCompletion_free ..) (writeCompletion_free ..))
@[simp] theorem completeJob_free (job : Option Nat) (st : Status) (d : Nat) :
    (completeJob job st d s).free = s.free := by
  cases job <;> simp [completeJob]
@[simp] theorem holdBack_free (op : BitVec 16) (c : Cmd) : (holdBack op c s).free = s.free := by unfold holdBack; split <;> simp
end

section
variable (s : State)
@[simp] theorem dma_rcd (a : BitVec 64) (l : List Byte) : (dma a l s).rcd = s.rcd := (rfl)
@[simp] theorem orbFault_rcd (k : Fin 16) (w : Word) : (orbFault k w s).rcd = s.rcd := by
  simp only [orbFault]; split <;> rfl
@[simp] theorem stepIndex_rcd (k : Fin 16) : (stepIndex k s).rcd = s.rcd := by
  simp only [stepIndex]; split <;> simp
@[simp] theorem dropRecord_rcd (k : Fin 16) : (dropRecord k s).rcd = s.rcd := by simp [dropRecord]
@[simp] theorem handBack_rcd (k : Fin 16) (b : Buf) (n : Nat) : (handBack k b n s).rcd = s.rcd := by simp [handBack]
@[simp] theorem offerFrom_rcd (k : Fin 16) (bytes : List Byte) (bufs : List Buf) :
    (offerFrom k bytes bufs s).1.rcd = s.rcd := by
  induction bufs generalizing s with
  | nil => simp [offerFrom]
  | cons b rest ih =>
    simp only [offerFrom]; split
    · simp [ih]
    · split
      · simp
      · simp [ih]
@[simp] theorem offer_rcd (k : Fin 16) (bytes : List Byte) : (offer k bytes s).1.rcd = s.rcd := by
  simp only [offer]; split <;> simp
@[simp] theorem hpErr_rcd (cause : Nat) (bar2 : Bool) (off : Nat) (v : Word) :
    (hpErr cause bar2 off v s).rcd = s.rcd := by
  simp only [hpErr]
  split
  · rfl
  · split <;> split <;> first | rfl | exact (offer_rcd ..).trans rfl
@[simp] theorem writeCompletion_rcd (c : InFlight) (st : Status) (d : Nat) (resp : List Byte) :
    (writeCompletion c st d resp s).rcd = s.rcd := by
  simp [writeCompletion]
@[simp] theorem complete_rcd (seq : Nat) (st : Status) (d : Nat) (resp : List Byte) :
    (complete seq st d resp s).rcd = s.rcd := by
  unfold complete
  split
  · rfl
  · exact ite_proj State.rcd rfl (ite_proj State.rcd (writeCompletion_rcd ..) (writeCompletion_rcd ..))
@[simp] theorem completeJob_rcd (job : Option Nat) (st : Status) (d : Nat) :
    (completeJob job st d s).rcd = s.rcd := by
  cases job <;> simp [completeJob]
@[simp] theorem holdBack_rcd (op : BitVec 16) (c : Cmd) : (holdBack op c s).rcd = s.rcd := by unfold holdBack; split <;> simp
end

/-- What `Admitted` says rests on the host port alone. -/
theorem Admitted.congr {c : Cmd} {s u v : State} (h : Admitted c s u) (e : v.hp = u.hp) : Admitted c s v := by
  obtain ⟨h1, x, h2, h3⟩ := h
  exact ⟨by rw [e]; exact h1, x, by rw [e]; exact h2, h3⟩

/-- A command that is accepted runs its body on the state in which it is admitted (R270 to R272). -/
theorem command_accepted {op : BitVec 16} {long : Bool} {need rneed : Nat} {c : Cmd} {body : Nat → State → State}
    {s : State} (h : Accepted op long need rneed c s) :
    command op long need rneed c body s = body s.hp.admSeq (admitCmd op long c s) := by
  obtain ⟨h1, h2, h3, h4, h5⟩ := h
  have e2 : ¬ c.plen.toNat < need := by omega
  have e3 : ¬ 64 ≤ s.hp.inflight.length := by omega
  have e5 : ¬ c.rlen.toNat < rneed := by omega
  have e4 : ¬ (long = true ∧ 8 ≤ (s.hp.inflight.filter (·.long)).length) := fun ⟨a, b⟩ => by
    have := h4 a; omega
  simp [command, h1, e2, e3, e4, e5]

/-- A state in which a descriptor has just been admitted: the time, the list of commands in progress, and the orbits,
messages and writes of the step of the consumer index. -/
def State.admitted (s : State) (t : Nat) (e : InFlight) (ob : Vector Orbit 16) (ir : Irq) (ou : List Out) : State :=
  { s with now := max s.now t, orbits := ob, irq := ir, out := ou,
           hp := { s.hp with
             admSeq := s.hp.admSeq + 1, served := e.orbit.val + 1, inflight := s.hp.inflight ++ [e] } }

/-- The state in which the body of an accepted command runs. -/
theorem accepted_body {long : Bool} {need rneed : Nat} {c : Cmd} {s : State} {t : Nat} (op : BitVec 16)
    (h : Accepted op long need rneed c (s.advance t)) :
    ∃ e ob ir ou, Admitted c s (s.admitted t e ob ir ou) ∧
      ∀ body : Nat → State → State,
        command op long need rneed c body (s.advance t) = body s.hp.admSeq (s.admitted t e ob ir ou) := by
  let e : InFlight :=
    { opcode := op, tag := c.tag, orbit := c.orbit, cmdIdx := (s.orbit (cmdOrbit c.orbit)).devIdx, rlen := c.rlen.toNat,
      raddr := c.raddr, epochAdm := s.epc.seq, admSeq := s.hp.admSeq, long := long, lost := false }
  refine ⟨e, (admitCmd op long c (s.advance t)).orbits, (admitCmd op long c (s.advance t)).irq,
    (admitCmd op long c (s.advance t)).out, ⟨rfl, e, rfl, rfl, rfl, rfl, rfl, rfl, rfl, rfl, rfl⟩, fun body => ?_⟩
  rw [command_accepted h]
  refine congrArg (body s.hp.admSeq) ?_
  simp only [admitCmd, stepIndex, dma, State.admitted]
  split <;> rfl

/-- An accepted command answers what its body completes with. -/
theorem answers_of {op : BitVec 16} {long : Bool} {need rneed t : Nat} {c : Cmd} {s d : State}
    {body : Nat → State → State} {o : Host.Outcome State Fault Refusal} {st : Status} {k : Nat} {resp : List Byte}
    (h : Accepted op long need rneed c (s.advance t))
    (ho : o = .next (command op long need rneed c body (s.advance t)))
    (hv : ∀ e ob ir ou, ∃ v, body s.hp.admSeq (s.admitted t e ob ir ou) = complete s.hp.admSeq st k resp v ∧
      v.hp = (s.admitted t e ob ir ou).hp ∧ v.device = d.device) : Answers o c s st k resp d := by
  obtain ⟨e, ob, ir, ou, ad, hb⟩ := accepted_body op h
  obtain ⟨v, h1, h2, h3⟩ := hv e ob ir ou
  exact ⟨v, by rw [ho, hb, h1], ad.congr h2, h3⟩

/-- An accepted command whose body leaves it in progress waits. -/
theorem waits_of {op : BitVec 16} {long : Bool} {need rneed t : Nat} {c : Cmd} {s d : State}
    {body : Nat → State → State} {o : Host.Outcome State Fault Refusal}
    (h : Accepted op long need rneed c (s.advance t))
    (ho : o = .next (command op long need rneed c body (s.advance t)))
    (hv : ∀ e ob ir ou, (body s.hp.admSeq (s.admitted t e ob ir ou)).hp = (s.admitted t e ob ir ou).hp ∧
      (body s.hp.admSeq (s.admitted t e ob ir ou)).device = d.device) : Waits o c s d := by
  obtain ⟨e, ob, ir, ou, ad, hb⟩ := accepted_body op h
  obtain ⟨h2, h3⟩ := hv e ob ir ou
  exact ⟨_, by rw [ho, hb], ad.congr h2, h3⟩

/-- A descriptor that may not be admitted waits (R270). -/
theorem command_waits {op : BitVec 16} {long : Bool} {need rneed : Nat} {c : Cmd} {body : Nat → State → State}
    {s : State} (h : admissible op c s = false) : command op long need rneed c body s = holdBack op c s := by
  simp [command, h]

/-- Everything a command row can do: hold its descriptor back, refuse it at the host port, or run its body (R270 to
R272). -/
theorem command_cases (op : BitVec 16) (long : Bool) (need rneed : Nat) (c : Cmd) (body : Nat → State → State)
    (s : State) :
    command op long need rneed c body s = holdBack op c s ∨
    (∃ st d, command op long need rneed c body s = complete s.hp.admSeq st d [] (admitCmd op long c s)) ∨
    command op long need rneed c body s = body s.hp.admSeq (admitCmd op long c s) := by
  simp only [command]
  split
  · exact .inl rfl
  · split
    · exact .inr (.inl ⟨_, _, rfl⟩)
    · split
      · exact .inr (.inl ⟨_, _, rfl⟩)
      · split
        · exact .inr (.inl ⟨_, _, rfl⟩)
        · split
          · exact .inr (.inl ⟨_, _, rfl⟩)
          · exact .inr (.inr rfl)

/-- A body that keeps the device leaves the command row keeping it. -/
theorem command_device {op : BitVec 16} {long : Bool} {need rneed : Nat} {c : Cmd} {body : Nat → State → State}
    {s : State} (h : (body s.hp.admSeq (admitCmd op long c s)).device = s.device) :
    (command op long need rneed c body s).device = s.device := by
  rcases command_cases op long need rneed c body s with e | ⟨st, d, e⟩ | e
  · rw [e]; simp
  · rw [e]; simp
  · rw [e]; exact h

/-! ### The partner's set -/

/-- The ephemeris of a section in the partner's set: the part that should hold it is there, it parses, and it names the set's
epoch and the section (R243). -/
theorem rxEph_of {s : State} {n : SecId} {r : RxSet} {k : Nat} {m : List Byte} {e : Eph} (h : s.zl.rx = some r)
    (f : r.eph.find? (fun p => p.1 == n.val / 16) = some (k, m)) (p : Eph.parse (slice m (64 * (n.val % 16)) 64) = some e)
    (a : e.epoch = r.epoch ∧ e.section_ = n.val) : rxEph s n = some e := by
  rw [rxEph, h, Option.bind_some, f, Option.bind_some, p, Option.filter_some, decide_eq_true a, if_pos rfl]

end Sys2Proof.Machine
end

