-- ==== Sys2Proof/Laws/Commands.lean ====
section
/-! SUPPORT. The one shape of every host command; the gates that time passes through; the flags and trip lines of a head;
activity, latches and notices, which act on sections alone. -/
namespace Sys2Proof.Machine

/-! ### Host commands -/

/-- Every row with a descriptor goes through the shared admission, with the shape that `commandShape` tells. -/
theorem exec_of_commandShape {i : Instr} (s : State) {op : BitVec 16} {long : Bool} {need rneed : Nat} {c : Cmd}
    (h : commandShape i = some (op, long, need, rneed, c)) :
    ∃ body, exec i s = .next (command op long need rneed c body (s.advance (timeOf i))) := by
  cases i <;> simp only [commandShape, reduceCtorEq, Option.some.injEq, Prod.mk.injEq] at h <;>
    (obtain ⟨rfl, rfl, rfl, rfl, rfl⟩ := h; exact ⟨_, rfl⟩)

/-- An accepted command runs its body on the state that has just admitted it. -/
theorem command_runs {long : Bool} {need rneed t : Nat} {c : Cmd} {s : State} (op : BitVec 16)
    (body : Nat → State → State) (A : Accepted op long need rneed c (s.advance t)) :
    ∃ e ob ir ou, Admitted c s (s.admitted t e ob ir ou) ∧
      command op long need rneed c body (s.advance t) = body s.hp.admSeq (s.admitted t e ob ir ou) := by
  obtain ⟨e, ob, ir, ou, ad, hb⟩ := accepted_body op A
  exact ⟨e, ob, ir, ou, ad, hb body⟩

/-! ### Gates -/

theorem whenAwake_advance {f : State → State} {s : State} {t : Nat} (h : awake s = true) :
    whenAwake f (s.advance t) = f (s.advance t) := whenAwake_open f h

theorem whenRunning_advance {f : State → State} {s : State} {t : Nat} (h : s.phase = .running) :
    whenRunning f (s.advance t) = f (s.advance t) := whenRunning_open f h

theorem whenHost_advance {f : State → State} {s : State} {t : Nat} (h : hostOk s = true) :
    whenHost f (s.advance t) = f (s.advance t) := whenHost_open f h

/-! ### Flags of a head -/

@[simp] theorem bit_or (a b : Word) (n : Nat) : bit (a ||| b) n = (bit a n || bit b n) := by simp [bit]

@[simp] theorem flagFe_head (h : HeadId) (n : Nat) (s : State) : (flagFe h n s).head h =
    Head.spoil .fe (bits n 1) s.now
      { s.head h with fe := { (s.head h).fe with fault := (s.head h).fe.fault ||| bits n 1 } } := by
  refine (flagHead_head _ _ _ _).trans ?_
  unfold Head.spoil; split <;> rfl
@[simp] theorem flagXs_head (h : HeadId) (n : Nat) (s : State) : (flagXs h n s).head h =
    Head.spoil .xs (bits n 1) s.now
      { s.head h with xs := { (s.head h).xs with fault := (s.head h).xs.fault ||| bits n 1 } } := by
  refine (flagHead_head _ _ _ _).trans ?_
  unfold Head.spoil; split <;> rfl
@[simp] theorem flagFlt_head (h : HeadId) (n : Nat) (s : State) : (flagFlt h n s).head h =
    { s.head h with flt := { (s.head h).flt with fault := (s.head h).flt.fault ||| bits n 1 } } :=
  (flagHead_head _ _ _ _).trans (by simp [setHeadFault, headFault])
@[simp] theorem flagCmp_head (h : HeadId) (n : Nat) (s : State) : (flagCmp h n s).head h =
    { s.head h with cmp := { (s.head h).cmp with fault := (s.head h).cmp.fault ||| bits n 1 } } :=
  (flagHead_head _ _ _ _).trans (by simp [setHeadFault, headFault])
@[simp] theorem flagTrn_head (h : HeadId) (n : Nat) (s : State) : (flagTrn h n s).head h =
    { s.head h with trn := { (s.head h).trn with fault := (s.head h).trn.fault ||| bits n 1 } } :=
  (flagHead_head _ _ _ _).trans (by simp [setHeadFault, headFault])

/-! ### What acts on sections alone -/

/-- What each turn of a loop keeps, the loop keeps. -/
theorem foldOver_keeps {α β : Type} {l : List α} {f : α → State → State} {g : State → β}
    (h : ∀ a s, g (f a s) = g s) (s : State) : g (foldOver l f s) = g s := by
  induction l generalizing s with
  | nil => rfl
  | cons a l ih => exact (ih (f a s)).trans (h a s)

@[simp] theorem activity_heads (h : HeadId) (s : State) : (activity h s).heads = s.heads := by
  unfold activity
  refine foldOver_keeps (g := State.heads) (fun _ _ => ?_) s
  rfl
@[simp] theorem activity_chassis (h : HeadId) (s : State) : (activity h s).chassis = s.chassis := by
  unfold activity
  refine foldOver_keeps (g := State.chassis) (fun _ _ => ?_) s
  rfl
@[simp] theorem setLatches_heads (h : HeadId) (s : State) : (setLatches h s).heads = s.heads := by
  unfold setLatches
  refine foldOver_keeps (g := State.heads) (fun _ _ => ?_) s
  rfl
@[simp] theorem setLatches_chassis (h : HeadId) (s : State) : (setLatches h s).chassis = s.chassis := by
  unfold setLatches
  refine foldOver_keeps (g := State.chassis) (fun _ _ => ?_) s
  rfl

/-- A section's trip latch is set (R132). -/
theorem trip_latch (now : Nat) (x : Section) : (Section.trip now x).latch = true := by
  unfold Section.trip; split <;> simp_all

/-- Setting latches changes the latch of a section, with the log of its changes, and only sets it. -/
theorem setLatches_latch (h : HeadId) (n : SecId) (s : State) : ∃ b l,
    (setLatches h s).sec n = { s.sec n with latch := b, latchLog := l } ∧ ((s.sec n).latch = true → b = true) := by
  unfold setLatches
  generalize boundSecs s h = l
  induction l generalizing s with
  | nil => exact ⟨(s.sec n).latch, (s.sec n).latchLog, rfl, id⟩
  | cons k l ih =>
    obtain ⟨b, lg, e, m⟩ := ih (s.modSec k (Section.trip s.now))
    refine ⟨b, lg, ?_⟩
    by_cases hk : n = k
    · subst hk
      rw [modSec_sec, if_pos rfl] at e m
      refine ⟨e.trans ?_, fun _ => m (trip_latch _ _)⟩
      unfold Section.trip; split <;> rfl
    · rw [modSec_sec, if_neg hk] at e m
      exact ⟨e, m⟩

end Sys2Proof.Machine
end

