-- ==== Sys2Proof/Laws/Memory.lean ====
section
/-! SUPPORT. What the operations on the recorder's memory do: reading after writing, and that each of them keeps the
canonical form. -/
namespace Sys2Proof.Machine

/-! ### The canonical form -/

theorem memSorted_weaken {lo lo' : Nat} {m : Memory} (le : lo' ≤ lo) (h : memSorted lo m = true) : memSorted lo' m = true := by
  cases m with
  | nil => rfl
  | cons c m =>
    simp only [memSorted, Bool.and_eq_true, decide_eq_true_eq] at h ⊢
    exact ⟨⟨by omega, h.1.2⟩, h.2⟩

/-- Below its lowest address a sorted memory reads 0. -/
theorem memGet_below {lo a : Nat} {m : Memory} (h : memSorted lo m = true) (lt : a < lo) : memGet m a = 0 := by
  induction m generalizing lo with
  | nil => rfl
  | cons c m ih =>
    simp only [memSorted, Bool.and_eq_true, decide_eq_true_eq] at h
    rw [memGet, if_neg (by omega)]
    exact ih h.2 (by omega)

theorem memSet_sorted {lo a : Nat} {b : Byte} {m : Memory} (h : memSorted lo m = true) (le : lo ≤ a) :
    memSorted lo (memSet m a b) = true := by
  induction m generalizing lo with
  | nil =>
    unfold memSet
    split
    · rfl
    · simp_all [memSorted]
  | cons c m ih =>
    have k := h
    simp only [memSorted, Bool.and_eq_true, decide_eq_true_eq] at k
    unfold memSet
    split
    · simp only [memSorted, Bool.and_eq_true, decide_eq_true_eq]
      exact ⟨k.1, ih k.2 (by omega)⟩
    · split
      · split
        · exact memSorted_weaken (by omega) k.2
        · simp_all [memSorted]
      · split
        · exact h
        · simp only [memSorted, Bool.and_eq_true, decide_eq_true_eq]
          exact ⟨⟨le, by simp_all⟩, ⟨by omega, k.1.2⟩, k.2⟩

theorem memWrite_sorted {lo a : Nat} {bs : List Byte} {m : Memory} (h : memSorted lo m = true) (le : lo ≤ a) :
    memSorted lo (memWrite m a bs) = true := by
  induction bs generalizing m a with
  | nil => exact h
  | cons b bs ih => exact ih (memSet_sorted h le) (by omega)

/-- Setting a byte keeps the canonical form. -/
theorem memSet_wf {a : Nat} {b : Byte} {m : Memory} (h : Memory.wf m = true) : Memory.wf (memSet m a b) = true :=
  memSet_sorted h (Nat.zero_le _)

/-- Writing bytes keeps the canonical form. -/
theorem memWrite_wf {a : Nat} {bs : List Byte} {m : Memory} (h : Memory.wf m = true) : Memory.wf (memWrite m a bs) = true :=
  memWrite_sorted h (Nat.zero_le _)

/-- The memory at reset has the canonical form. -/
theorem reset_memory_wf : Memory.wf State.reset.rcd.mem = true := rfl

/-! ### Reading after writing -/

theorem memGet_memSet_sorted {lo a : Nat} {b : Byte} {m : Memory} (h : memSorted lo m = true) (x : Nat) :
    memGet (memSet m a b) x = if x = a then b else memGet m x := by
  induction m generalizing lo with
  | nil =>
    unfold memSet
    split <;> rename_i hb
    · subst hb; simp [memGet]
    · simp only [memGet, eq_comm]
  | cons c m ih =>
    simp only [memSorted, Bool.and_eq_true, decide_eq_true_eq] at h
    unfold memSet
    split <;> rename_i hlt
    · rw [memGet, ih h.2]
      by_cases e : c.1 = x
      · rw [if_pos e, if_neg (by omega), memGet, if_pos e]
      · rw [if_neg e, memGet, if_neg e]
    · split <;> rename_i heq
      · split <;> rename_i hb
        · subst hb
          by_cases e : x = a
          · rw [if_pos e, memGet_below h.2 (by omega)]
          · rw [if_neg e, memGet, if_neg (by omega)]
        · rw [memGet]
          by_cases e : x = a
          · rw [if_pos e, if_pos e.symm]
          · rw [if_neg e, if_neg (Ne.symm e), memGet, if_neg (by omega)]
      · split <;> rename_i hb
        · subst hb
          by_cases e : x = a
          · rw [if_pos e, memGet, if_neg (by omega), memGet_below h.2 (by omega)]
          · rw [if_neg e]
        · rw [memGet]
          by_cases e : x = a
          · rw [if_pos e, if_pos e.symm]
          · rw [if_neg e, if_neg (Ne.symm e)]

/-- A byte that was set reads as it was set; every other address reads as before. -/
theorem memGet_memSet {a : Nat} {b : Byte} {m : Memory} (h : Memory.wf m = true) (x : Nat) :
    memGet (memSet m a b) x = if x = a then b else memGet m x := memGet_memSet_sorted h x

/-- An address outside the bytes written reads as before. -/
theorem memGet_memWrite_of_outside {a : Nat} {bs : List Byte} {m : Memory} (h : Memory.wf m = true) {x : Nat}
    (out : x < a ∨ a + bs.length ≤ x) : memGet (memWrite m a bs) x = memGet m x := by
  induction bs generalizing m a with
  | nil => rfl
  | cons b bs ih =>
    simp only [List.length_cons] at out
    rw [memWrite, ih (memSet_wf h) (by omega), memGet_memSet h, if_neg (by omega)]

/-- A byte written reads as it was written. -/
theorem memGet_memWrite_of_inside {a : Nat} {bs : List Byte} {m : Memory} (h : Memory.wf m = true) {i : Nat}
    (lt : i < bs.length) : memGet (memWrite m a bs) (a + i) = bs[i] := by
  induction bs generalizing m a i with
  | nil => simp at lt
  | cons b bs ih =>
    cases i with
    | zero =>
      rw [memWrite, memGet_memWrite_of_outside (memSet_wf h) (by omega), memGet_memSet h, if_pos (Nat.add_zero a)]
      rfl
    | succ i =>
      have e : a + (i + 1) = a + 1 + i := by omega
      simp only [List.length_cons] at lt
      rw [memWrite, e, ih (memSet_wf h) (by omega)]
      rfl

theorem memRead_length (m : Memory) (a n : Nat) : (memRead m a n).length = n := by
  induction n generalizing a with
  | zero => rfl
  | succ n ih => rw [memRead, List.length_cons, ih]

/-- What is read back after a write is what was written. -/
theorem memRead_memWrite {a : Nat} {bs : List Byte} {m : Memory} (h : Memory.wf m = true) :
    memRead (memWrite m a bs) a bs.length = bs := by
  induction bs generalizing m a with
  | nil => rfl
  | cons b bs ih =>
    rw [List.length_cons, memRead, memWrite, ih (memSet_wf h),
      memGet_memWrite_of_outside (memSet_wf h) (by omega), memGet_memSet h, if_pos rfl]

/-- Where two memories agree, so do reads. -/
theorem memRead_congr {m m' : Memory} {a n : Nat} (h : ∀ x, a ≤ x → x < a + n → memGet m x = memGet m' x) :
    memRead m a n = memRead m' a n := by
  induction n generalizing a with
  | zero => rfl
  | succ n ih =>
    rw [memRead, memRead, h a (by omega) (by omega), ih fun x lo hi => h x (by omega) (by omega)]

/-! ### The recorder's writes keep the canonical form -/

theorem tearWrite_wf {s : State} (h : Memory.wf s.rcd.mem = true) : Memory.wf (tearWrite s).rcd.mem = true := by
  unfold tearWrite
  cases s.rcd.lastWrite with
  | none => exact h
  | some t =>
    simp only [State.modRec, apply_ite State.rcd, apply_ite Rec.mem, apply_ite Memory.wf, memWrite_wf h, h, ite_self]

theorem writeBack_wf {s : State} (h : Memory.wf s.rcd.mem = true) : Memory.wf (writeBack s).rcd.mem = true := by
  unfold writeBack
  split
  · exact memWrite_wf h
  · exact h

theorem closeOpen_wf {s : State} (h : Memory.wf s.rcd.mem = true) : Memory.wf (closeOpen s).rcd.mem = true :=
  writeBack_wf (s := s) h

theorem flagRec_mem (n : Nat) (s : State) : (flagRec n s).rcd.mem = s.rcd.mem := by
  simp only [flagRec, apply_ite State.rcd, raise, ite_self]

theorem writeHeader_mem (s : State) : (writeHeader s).rcd.mem = s.rcd.mem := (rfl)

theorem stepRing_mem (e : RecEntry) (s : State) : (stepRing e s).rcd.mem = s.rcd.mem := by
  simp only [stepRing, apply_ite State.rcd, apply_ite Rec.mem, flagRec_mem, writeHeader_mem, ite_self]

theorem flagVsp_mem (w : Word) (s : State) : (flagVsp w s).rcd.mem = s.rcd.mem :=
  (mem_of_device (flagVsp_device s w)).trans rfl

theorem endRead_mem (l : Lane) (s : State) : (endRead l s).rcd.mem = s.rcd.mem := by
  unfold endRead
  split
  · split
    · exact flagVsp_mem _ _
    · rfl
  · rfl

theorem cutRead_mem (l : Lane) (s : State) : (cutRead l s).rcd.mem = s.rcd.mem := by
  simp only [cutRead]
  split <;> exact endRead_mem l s

/-- A request for eclipse, which cuts the reads of the lanes off, leaves the memory alone. -/
theorem requestEclipse_mem (cause cls : Nat) (s : State) : (requestEclipse cause cls s).rcd.mem = s.rcd.mem := by
  unfold requestEclipse
  split
  · rfl
  · split <;> rfl
  · simp only [enterEclipse, cutReads, cutRead_mem]

theorem afterWrite_mem (e : RecEntry) (b : List Byte) (s : State) : (afterWrite e b s).rcd.mem = s.rcd.mem := by
  have h : ∀ s : State, (offer 12 b s).1.rcd.mem = s.rcd.mem := fun s => mem_of_device (offer_device ..)
  have k : ∀ s : State, (completeJob e.job e.status e.result s).rcd.mem = s.rcd.mem := fun s =>
    mem_of_device (completeJob_device ..)
  simp only [afterWrite, apply_ite State.rcd, apply_ite Rec.mem, requestEclipse_mem, flagRec_mem, h, k, ite_self]

theorem writeEntry_mem (e : RecEntry) (s : State) : (writeEntry e s).rcd.mem =
    memWrite (closeOpen s).rcd.mem (slotAddr (closeOpen s).aon.next)
      (entryBytes e (closeOpen s).aon.next (closeOpen s).rcd.lost (writtenDetail (closeOpen s) e)) := by
  simp only [writeEntry, afterWrite_mem, stepRing_mem, State.modRec]

theorem writeEntry_wf {e : RecEntry} {s : State} (h : Memory.wf s.rcd.mem = true) :
    Memory.wf (writeEntry e s).rcd.mem = true := by
  rw [writeEntry_mem]
  exact memWrite_wf (closeOpen_wf h)

theorem recWrite_wf {s : State} (h : Memory.wf s.rcd.mem = true) : Memory.wf (recWrite s).rcd.mem = true := by
  unfold recWrite
  split
  · exact h
  · split
    · exact writeEntry_wf h
    · exact h

theorem recWriteBack_wf {s : State} (h : Memory.wf s.rcd.mem = true) : Memory.wf (recWriteBack s).rcd.mem = true := by
  unfold recWriteBack
  split
  · split
    · exact closeOpen_wf h
    · split
      · exact writeBack_wf h
      · exact h
  · exact h

end Sys2Proof.Machine
end

