-- ==== Sys2Proof/WellFormed.lean ====
section
/-! DEFINITION. Which commands are well formed: what the operands must satisfy beyond their types for the command to be
one that the outside of the block can bring about. The meanings are total and do not ask for it. -/
namespace Sys2Proof

/-- The payload carried with a command is what the device reads at PADDR: PLEN bytes (R269). -/
def Cmd.wf (c : Cmd) : Bool := decide (c.payload.length = c.plen.toNat)

/-- Each element of a list once. -/
def noRepeat {α : Type} [BEq α] : List α → Bool
  | [] => true
  | a :: as => !as.contains a && noRepeat as

/-- Byte enables name at least one byte. -/
def beOk (be : BitVec 4) : Bool := be != 0

/-- Ranges of a driver's measurement and of a die's report (R84, R85). -/
def DriveSample.wf (d : DriveSample) : Bool := decide (d.ipk < 2 ^ 10 ∧ d.vdrv < 2 ^ 11 ∧ d.vsns < 2 ^ 11)
def DieSample.wf (d : DieSample) : Bool := decide (-512 ≤ d.tj ∧ d.tj < 512 ∧ d.pdrv < 2 ^ 16)

/-- One leakage sample a head, one listening, one driver and one track sample a slice, one report a die. -/
def BoundaryInput.wf (i : BoundaryInput) : Bool :=
  noRepeat (i.leaks.map (·.head)) && noRepeat (i.listens.map (fun l => (l.head, l.sys))) &&
    noRepeat (i.drives.map (fun l => (l.head, l.sys))) && noRepeat (i.dies.map (·.die)) &&
    i.drives.all DriveSample.wf && i.dies.all DieSample.wf

def TickInput.wf (i : TickInput) : Bool :=
  noRepeat (i.samples.map (fun l => (l.head, l.sys))) && noRepeat (i.fdPace.map (·.1))

/-- A read's clock is within its limits, and it names bits of one 576-bit frame (R213, R216, R136). -/
def ReadInput.wf (i : ReadInput) : Bool :=
  decide (20000 ≤ i.period ∧ i.period ≤ 125000 ∧ 8000 ≤ i.low ∧ i.low ≤ i.period ∧ i.stallAt ≤ 576) &&
    i.flipped.all (fun b => decide (b < 576)) && i.near.all (fun b => decide (b < 544)) &&
    decide (i.padAt.getD 0 < 576)

/-- A message's header fields are in their widths: PART 8 bits, epoch 48 bits, LEN 16 bits (R237). -/
def LinkMsg.wf (m : LinkMsg) : Bool :=
  decide (m.part < 256) && decide (m.epoch < 2 ^ 48) && decide (m.payload.length < 2 ^ 16)

/-- Ranges of a measurement: phase in 9-bit two's complement (R58). -/
def ImpMeasure.wf (m : ImpMeasure) : Bool := decide (-256 ≤ m.zph ∧ m.zph < 256)

/-- A register write names a doubleword of its BAR and carries at least one doubleword (R260, R263). -/
def regWriteOk (bar : Bar) (off dwords : Nat) : Bool :=
  decide (off % 4 = 0) && decide (1 ≤ dwords) &&
    match bar with
    | .bar0 => decide (off < 0x800000)
    | .bar2 => decide (off < 0x10000)
    | .bar4 => decide (off < 0x4000) && decide (dwords = 1)

/-- A read stays in BAR0, covers the doubleword at `reg`, and its enables name bytes (R4, R262). -/
def BusRead.wf (reg : Nat) (r : BusRead) : Bool :=
  decide (r.off % 4 = 0 ∧ r.off ≤ reg ∧ reg < r.off + 4 * r.dwords ∧ r.off + 4 * r.dwords ≤ 0x800000) &&
    decide (r.dwords ≤ 1024)

/-- Well-formedness of a command. -/
def Instr.wf : Instr → Bool
  | .hpNop _ c | .hpSeal _ c | .hpWrite _ c | .hpIdent _ c | .feRoute _ c | .feBiasSet _ c
  | .feImpSet _ c | .feImpRun _ c | .feImpSetref _ c | .feImpSweep _ c | .xsSet _ c | .xsAdjSet _ c | .xsBandsSet _ c
  | .xsUbandSet _ c | .xsPlanSet _ c | .xsListenReset _ c | .fltSet _ c | .fltNotchSet _ c | .fltSwap _ c
  | .fltBankLoad _ c | .fltBankFree _ c | .fltBankRead _ c | .cmpSet _ c | .cmpStatus _ c | .trnSet _ c
  | .trnSetref _ c | .trnStatus _ c | .secBind _ c | .secSet _ c | .secService _ c | .secDisturb _ c
  | .secLedgerRead _ c | .secStatus _ c | .secKeyProgram _ c | .secResetSup _ c | .secResetDir _ c | .zlSet _ c
  | .zlStatus _ c | .tbSet _ c | .tbStep _ c | .recSet _ c | .recSelect _ c | .recRead _ c | .recClear _ c
  | .pwrFld _ c | .pwrStatus _ c | .clkSet _ c | .eclEnter _ c => c.wf
  | .commandBadOpcode _ opcode c => c.wf && (rowOf opcode.toNat).isNone
  | .epcSeqLoRead _ r => r.wf 0x47000
  | .tbNowLoRead _ r => r.wf 0x4A000
  | .tbEpochLoRead _ r => r.wf 0x4A008
  | .feRouteCtrlGo _ _ v be => beOk be && v.toNat.testBit 31
  | .hpSealWrite _ _ be | .hpCtrlErrClr _ _ be | .epcCtrlClr _ _ be | .vspTestCrcFail _ _ be | .zlPdbWrite _ _ be
  | .recMarkWrite _ _ be | .recCursorWrite _ _ be | .irqEoi _ _ be | .irqHdrain _ _ be | .irqDoorbellWrite _ _ be => beOk be
  | .irqMaskSet _ _ _ be | .irqMaskClr _ _ _ be | .irqPendDiscard _ _ _ be | .orbCfgWrite _ _ _ be
  | .orbDoorbell _ _ _ be _ => beOk be
  | .registerWrite _ bar off _ be dwords => beOk be && regWriteOk bar off dwords
  | .epochBoundary _ i => i.wf
  | .trackTick _ i => i.wf
  | .extest _ cells | .samplePreload _ cells => noRepeat (cells.map (·.1))
  | .bypass _ code => !([0x00, 0x01, 0x02, 0x04, 0x05, 0x20, 0x21, 0x22] : List Byte).contains code
  | .ppsEdge _ err => decide (-5 ≤ err ∧ err ≤ 5)
  | .vspRead _ _ i => i.wf
  | .vspReadAbort _ _ => true
  | .impSlotEnd _ _ _ m => m.wf
  | .statusMessage _ m | .ephMessage _ m | .coverMessage _ m | .ldeltaMessage _ m | .lfullMessage _ m
  | .doorbellMessage _ m => m.wf
  | .dmaReadError _ (.payload opcode c) => c.wf && (rowOf opcode.toNat).isSome && c.plen != 0
  | _ => true

end Sys2Proof
end

