-- ==== Sys2Proof/Tests/Slice0.lean ====
section
/-! SUPPORT. Small checks: ill-formed commands that WellFormed refuses, worked examples of the spec, and for every
statement with hypotheses a concrete state and operands that meet them (`wit_…`). -/
namespace Sys2Proof.Tests
open Sys2Proof.Machine
set_option Elab.async false

/-- A running device, powered, with its host port up and its orbits enabled: one command descriptor waits on each of the
orbits 0 to 3. -/
def ready : State :=
  { State.reset with
    phase := .running
    hp := { Hp.reset with bme := true }
    orbits := tabulate 16 (fun k => { Orbit.reset with cfg := 0x106, hostIdx := if k < 4 then 1 else 0 })
    pwr := { Pwr.reset with inReset := 0, on := 0xFF, hostUp := true, linkUp := true } }

/-- A descriptor on orbit 0 with room for 4 KB of response. -/
def cmd (p : List Nat) : Cmd :=
  { orbit := 0, tag := 7, plen := BitVec.ofNat 16 p.length, rlen := 0x1000, raddr := 0x10000, paddr := 0x20000, fence := false,
    payload := p.map (BitVec.ofNat 8) }

/-- Two and four bytes of a number, least significant first. -/
def b2 (n : Nat) : List Nat := [n % 256, n / 256]
def b4 (n : Nat) : List Nat := b2 (n % 65536) ++ b2 (n / 65536)

/-- Head 5, a fixed head of FD0. -/
def hd : HeadId := 5

/-- A configuration of TYPE 01 in RUN. -/
def runCfg : RouteCfg := { RouteCfg.reset with mode := 1, type := 1 }

/-- The device with head 5 made into RUN. -/
def live : State := ready.modFe hd (fun b => { b with route := { b.route with cur := runCfg } })

/-- The device with head 5 in RUN, its slices regulated and settled and its comparators released. -/
def calm : State :=
  (((live.modXsSlice hd .sys1 (fun v => { v with reg := .track })).modXsSlice hd .sys2 (fun v =>
    { v with reg := .track })).modFlt hd (fun f =>
    { f with slice := f.slice.both (fun v => { v with settleHeld := false, settleCount := 400 }) })).modCmp hd (fun c =>
    { c with slice := c.slice.both (fun v => { v with asserted := false, lowOut := false, highOut := false,
                                                      forced := false }) })

/-- Sections without bindings bind no head. -/
theorem no_bound {s : State} (e : s.sections = ready.sections) (h : HeadId) : boundSecs s h = [] := by
  have k : ∀ n, boundTo h (s.sec n) = false := fun n => by
    simp only [State.sec, e, ready, State.reset, tget_tabulate]
    rfl
  simp [boundSecs, k]

theorem no_clear {s : State} (e : s.sections = ready.sections) (h : HeadId) : clearBound s h = false := by
  simp [clearBound, no_bound e]

theorem no_neighbours {s : State} (e : ∀ g, (s.head g).xs.adj = Vector.replicate 4 0) (h : HeadId) :
    neighbours s h = [] := by
  have k : ∀ g a, adjLists (s.head g).xs.adj a = false := fun g a => by rw [e]; rfl
  simp [neighbours, k]

theorem ready_head (g : HeadId) : ready.head g = Head.reset := by
  simp [ready, State.head, State.reset]

/-! ### Front end, excitation, filters -/

theorem wit_Impedance_commands :
    headUp ready hd = true ∧
    (let c := cmd [5, 0, 0x2C, 1, 0xCF, 7, 20, 10, 20, 0, 0, 0]
     Accepted 0x0212 false 12 0 c (ready.advance 1) ∧ headArg c.payload 0 = some hd ∧ field c.payload 4 2 = 1999) ∧
    (let c := cmd ([5, 0, 0x2C, 1] ++ b2 12000 ++ [20, 10, 20, 0, 0, 0])
     Accepted 0x0212 false 12 0 c (ready.advance 1) ∧ headArg c.payload 0 = some hd ∧ field c.payload 4 2 = 12000) ∧
    (let c := cmd [5, 0, 1]
     Accepted 0x0214 false 3 0 c (ready.advance 1) ∧ headArg c.payload 0 = some hd ∧ mayRef ready hd .sys1 = false ∧
     (let s := ready.modFe hd (fun b => { b with impRes := ⟨0x80000000, 0⟩, imp := ⟨{ b.imp.one with fresh := true }, b.imp.two⟩ })
      Accepted 0x0214 false 3 0 c (s.advance 1) ∧ ∀ x ∈ slices (field c.payload 2 1), mayRef s hd x = true)) := by
  unfold Accepted
  decide +kernel

def routeCmd : Cmd := cmd ([5, 0, 1, 1, 0, 0, 3] ++ List.replicate 17 0)

theorem wit_Route_request_admission :
    headUp ready hd = true ∧ hostOk ready = true ∧
    (Accepted 0x0210 true 24 0 routeCmd (ready.advance 1) ∧ headArg routeCmd.payload 0 = some hd) ∧
    (let s := ready.modFe hd (fun b => { b with route := { b.route with phase := .make } })
     Accepted 0x0210 true 24 0 routeCmd (s.advance 1) ∧
       routeTest hd (routeCfgOf hd routeCmd.payload s) s = some (.refusedBusy, 4)) ∧
    (let c := cmd [5, 0, 101, 0, 0xFF, 0x0F, 0xFF, 0x0F]
     Accepted 0x0211 true 8 0 c (ready.advance 1) ∧ headArg c.payload 0 = some hd ∧ field c.payload 4 2 = 4095 ∧
       field c.payload 6 2 = 4095 ∧ field c.payload 2 1 ≠ (ready.head hd).fe.route.cur.level.toNat) ∧
    ready.hp.isSealed = false ∧ bit (0x80000000 : Word) 31 = true := by
  unfold Accepted
  decide +kernel

/-- Head 5 with GO about to be written. -/
def goState : State := ready.modFe hd (fun b => { b with routeCtrl := put 0 2 (fld 0x80000000 0 2) })

theorem wit_Route_request_passes :
    routeTest hd (routeCfgOf hd routeCmd.payload ready) ready = none ∧
    routeTest hd { (ready.head hd).fe.route.cur with level := 101 } ready = none ∧
    routeTest hd (routeCfgRegs hd goState) goState = none := by
  refine ⟨?_, ?_, ?_⟩ <;> unfold routeTest <;> (first | rw [no_clear (s := ready) rfl] | rw [no_clear (s := goState) rfl]) <;>
    decide +kernel

/-- Head 5 with a request for RUN in the given phase. -/
def inPhase (p : RoutePhase) : State :=
  ready.modFe hd (fun b => { b with route := { b.route with phase := p, req := some { runCfg with disch := 3 } } })

theorem wit_Route_request_sequence :
    awake ready = true ∧
    (((inPhase .ramp).head hd).fe.route.phase = .ramp ∧
      ((inPhase .ramp).head hd).fe.route.admAt + 100000000 ≤ max (inPhase .ramp).now 100000000) ∧
    (((inPhase .break1).head hd).fe.route.phase = .break1 ∧
      ((inPhase .break1).head hd).fe.route.breakAt + 2000000 ≤ max (inPhase .break1).now 2000000) ∧
    (((inPhase .disch).head hd).fe.route.phase = .disch ∧
      ((inPhase .disch).head hd).fe.route.dischAt + 10000000 * 3 ≤ max (inPhase .disch).now 30000000) ∧
    (((inPhase .break2).head hd).fe.route.phase = .break2 ∧ testRunning (inPhase .break2) hd = false ∧
      ((inPhase .break2).head hd).fe.route.dischAt + 2000000 ≤ max (inPhase .break2).now 2000000 ∧
      ((inPhase .break2).head hd).fe.route.req = some { runCfg with disch := 3 }) := by
  decide +kernel

/-- Head 5 calm, with a check of SYS1 due since the start. -/
def due : State := calm.modFe hd (fun b => { b with imp := b.imp.set .sys1 { b.imp.one with dueSince := some 0 } })

/-- Generator 1 of FD0 in a slot of that check. -/
def inSlot : State :=
  due.modTone 0 1 (fun v => { v with slot := some { head := hd, sys := .sys1, start := 0, sweep := false } })

/-- Generator 1 of FD0 in a sweep. -/
def inSweep : State :=
  calm.modTone 0 1 (fun v => { v with
    sweep := some { head := hd, sys := .sys1, points := 4, freq0 := 3000, step := 10, done := [], since := 0, job := none } })

theorem wit_Impedance_scheduler :
    awake calm = true ∧
    (inUse calm hd .sys1 = true ∧ ((calm.head hd).fe.imp.get .sys1).dueSince = none ∧
      impInterval calm hd = 300 * 10 ^ 12 ∧ ((calm.head hd).fe.imp.get .sys1).lastDone = 0) ∧
    (((due.head hd).fe.imp.get .sys1).dueSince = some 0 ∧ ((due.head hd).fe.imp.get .sys1).overdue = false ∧
      0 < impInterval due hd) ∧
    ((due.tone 0 1).slot = none ∧ (due.tone 0 1).sweep = none ∧ nextDue (due.advance 1) 0 = some (hd, .sys1)) ∧
    ((inSlot.tone 0 1).slot = some { head := hd, sys := .sys1, start := 0, sweep := false }) ∧
    (let s := inSlot.modCmp hd (fun c => { c with brakeSince := some 0 })
     deferral (s.advance 1) hd = true ∧ impExempt s hd .sys1 = false) ∧
    ((inSweep.tone 0 1).sweep.isSome = true ∧ (inSweep.tone 0 1).slot = none) := by
  decide +kernel

theorem wit_Impedance_sweep_takes_its_generator :
    let c := cmd [0, 1, 5, 0, 1, 16, 0xB8, 0x0B, 0, 0, 10, 0]
    Accepted 0x0215 true 12 (8 * field c.payload 5 1) c (ready.advance 1) ∧
      Accepted 0x0215 true 12 (8 * field c.payload 5 1) c (inSweep.advance 1) ∧ headArg c.payload 2 = some hd ∧
      headUp ready hd = true ∧ headUp inSweep hd = true ∧ field c.payload 0 1 = (dieOf hd).val ∧
      field c.payload 1 1 ≤ 3 ∧ field c.payload 4 1 = 1 ∧ field c.payload 5 1 = 16 ∧
      (ready.tone (dieOf hd) (Fin.ofNat 4 (field c.payload 1 1))).sweep = none ∧
      ((inSweep.tone (dieOf hd) (Fin.ofNat 4 (field c.payload 1 1))).sweep).isSome = true := by
  unfold Accepted
  decide +kernel

/-- Head 5 calm but for an invalid run of SYS2 that began at 0, with its gap. -/
def inGap : State :=
  calm.modFltSlice hd .sys2 (fun f => { f with
    inv := some { start := 0, ovr := true, cm := false, ovrNow := true, cmNow := false, long := false }
    gap := some { start := 0, stop := none, unbridged := false, settled := true } })

theorem wit_Invalid_runs_gaps_and_leakage :
    (awake calm = true ∧ inRun calm hd = true ∧ inUse calm hd .sys2 = true ∧
      ((calm.head hd).flt.slice.get .sys2).inv = none ∧ ((calm.head hd).flt.slice.get .sys2).gap = none) ∧
    (((inGap.head hd).flt.slice.get .sys2).inv = some { start := 0, ovr := true, cm := false, ovrNow := true, cmNow := false, long := false } ∧
      ((inGap.head hd).flt.slice.get .sys2).gap =
        some { start := 0, stop := none, unbridged := false, settled := true } ∧
      ((inGap.head hd).flt.slice.get .sys2).mark = none ∧ inGap.now = 0) ∧
    (let s := calm.modFe hd (fun b => { b with leakSince := some 0 })
     (s.head hd).fe.leakSince = some 0 ∧ (s.head hd).fe.leakFault = false) := by
  decide +kernel

def xsCmd : Cmd :=
  cmd ([5, 0, 3, 0] ++ b4 31000 ++ b4 36000 ++ b2 400 ++ b2 1200 ++ b2 7 ++ b2 9 ++ [41, 4, 9, 0])

theorem wit_Frequency_plan_commands :
    (let c := cmd ([5, 0] ++ List.replicate 16 0)
     headArg c.payload 0 = some hd ∧ Accepted 0x0221 false 18 0 c (ready.advance 1)) ∧
    (let c := cmd ([5, 0, 5, 0x80] ++ List.replicate 14 0)
     headArg c.payload 0 = some hd ∧ Accepted 0x0221 false 18 0 c (ready.advance 1) ∧
       adjLists (tabulate 4 (fun k => word (field c.payload (2 + 4 * k) 4) &&& 0x80FF80FF)) hd = true) ∧
    (let c := cmd [5, 0, 1]
     headArg c.payload 0 = some hd ∧ Accepted 0x0222 false 3 0 c (ready.advance 1)) ∧
    (let c := cmd ([15, 0, 0, 0] ++ b4 (0x20000000 + 4000 * 65536 + 4000))
     Accepted 0x0223 false 8 0 c (ready.advance 1) ∧ field c.payload 0 1 = 15 ∧
       fld (word (field c.payload 4 4)) 0 13 = fld (word (field c.payload 4 4)) 16 13) ∧
    (let c := cmd (b4 0x320647D0)
     Accepted 0x0224 false 4 0 c (ready.advance 1)) ∧
    (headArg xsCmd.payload 0 = some hd ∧ Accepted 0x0220 false 24 0 xsCmd (ready.advance 1) ∧ field xsCmd.payload 2 1 % 4 = 3 ∧
      field xsCmd.payload 4 4 < 131072 ∧ field xsCmd.payload 8 4 < 131072 ∧ field xsCmd.payload 12 2 < 2048 ∧
      field xsCmd.payload 14 2 < 2048) ∧
    (let c := cmd [5, 0, 2]
     let s := calm.modXsSlice hd .sys2 (fun v => { v with reg := .listen })
     headArg c.payload 0 = some hd ∧ headUp s hd = true ∧ Accepted 0x0225 false 3 0 c (s.advance 1) ∧
       Sys.sys2 ∈ slices (field c.payload 2 1) ∧ ((s.head hd).xs.slice.get .sys2).reg = .listen) := by
  refine ⟨?_, ?_, ?_, ?_, ?_, ?_, ?_⟩ <;> (try unfold Accepted) <;> decide +kernel

/-- Without neighbours, head 5 keeps its plan with its reset carriers, also with band set 0. -/
theorem wit_Plan_without_breach :
    planBreach (ready.modXs hd (fun b => { b with adj := Vector.replicate 4 0 })) hd = 0 ∧
    planBreach (ready.modXs hd (fun b => { b with bands := put 0 8 1 })) hd = 0 ∧
    xsTest hd { freq := ⟨31000, 36000⟩, amp := ⟨400, 1200⟩, phase := ⟨7, 9⟩, ilim := ⟨41, 4⟩, tau := 9 } ready = none := by
  have k : ∀ g, (ready.head g).xs.adj = Vector.replicate 4 0 := fun g => by rw [ready_head]; rfl
  have k1 : ∀ (f : XsHead → XsHead) (g : HeadId), (∀ b, b.adj = Vector.replicate 4 0 → (f b).adj = Vector.replicate 4 0) →
      ((ready.modXs hd f).head g).xs.adj = Vector.replicate 4 0 := fun f g hf => by
    by_cases e : g = hd
    · rw [e]; simpa using hf _ (k hd)
    · simpa [State.modXs, modHead_head_other _ _ _ _ e] using k g
  have n := fun f hf => no_neighbours (fun g => k1 f g hf) hd
  refine ⟨?_, ?_, ?_⟩
  · unfold planBreach
    rw [n _ (fun _ _ => rfl)]
    decide +kernel
  · unfold planBreach
    rw [n (fun b => { b with bands := put 0 8 1 }) (fun _ e => e)]
    decide +kernel
  · unfold xsTest planBreach
    simp only [no_clear (s := ready) rfl]
    rw [n (xsStore { freq := ⟨31000, 36000⟩, amp := ⟨400, 1200⟩, phase := ⟨7, 9⟩, ilim := ⟨41, 4⟩, tau := 9 })
      (fun _ e => e)]
    decide +kernel

/-- With the reset frequency plan no head breaks a rule. -/
theorem wit_Plan_of_every_head : planFirst ready = none := by
  have k : ∀ g, (ready.head g).xs.adj = Vector.replicate 4 0 := fun g => by rw [ready_head]; rfl
  have b : ∀ h, planBreach ready h = 0 := fun h => by
    unfold planBreach
    rw [no_neighbours k h]
    have a : adjLists Head.reset.xs.adj h = false := rfl
    simp only [carriers, ready_head, headBands, a]
    decide +kernel
  simp [planFirst, b]

/-- A separation of 4,001 Hz within a head. -/
def wide : State := { ready with dev := { ready.dev with plan := 0x321F4FA1 } }

/-- Every head breaks rule 2, head 0 first. -/
theorem wit_Plan_breach : planFirst wide = some (0, 2) := by
  have k : ∀ g, (wide.head g).xs.adj = Vector.replicate 4 0 := fun g => by
    show (ready.head g).xs.adj = _; rw [ready_head]; rfl
  have b : planBreach wide 0 = 2 := by
    unfold planBreach
    rw [no_neighbours k 0]
    decide +kernel
  have f : allFin 256 = 0 :: (List.finRange 255).map Fin.succ := List.finRange_succ
  simp [planFirst, f, b]

/-- Head 5 calm but for the regulator of SYS2. -/
def regIn (r : RegState) : State := calm.modXsSlice hd .sys2 (fun v => { v with reg := r, lockRun := 100 })

theorem wit_Regulator_events :
    (∀ r, awake (regIn r) = true ∧ (((regIn r).head hd).xs.slice.get .sys2).reg = r ∧
      (((regIn r).head hd).xs.slice.get .sys2).since = 0 ∧ (((regIn r).head hd).xs.slice.get .sys2).lockRun = 100 ∧
      (((regIn r).head hd).xs.slice.get .sys2).mismatch = false) ∧
    holdCond ((regIn .hold).advance 1) hd = false ∧
    holdCond (((regIn .track).modCmp hd (fun c => { c with brakeSince := some 0 })).advance 1) hd = true ∧
    (let g : CarrierChange := { mask := ⟨false, true⟩, toSwitch := ⟨false, true⟩, toRegulate := ⟨false, true⟩, job := none }
     let s := (regIn .track).modXs hd (fun b => { b with chg := some g })
     (s.head hd).xs.chg = some g ∧ g.toSwitch.get .sys2 = true ∧ ((s.head hd).xs.slice.get .sys2).reg = .track) := by
  refine ⟨fun r => by cases r <;> decide +kernel, ?_, ?_, ?_⟩ <;> decide +kernel

theorem wit_Die_temperature :
    awake calm = true ∧ dieUp calm 0 = true ∧ (calm.die 0).thermOff = false ∧ dieOf hd = 0 ∧ dieOf 32 ≠ 0 ∧
      ((calm.head hd).xs.slice.get .sys1).reg = .track := by
  decide +kernel
def fltCmd (mask med manual extra : Nat) : Cmd := cmd [5, 0, mask, med, manual, extra, 0, 0, 0, 0, 0, 0]

/-- FLT_SWAP of SYS1 to bank 0x81 over 16 outputs. -/
def swapCmd (code : Nat) : Cmd := cmd [5, 0, 1, code, 0, 0, 16, 0]

/-- The swap that it asks for. -/
def swapTo (code : Byte) : Swap := { one := some code, two := none, fade := 16, job := some 0 }

theorem wit_Filter_commands :
    headUp calm hd = true ∧
    (Accepted 0x0230 false 12 0 (fltCmd 1 0 0 60) (calm.advance 1) ∧ headArg (fltCmd 1 0 0 60).payload 0 = some hd ∧
      extraAlone (calm.head hd).flt { mask := slices 1, med := ⟨0, 0⟩, manual := 0, extra := 60, delay := ⟨0, 0⟩ } =
        true) ∧
    (let r : FltReq := { mask := slices 3, med := ⟨1, 2⟩, manual := 1, extra := 50, delay := ⟨0, 0⟩ }
     Accepted 0x0230 false 12 0 (fltCmd 3 9 1 50) (calm.advance 1) ∧ headArg (fltCmd 3 9 1 50).payload 0 = some hd ∧
       extraAlone (calm.head hd).flt r = false ∧ fltInRange r = true) ∧
    (let c := cmd ([5, 0, 1, 0xFF] ++ List.replicate 32 0)
     Accepted 0x0231 false 36 0 c (calm.advance 1) ∧ headArg c.payload 0 = some hd ∧ field c.payload 3 1 = 0xFF ∧
       field c.payload 2 1 % 4 = 1 ∧
       notchesOk (tabulate 4 (fun k => word (field c.payload (4 + 4 * k) 4))) (calm.freqOf hd .sys1) = true) ∧
    (Accepted 0x0232 true 8 0 (swapCmd 0x81) (calm.advance 1) ∧ headArg (swapCmd 0x81).payload 0 = some hd ∧
      field (swapCmd 0x81).payload 2 1 % 4 = 1 ∧ (calm.head hd).flt.fading = none ∧
      neutral calm hd (.sys1, 0x81) = false ∧ neutral calm hd (.sys1, 0x80) = true ∧ settled calm hd .sys1 = true ∧
      swapTest hd (swapTo 0x82) calm = some (.conflict, 1)) := by
  refine ⟨?_, ?_, ?_, ?_, ?_⟩ <;> (try unfold Accepted) <;> decide +kernel

/-- The tests that look at the sections pass too. -/
theorem wit_Filter_tests_pass :
    fltBusyTest hd calm = none ∧ swapLateTest hd (swapTo 0x81) calm = none ∧
      swapTest hd (swapTo 0x81) calm = none ∧ swapTest hd (swapTo 0x80) calm = none := by
  have e : clearBound calm hd = false := no_clear rfl hd
  refine ⟨?_, ?_, ?_, ?_⟩
  · unfold fltBusyTest
    rw [e]
    decide +kernel
  all_goals
    try unfold swapTest
    unfold swapLateTest
    rw [e]
    decide +kernel

/-- Head 5 in a fade of SYS1 that began at 0. -/
def inFade : State :=
  calm.modFlt hd (fun f => { f with
    fading := some (swapTo 0x81), slice := f.slice.set .sys1 { f.slice.one with next := 0x81, fadeAt := some 0 } })

theorem wit_Fades_and_late_samples :
    awake inFade = true ∧ inRun inFade hd = true ∧ inUse inFade hd .sys1 = true ∧
    ((inFade.head hd).flt.fading = some (swapTo 0x81) ∧ ((inFade.head hd).flt.slice.get .sys1).fadeAt = some 0 ∧
      ((inFade.head hd).flt.slice.get .sys1).next = 0x81 ∧ ((inFade.head hd).flt.slice.get .sys2).next = 0xFF ∧
      (inFade.head hd).flt.queue = none ∧ 16 * 10 ^ 12 ≤ (10 ^ 12 - 0) * inFade.firOf hd .sys1) ∧
    (let s : State := { inFade with epc := { inFade.epc with tickAt := 1 } }
     inRun s hd = true ∧ inUse s hd .sys2 = true ∧ ((s.head hd).flt.slice.get .sys2).sampleAt ≠ s.epc.tickAt ∧
       s.epc.tickAt + 4000000 ≤ max s.now 4000000 + 1) ∧
    (let s := inFade.modFltSlice hd .sys2 (fun v => { v with next := 0x80 })
     ((s.head hd).flt.slice.get .sys2).next ≠ 0xFF ∧ ((s.head hd).flt.slice.get .sys2).fadeAt = none) := by
  decide +kernel

/-- FLT_BANK_LOAD into slot 127 of FD0 for SYS2 of head 31: one coefficient of 524,287. -/
def loadCmd : Cmd := cmd ([0, 127, 31, 2, 1, 7, 7, 0] ++ b4 524287 ++ List.replicate 252 0)

theorem wit_Coefficient_slots :
    dieArg loadCmd.payload 0 = some 0 ∧ dieUp ready 0 = true ∧ field loadCmd.payload 1 1 = 127 ∧
    (Accepted 0x0233 true 264 0 loadCmd (ready.advance 1) ∧ field loadCmd.payload 2 1 = 31 ∧ field loadCmd.payload 3 1 = 2 ∧
      field loadCmd.payload 4 1 = 1 ∧ field loadCmd.payload 6 1 = 7 ∧ field loadCmd.payload 5 1 = 7 ∧
      (tget (ready.die 0).slots 127).owned = false ∧ slotInUse ready 0 127 = false ∧
      coefSum ((List.range 64).map (fun i => BitVec.ofNat 20 (field loadCmd.payload (8 + 4 * i) 4))) = 524287) ∧
    (let c := cmd [0, 127]
     Accepted 0x0234 false 2 0 c (ready.advance 1) ∧ Accepted 0x0235 true 2 260 c (ready.advance 1) ∧ dieArg c.payload 0 = some 0 ∧
       (let s := (ready.modDie 0 (fun e => { e with
            slots := tset e.slots 127 { BankSlot.reset with loaded := true, owned := true, head := 5 } })).modFltSlice hd
              .sys1 (fun v => { v with act := 127 })
        Accepted 0x0234 false 2 0 c (s.advance 1) ∧ dieUp s 0 = true ∧ slotInUse s 0 127 = true)) := by
  refine ⟨?_, ?_, ?_, ?_, ?_⟩ <;> (try unfold Accepted) <;> decide +kernel

/-! ### Comparators, transits, sections -/

/-- CMP_SET of both slices: LOW, ASSERT, RELEASE and HIGH, with BRAKE_ON 240 and BRAKE_OFF 160. -/
def cmpCmd (low assert : Nat) : Cmd :=
  let q := b2 low ++ b2 assert ++ b2 184 ++ b2 520
  cmd ([5, 0, 3, 0] ++ q ++ q ++ [16, 16, 0, 8] ++ b2 240 ++ b2 160 ++ [20, 0, 0, 0])

theorem wit_Comparator_commands :
    headUp ready hd = true ∧
    (Accepted 0x0240 false 32 0 (cmpCmd 40 160) (ready.advance 1) ∧ headArg (cmpCmd 40 160).payload 0 = some hd ∧
      cmpSetRange (cmpCmd 40 160).payload = true ∧
      cmpOrder (cmpSetWords (cmpCmd 40 160).payload (ready.head hd).cmp.staged) = true) ∧
    (cmpSetRange (cmpCmd 145 160).payload = true ∧
      cmpOrder (cmpSetWords (cmpCmd 145 160).payload (ready.head hd).cmp.staged) = false) ∧
    cmpSetRange (cmpCmd 40 1024).payload = false ∧
    (let c := cmd [5, 0]
     Accepted 0x0241 false 2 32 c (ready.advance 1) ∧ headArg c.payload 0 = some hd) := by
  unfold Accepted
  refine ⟨?_, ?_, ?_, ?_, ?_⟩ <;> decide +kernel

/-- Head 5 calm with SYS1 asserted, its occultation timer ending at 5. -/
def present : State := calm.modCmpSlice hd .sys1 (fun c => { c with asserted := true, occEnd := some 5 })

theorem wit_Presence_comparator :
    awake calm = true ∧ cmpLive calm hd .sys1 = true ∧ assertThr calm hd .sys1 = 160 ∧
    (cmpLive present hd .sys1 = true ∧ ((present.head hd).cmp.slice.get .sys1).asserted = true ∧
      ((present.head hd).cmp.slice.get .sys1).occEnd = some 5 ∧ occDone (present.advance 5) hd .sys1 = true ∧
      releaseThr present hd .sys1 = 184) ∧
    (occDone (present.advance 4) hd .sys1 = false ∧ occDone (present.advance 5) hd .sys1 = true ∧
      183 < releaseThr present hd .sys1) ∧
    (let s := calm.modCmp hd (fun c => { c with judge := [(2, 3)] })
     let s := s.modTrn hd (fun t => { t with issuedEnds := [1] })
     trnIdle s hd = true ∧ (s.head hd).cmp.judge = [(2, 3)] ∧ 3 + holdOf s hd ≤ max s.now 2000000000 ∧
       ∀ i ∈ (s.head hd).trn.issuedEnds, i < 2) := by
  decide +kernel

theorem wit_Health_window_and_rails :
    (∀ side : Side, cmpLive calm hd .sys1 = true ∧
      outCond calm hd .sys1 (match side with
        | .low => 40
        | .high => 520) side = true) ∧
    (healthOut calm hd .sys1 = false ∧ (calm.head hd).fe.route.window = false) ∧
    (let s := calm.modCmpSlice hd .sys1 (fun c => { c with lowOut := true })
     cmpLive s hd .sys1 = true ∧ sideOut ((s.head hd).cmp.slice.get .sys1) .low = true ∧
       backCond s hd .sys1 48 .low = true) ∧
    (headUp calm hd = true ∧ inUse calm hd .sys1 = true) := by
  refine ⟨fun side => by cases side <;> decide +kernel, ?_, ?_, ?_⟩ <;> decide +kernel

/-- Head 5 calm in a brake field that SYS1 sees. -/
def braking : State :=
  (calm.modCmpSlice hd .sys1 (fun c => { c with brk := true })).modCmp hd (fun c =>
    { c with brakeSince := some 0, brakeHold := some 9 })

theorem wit_Brake_recognition :
    awake calm = true ∧ headUp calm hd = true ∧ inUse calm hd .sys1 = true ∧
    fld (calm.head hd).cmp.force.brake 0 10 = 240 ∧ (calm.head hd).cmp.brakeSince = none ∧
    (((braking.head hd).cmp.slice.get .sys1).brk = true ∧ fld (braking.head hd).cmp.force.brake 16 10 = 160 ∧
      ((braking.head hd).cmp.slice.get (Sys.sys1).other).brk = false) ∧
    ((braking.head hd).cmp.brakeHold = some 9 ∧ (braking.head hd).cmp.brakeSince.isSome = true) := by
  decide +kernel

theorem wit_Comparator_test_and_forced_state :
    (let s := calm.modCmpSlice hd .sys1 (fun c => { c with testing := true })
     awake s = true ∧ ((s.head hd).cmp.slice.get .sys1).testing = true ∧
       (s.head hd).fe.route.testEnd ≤ max s.now 0 ∧ (s.head hd).fe.route.phase ≠ .break2) ∧
    (let s := calm.modCmpSlice hd .sys1 (fun c => { c with forced := true })
     settled s hd .sys1 = true ∧ ((s.head hd).cmp.slice.get .sys1).forced = true ∧
       ((s.head hd).cmp.slice.get .sys1).testing = false) ∧
    (let s := calm.modCmpSlice hd .sys1 (fun c => { c with envHold := some 8 })
     ((s.head hd).cmp.slice.get .sys1).envHold = some 8) := by
  decide +kernel

/-- TRN_SET with the reset words, SPACING given. -/
def trnCmd (spacing det : Nat) : Cmd :=
  cmd ([5, 0] ++ b4 (0xC0000 + spacing) ++ b4 det ++ b4 0x14190032 ++ b4 0x000C0046 ++ b4 0x0190001E ++
    b4 0x012C003C ++ b4 0x0A0A0100 ++ [0, 0])

/-- Head 5 calm and IDLE for 100 ms, with 10,000 settled samples of SYS1. -/
def baseReady : State :=
  calm.modTrn hd (fun t => { t with st := .idle, slice := t.slice.set .sys1 { t.slice.one with
    okMags := List.replicate 10000 1000 } })

theorem wit_Transit_commands :
    headUp calm hd = true ∧
    (Accepted 0x0250 false 32 0 (trnCmd 300 0x009A0100) (calm.advance 1) ∧
      headArg (trnCmd 300 0x009A0100).payload 0 = some hd ∧
      trnRange (trnHeld (calm.head hd).trn) = true) ∧
    (Accepted 0x0251 false 3 0 (cmd [5, 0, 1]) (baseReady.advance 100000000000) ∧ field (cmd [5, 0, 1]).payload 2 1 = 1 ∧
      setrefHead (baseReady.advance 100000000000) hd = true ∧ setrefOk calm hd .sys1 = false) ∧
    (Accepted 0x0252 false 2 72 (cmd [5, 0]) (calm.advance 1) ∧ headArg (cmd [5, 0]).payload 0 = some hd) := by
  unfold Accepted
  refine ⟨?_, ?_, ?_, ?_⟩ <;> decide +kernel

theorem wit_Baseline_is_ready : setrefOk baseReady hd .sys1 = true := by
  have e : ((baseReady.head hd).trn.slice.get .sys1).okMags = List.replicate 10000 1000 := by
    unfold baseReady
    rw [modTrn_head_same]
    rfl
  simp only [setrefOk, e, List.length_replicate]
  decide +kernel

theorem wit_Transit_tests :
    trnTest hd (trnMask { geom := 0xC0096, det := 0x009A0100, val := 0x14190032, valb := 0x000C0046, len := 0x0190001E,
                          lenb := 0x012C003C, cal := 0x0A0A0101 }) calm = none ∧
    trnBusyTest hd calm = none ∧
    trnTest hd (trnMask { geom := 0xC0096, det := 0x009A0010, val := 0x14190032, valb := 0x000C0046, len := 0x0190001E,
                          lenb := 0x012C003C, cal := 0x0A0A0100 }) calm = some (.conflict, 1) := by
  have e : clearBound calm hd = false := no_clear rfl hd
  refine ⟨?_, ?_, ?_⟩
  · unfold trnTest trnBusyTest
    rw [e]
    decide +kernel
  · unfold trnBusyTest
    rw [e]
    decide +kernel
  · decide +kernel

/-- Head 5 calm with the samples of tick 0 in: SYS1 with `m1`, SYS2 with 1,000, over a baseline of 1,000. -/
def sampled (st : TrnState) (m1 : Nat) (ok : Bool) : State :=
  let s := { calm with epc := { calm.epc with tickAt := 1 } }
  let s := s.modFltSlice hd .sys1 (fun f => { f with
    sampleAt := 1, sample := { valid := ok, settled := true, bridged := false, mag := m1 } })
  let s := s.modFltSlice hd .sys2 (fun f => { f with
    sampleAt := 1, sample := { valid := true, settled := true, bridged := false, mag := 1000 } })
  s.modTrn hd (fun t => { t with st := st, slice := t.slice.both (fun v => { v with base := 65536000 }) })

/-- A held passage that ended at 0. -/
def heldPass (noref : Bool) : Passage := { Passage.begin 0 false with reversals := 1, spacing := 150, noref := noref }

theorem wit_Transit_machine :
    (∀ st : TrnState, awake (sampled st 1000 true) = true ∧ inRun (sampled st 1000 true) hd = true ∧
      inUse (sampled st 1000 true) hd .sys1 = true ∧ inUse (sampled st 1000 true) hd .sys2 = true ∧
      samplesIn (sampled st 1000 true) hd = true ∧
      ((sampled st 1000 true).head hd).trn.histTick ≠ (sampled st 1000 true).epc.tickAt) ∧
    ((∀ x, (((sampled .wait 1000 true).head hd).flt.slice.get x).sample.valid = true ∧
        (((sampled .wait 1000 true).head hd).flt.slice.get x).sample.settled = true) ∧
      (∀ x, (((sampled .wait 1000 true).head hd).trn.slice.get x).dip = false) ∧
      (∀ x, depthOf (baseInt (baseFrom ((sampled .wait 1000 true).head hd).trn x
        (((sampled .wait 1000 true).head hd).flt.slice.get x).sample.mag))
        (((sampled .wait 1000 true).head hd).flt.slice.get x).sample.mag <
          onDepth ((sampled .wait 1000 true).head hd).trn)) ∧
    (let s := sampled .idle 750 true
     (s.head hd).trn.pass = none ∧
       onDepth (s.head hd).trn ≤ depthOf (baseInt ((s.head hd).trn.slice.get .sys1).base)
         ((s.head hd).flt.slice.get .sys1).sample.mag ∧
       depthOf (baseInt ((s.head hd).trn.slice.get (Sys.sys1).other).base)
         ((s.head hd).flt.slice.get (Sys.sys1).other).sample.mag < onDepth (s.head hd).trn) ∧
    ((((sampled .one 750 false).head hd).flt.slice.get .sys1).sample.valid = false ∧
      goodSample (sampled .one 750 false) hd .sys2 = true) ∧
    (let s := calm.modTrn hd (fun t => { t with held := [heldPass false] })
     (s.head hd).trn.held = [heldPass false] ∧ (heldPass false).endAt = 0 ∧ (heldPass false).incomplete = false ∧
       validate (heldPass false) (measure (heldPass false)) (s.head hd).trn.lastAcc = 0 ∧
       validate (heldPass true) (measure (heldPass true)) (s.head hd).trn.lastAcc = 13) := by
  refine ⟨fun st => by cases st <;> decide +kernel, ⟨fun x => ?_, fun x => ?_, fun x => ?_⟩, ?_, ?_, ?_⟩ <;>
    (try cases x) <;> decide +kernel

/-- A device with role 10 in force and section 3 in service and DISTURBED, its key programmed and its nonce 0. -/
def served : State :=
  ({ ready with zl := { ready.zl with role := 2 }, key := some (List.replicate 32 1) }).modSec 3 (fun x =>
    { x with nonce := 0, cfg := 0x00010010, quietEl := 100000, core := { x.core with service := true } })

/-- Bytes of a reset command for section 3 with its tokens at epoch 0. -/
def resetCmd (toks : List (List Byte)) : Cmd :=
  { cmd [] with plen := BitVec.ofNat 16 (8 + 8 * toks.length)
                payload := [3, 0, 0, 0, 0, 0, 0, 0] ++ toks.flatMap id }

theorem wit_Section_commands :
    (let c := cmd ([3, 0, 1, 0, 5, 0x80] ++ List.replicate 14 0)
     secArg c.payload 0 = some 3 ∧ Accepted 0x0260 false 20 0 c (ready.advance 1) ∧ field c.payload 2 1 = 1 ∧
       bindTest served 3 [0x8005] = 3) ∧
    (let c := cmd ([3, 0] ++ b4 0x80 ++ b4 0x00600060)
     Accepted 0x0261 false 10 0 c (ready.advance 1) ∧
       setTest ready 3 (word (field c.payload 2 4)) (word (field c.payload 6 4)) = 0 ∧
       setTest ready 3 (word (field c.payload 2 4)) 0x005F0060 = 2) ∧
    (let c := cmd [3, 0, 0]
     Accepted 0x0262 false 3 0 c (served.advance 1) ∧ serviceTest served 3 (field c.payload 2 1) = 0) ∧
    (Accepted 0x0263 false 2 0 (cmd [3, 0]) (served.advance 1) ∧ served.zl.role = 2 ∧ (served.sec 3).core.service = true ∧
      ready.zl.role ≠ 2) := by
  unfold Accepted
  refine ⟨?_, ?_, ?_, ?_⟩ <;> decide +kernel

theorem wit_Section_binds : bindTest ready 3 [0x8005] = 0 := by
  have e : boundSecs ready (Fin.ofNat 256 (fld (0x8005 : Word) 0 8)) = [] := no_bound rfl _
  have a : allBindings ready = 0 := by
    have k : (ready.sections.toList.map bindings) = List.replicate 256 0 := by
      refine List.eq_replicate_iff.mpr ⟨by simp, fun b hb => ?_⟩
      obtain ⟨x, hx, rfl⟩ := List.mem_map.mp hb
      obtain ⟨i, hi, rfl⟩ := List.getElem_of_mem hx
      simp only [ready, State.reset, tabulate]
      simp
      rfl
    rw [allBindings, k]
    decide +kernel
  unfold bindTest
  simp only [a, List.map, List.any, e]
  decide +kernel

/-- A command in progress on orbit 0 that answers 4 KB. -/
def asker : InFlight :=
  { opcode := 0x0265, tag := 7, orbit := 0, cmdIdx := 0, rlen := 0x1000, raddr := 0x10FC0, epochAdm := 0, admSeq := 0,
    long := false, lost := false }

/-- The device at the end of a quiet window, with a snapshot waiting for that command. -/
def waiting (w : Snap) : State :=
  { ready with
    epc := { ready.epc with quiet := true, snaps := [w] }
    hp := { ready.hp with inflight := [asker] }
    orbits := tabulate 16 (fun k => { ready.orbit (Fin.ofNat 16 k) with hostIdx := 0x40 }) }

theorem wit_Section_snapshots :
    (secArg (cmd [255, 0]).payload 0 = some 255 ∧ Accepted 0x0265 false 2 96 (cmd [255, 0]) (ready.advance 1) ∧
      Accepted 0x0264 true 2 0 (cmd [255, 0]) (ready.advance 1)) ∧
    (∀ ledger : Bool,
      let w : Snap := { sec := 255, ledger := ledger, job := 0 }
      let s := waiting w
      s.phase = .running ∧ s.epc.quiet = true ∧ s.epc.start + 100000000 ≤ max s.now 100000000 ∧ s.epc.snaps = [w] ∧
        s.hp.inflight = [asker] ∧ asker.admSeq = w.job ∧ asker.lost = false ∧ canMaster s = true ∧
        (s.orbit (compOrbit asker.orbit)).en = true ∧ s.tb.step = none ∧
        (ledgerBytes w.sec.val (s.sec w.sec).core (s.epc.seq + 1)).length ≤ asker.rlen ∧ 96 ≤ asker.rlen) := by
  unfold Accepted
  refine ⟨?_, ?_⟩ <;> decide +kernel

theorem wit_Authorised_section_commands :
    (served.key = some (List.replicate 32 1) ∧ served.zl.role = 2 ∧ tokenWindow served 0 = true ∧ (served.sec 3).core.service = true ∧
      (served.sec 3).core.state = .disturbed ∧ allFit served (served.sec 3) = true ∧ quietMet (served.sec 3) (served.sec 3).quietEl = true) ∧
    (let c := resetCmd [zeros 8]
     Accepted 0x0270 false 16 0 c (served.advance 1) ∧ secArg c.payload 0 = some 3 ∧ field c.payload 2 6 = 0 ∧
       slice c.payload 8 8 ≠ token (List.replicate 32 1) 0x0270 3 0 (served.sec 3).nonce) := by
  unfold Accepted
  refine ⟨?_, ?_⟩ <;> decide +kernel

/-- The tokens of HMAC-SHA-256 over OP, TARGET, E_TOK and NONCE let the supervised and the direct form pass. -/
theorem wit_Tokens :
    (let c := resetCmd [[0x7F, 0xB9, 0x96, 0x51, 0x31, 0x07, 0x3F, 0x8B]]
     Accepted 0x0270 false 16 0 c (served.advance 1) ∧ secArg c.payload 0 = some 3 ∧
       slice c.payload 8 8 = token (List.replicate 32 1) 0x0270 3 (field c.payload 2 6) (served.sec 3).nonce) ∧
    (let c := resetCmd [token (List.replicate 32 1) 0x0271 3 0 0, token (List.replicate 32 1) 0x8271 3 0 0]
     Accepted 0x0271 false 24 0 c (served.advance 1) ∧
       slice c.payload 8 8 = token (List.replicate 32 1) 0x0271 3 0 (served.sec 3).nonce ∧
       slice c.payload 16 8 = token (List.replicate 32 1) 0x8271 3 0 (served.sec 3).nonce) := by
  unfold Accepted
  refine ⟨?_, ?_⟩ <;> decide +kernel

/-! ### Time base, interrupts, epochs, the vital port -/

theorem wit_Time_base_commands :
    (Accepted 0x0290 false 8 0 (cmd (b4 0xFFFFFFFF ++ b4 0xFFFFFFFF)) (ready.advance 1)) ∧
    (let c := cmd ([1, 0] ++ List.replicate 14 0)
     Accepted 0x0291 true 16 0 c (ready.advance 98000001) ∧ field c.payload 0 1 ≤ 1 ∧ field c.payload 2 6 = 0 ∧
       ready.tb.step = none ∧
       (let s := { ready with tb := { ready.tb with step := some { absolute := false, value := 0, atSeq := 1, job := none } } }
        Accepted 0x0291 true 16 0 c (s.advance 1) ∧ s.tb.step.isSome = true)) ∧
    (let c := cmd ([2, 0] ++ List.replicate 14 0)
     Accepted 0x0291 true 16 0 c (ready.advance 1) ∧ 1 < field c.payload 0 1) ∧
    (hostOk ready = true ∧
      (let r : BusRead := { off := 0x4A000, dwords := 1, firstBe := 5, lastBe := 0 }
       readOk r = true ∧ readIncludes r 0x4A000 = true ∧ readIncludes r 0x47000 = false ∧
         readIncludes r 0x4A008 = false ∧ r.off = 0x4A000 ∧ r.dwords = 1) ∧
      (let r : BusRead := { off := 0x4A000, dwords := 2, firstBe := 15, lastBe := 15 }
       readOk r = true ∧ readIncludes r 0x4A000 = true ∧ readIncludes r 0x47000 = false ∧ r.dwords = 2 ∧ r.firstBe = 15 ∧
         r.lastBe = 15) ∧
      (let r : BusRead := { off := 0x4A008, dwords := 1, firstBe := 15, lastBe := 0 }
       readOk r = true ∧ readIncludes r 0x4A008 = true ∧ readIncludes r 0x47000 = false ∧ r.off = 0x4A008 ∧ r.dwords = 1) ∧
      readOk { off := 0x49FFC, dwords := 2, firstBe := 15, lastBe := 15 } = false) := by
  unfold Accepted
  refine ⟨?_, ?_, ?_, ?_⟩ <;> decide +kernel

/-- The time base in a mode and a discipline state. -/
def tbIn (m : BitVec 2) (st : TbState) : State := { ready with tb := { ready.tb with mode := m, st := st } }

theorem wit_Time_base_discipline :
    (let s : State := { tbIn 2 .acquire with tb := { (tbIn 2 .acquire).tb with ppsGood := 9 } }
     awake s = true ∧ s.tb.mode = 2 ∧ s.tb.st = .acquire ∧ 9 ≤ s.tb.ppsGood ∧
       (ppsError (tbCapture (s.advance 100000) (-5)) (sext 16 (fld s.tb.disc 0 16))).natAbs ≤ 100) ∧
    (let s := tbIn 3 .locked
     awake s = true ∧ usesPps s.tb.mode = true ∧ uses10M s.tb.mode = true ∧ s.tb.st = .locked ∧
       ppsLim s.tb.disc * 1000 <
         (ppsError (tbCapture (s.advance (500 * 10 ^ 9)) 5) (sext 16 (fld s.tb.disc 0 16))).natAbs) ∧
    ((tbIn 1 .acquire).tb.mode = 1 ∧ (tbIn 1 .acquire).tb.st = .acquire) ∧
    (let s : State := { tbIn 3 .locked with tb := { (tbIn 3 .locked).tb with lastPps := some 0 } }
     s.tb.lastPps = some 0 ∧ 0 + 1500000000000 ≤ max s.now 1500000000000 ∧ usesPps s.tb.mode = true ∧ s.tb.st = .locked) ∧
    (tbIn 1 .holdover).tb.st = .holdover := by
  decide +kernel

/-- Source 0 is pending and unmasked, source 511 pending and masked; MSI-X is enabled. -/
def asking : State :=
  { ready with
    hp := { ready.hp with msixEn := true }
    irq := { ready.irq with pend := 1 ||| srcBit 511, mask := srcBit 511, msgs := [⟨0, 511⟩] } }

theorem wit_Interrupt_delivery :
    (awake asking = true ∧ asking.irq.msgs = [⟨0, 511⟩]) ∧
    (asking.irq.pend.getLsbD (0 : SrcId).val = true ∧ asking.irq.mask.getLsbD (0 : SrcId).val = false ∧
      asking.irq.active = none ∧ asking.hp.msixEn = true ∧ canMaster asking = true) ∧
    (let s := { asking with irq := { asking.irq with pend := srcBit 511, mask := 0 } }
     s.irq.pend.getLsbD (511 : SrcId).val = true ∧ s.irq.mask.getLsbD (511 : SrcId).val = false ∧
       s.irq.active = none ∧ canMaster s = true) ∧
    (let s := { asking with irq := { asking.irq with held := true, pba := srcBit 511 } }
     hostUp s = true ∧ s.hp.bme = true ∧ s.hp.d3hot = false ∧ s.irq.held = true ∧ s.irq.pba = srcBit 511 ∧
       s.hp.msixEn = true ∧ s.hp.funcMask = false) ∧
    (let s := { asking with irq := { asking.irq with
        held := true, pba := srcBit 0, table := tset asking.irq.table 0 { addr := 8, data := 9, masked := false } } }
     hostUp s = true ∧ s.irq.held = true ∧ s.irq.pba = srcBit 0 ∧ (tget s.irq.table 0).masked = false) ∧
    (let s := { asking with irq := { asking.irq with active := some 511 } }
     hostOk s = true ∧ s.irq.active = some (Fin.ofNat 512 (fld 511 0 9)) ∧
       s.irq.active ≠ some (Fin.ofNat 512 (fld 0 0 9)) ∧ asking.irq.active ≠ some (Fin.ofNat 512 (fld 0 0 9))) := by
  decide +kernel

theorem wit_Interrupt_lowest :
    ∀ m : SrcId, m < 511 → (srcBit 511).getLsbD m.val = true → (0 : BitVec 512).getLsbD m.val = true := by
  decide +kernel

theorem wit_Interrupt_masks_and_counters :
    hostOk ready = true ∧ (0 : BitVec 4) ≠ 15 ∧ (14 : BitVec 4) ≠ 15 ∧ 288 ≤ (288 : Word).toNat ∧ (288 : Word).toNat ≤ 511 ∧
      288 ≤ (511 : Word).toNat ∧ (511 : Word).toNat ≤ 511 := by
  decide +kernel

/-- The device out of reset, before its first boundary. -/
def starting : State := { ready with phase := .starting }

/-- The quiet window of the first epoch. -/
def quietEpoch : State := { ready with epc := { ready.epc with quiet := true } }

theorem wit_Epoch_boundary :
    starting.phase = .starting ∧
    (quietEpoch.phase = .running ∧ quietEpoch.epc.quiet = true ∧ quietEpoch.epc.start + 100000000 ≤ max quietEpoch.now 100000000 ∧
      quietEpoch.zl.roleIn = 0) ∧
    (quietEpoch.phase = .running ∧ max quietEpoch.now 99999999 < quietEpoch.epc.start + 100000000) := by
  decide +kernel

/-- A section that alone is due has its turn. -/
theorem turn {s : State} {n : SecId} (e : ∀ k, k ≠ n → (s.sec k).eval = .none) : itsTurn s n = true := by
  simp only [itsTurn, List.all_eq_true]
  intro k _
  by_cases h : k = n
  · simp [h]
  · simp [waits, e k h]

/-- Section 3 is due at a device in role 10. -/
def dueSec : State :=
  ({ ready with zl := { ready.zl with role := 2 } }).modSec 3 (fun x => { x with eval := .due })

theorem wit_Section_turn (t : Nat) : itsTurn (dueSec.advance t) 3 = true := by
  refine turn fun k h => ?_
  simp only [State.sec, State.advance, dueSec, State.modSec, tmod, tget_tset]
  rw [if_neg (by simpa using h)]
  simp only [ready, State.reset, tget_tabulate]
  rfl

/-- Section 3 served, with its working copy at CLEAR and in service. -/
def servedSec : State :=
  dueSec.modSec 3 (fun x => { x with
    eval := .served, priv := some (Priv.start { x.core with state := .clear, service := true }) })

theorem wit_Section_evaluation :
    (dueSec.phase = .running ∧ dueSec.epc.quiet = false ∧ intakeDone (dueSec.advance 2000000) = true ∧
      (dueSec.sec 3).eval = .due ∧ dueSec.zl.role = 2 ∧ freeEngines (dueSec.advance 2000000) = 16) ∧
    tooLate (dueSec.advance 69473500) (workLeft (evaluate (dueSec.advance 69473500) 3).work) = false ∧
    tooLate (dueSec.advance 69473501) (workLeft (evaluate (dueSec.advance 69473501) 3).work) = true ∧
    ((servedSec.sec 3).eval = .served ∧
      (servedSec.sec 3).priv = some (Priv.start { (dueSec.sec 3).core with state := .clear, service := true }) ∧
      sumNat (Priv.start { (dueSec.sec 3).core with state := .clear, service := true }).work = 0 ∧
      portOpen (servedSec.advance 69473499) = true ∧ tooLate (servedSec.advance 69473499) (workLeft []) = false ∧
      portOpen (servedSec.advance 69973500) = false) := by
  decide +kernel

/-- The ephemeris of section 3 in service, CLEAR, at epoch 0, in two halves and its CRC. -/
def eph3a : List Byte := [12, 1] ++ zeros 12 ++ [3, 0, 0, 0, 0, 1] ++ zeros 10
def eph3b : List Byte := zeros 10 ++ [90, 223] ++ zeros 18
def eph3 : List Byte := eph3a ++ eph3b ++ [23, 89, 7, 187]

/-- What it says. -/
def e3 : Eph :=
  { ephOf 3 0 (Section.reset 0) with service := true, state := .clear, cfgChk := 57178 }

theorem eph3_crc : crc32 (eph3a ++ eph3b) = word (field eph3 60 4) := by
  have a : (eph3a.flatMap byteBits).foldl crcBit 0xFFFFFFFF = 3463181153 := by decide +kernel
  rw [crc32, List.flatMap_append, crcBits, List.foldl_append, a]
  decide +kernel

theorem eph3_parse : Eph.parse eph3 = some e3 := by
  rw [Eph.parse, show slice eph3 0 60 = eph3a ++ eph3b by decide +kernel, if_pos eph3_crc]
  decide +kernel

/-- The set that carries it. -/
def msg3 : List Byte := zeros 192 ++ eph3 ++ zeros 768
def set3 : RxSet :=
  { epoch := 0, status := true, cover := some [], ldelta := [(0, [])], ldLast := some 0, eph := [(0, msg3)] }

/-- A standby that has the partner's set of this epoch: section 3 is due, and its ephemeris is that of a section in service. -/
def follower (f : Section → Section) : State :=
  ({ ready with zl := { ready.zl with
      link := .up, aligned := true
      rx := some set3 } }).modSec 3 (fun x => f { x with eval := .due })

/-- A partner's set with that ephemeris gives it. -/
theorem set3_eph {s : State} (h : s.zl.rx = some set3) : rxEph s 3 = some e3 := by
  have m : slice msg3 (64 * ((3 : SecId).val % 16)) 64 = eph3 := by decide +kernel
  exact rxEph_of h (k := 0) (m := msg3) rfl (by rw [m, eph3_parse]) ⟨rfl, rfl⟩

theorem follower_ready (f : Section → Section) (t : Nat) : setReady ((follower f).advance t) = true := rfl

theorem follower_adopts (f : Section → Section) (t : Nat) : adoptable ((follower f).advance t) 3 = some e3 := by
  rw [adoptable, follower_ready, if_pos rfl, set3_eph rfl]

/-- The working copy of section 3 as it adopts. -/
def adopting : State :=
  (follower id).modSec 3 (fun x => { x with
    eval := .served, priv := some { Priv.start { x.core with state := .clear, service := true } with adopted := true } })

theorem wit_Section_adoption :
    (follower id).zl.role ≠ 2 ∧
    (adoptable ((follower id).advance 2000000) 3 = some e3 ∧ e3.cfgChk = cfgChk ((follower id).sec 3) ∧
      rxDeltas ((follower id).advance 2000000) 3 = []) ∧
    (let s := follower (fun x => { x with cfg := 0x20 })
     adoptable (s.advance 2000000) 3 = some e3 ∧ e3.cfgChk ≠ cfgChk (s.sec 3)) ∧
    (let s : State := ready.modSec 3 (fun x => { x with eval := .due })
     adoptable (s.advance 40000000) 3 = none ∧ s.epc.start + 40000000 ≤ max s.now 40000000) ∧
    (∃ p, (adopting.sec 3).priv = some p ∧ p.adopted = true ∧ sumNat p.work = 0 ∧
      rxEph (adopting.advance 2000000) 3 = some e3) := by
  refine ⟨by decide, ⟨follower_adopts _ _, by decide +kernel, by decide +kernel⟩, ⟨follower_adopts _ _, by decide +kernel⟩,
    by decide +kernel, _, rfl, rfl, by decide, ?_⟩
  exact set3_eph rfl

/-- The ACCEPTED transit of an axle at head 5. -/
def axle (rev : Bool) (sig : List Byte) : Item :=
  { kind := .transit rev sig, head := hd, seq := 0, stamp := 0, at_ := 0 }

/-- Section 3 in service, bound to head 5, which counts forward passages in, with one item to be evaluated. -/
def evalSec (it : Item) (f : SecCore → SecCore) (cfg : Word) : State :=
  ready.modSec 3 (fun x => { x with
    cfg := cfg, bind := tset x.bind 0 0x8005, intake := [it], core := f { x.core with service := true } })

theorem wit_Count_rule :
    (let s := evalSec (axle false []) (fun c => { c with state := .clear, count := 32766 }) 0x10
     OneItem s 3 (axle false []) ∧ signOf (s.sec 3) hd = some false ∧ (s.sec 3).core.count < 32767 ∧
       secMode (s.sec 3).cfg ≠ 0 ∧ (s.sec 3).core.susp = false ∧ 0 ≤ (s.sec 3).core.count ∧
       (s.sec 3).core.ledger.length < 1024) ∧
    (let s := evalSec (axle false []) (fun c => { c with state := .occupied, count := 32767 }) 0x10
     OneItem s 3 (axle false []) ∧ signOf (s.sec 3) hd = some false ∧ (s.sec 3).core.count = 32767) ∧
    (let s := evalSec (axle true []) (fun c => { c with state := .clear, count := 0 }) 0x10
     OneItem s 3 (axle true []) ∧ signOf (s.sec 3) hd = some false ∧ -32767 < (s.sec 3).core.count ∧
       (s.sec 3).core.count ≠ 1) ∧
    (let s := evalSec (axle true []) (fun c => { c with state := .occupied, count := -32767 }) 0x10
     OneItem s 3 (axle true []) ∧ (s.sec 3).core.count = -32767) ∧
    (∀ st : SecState,
      let s := evalSec (axle true []) (fun c => { c with state := st, count := 1, nomatchEp := 16 }) 0x10020
      OneItem s 3 (axle true []) ∧ (s.sec 3).core.count = 1 ∧ (s.sec 3).core.state = st ∧ secMode (s.sec 3).cfg = 2 ∧
        (s.sec 3).core.susp = false ∧ fld (s.sec 3).cfg 12 4 < (s.sec 3).core.nomatchEp ∧
        secMode ((evalSec (axle true []) id 0x10).sec 3).cfg ≠ 2 ∧
        (axle true []).head.val = hd.val ∧ bindings (s.sec 3) = 1) := by
  unfold OneItem
  refine ⟨?_, ?_, ?_, ?_, fun st => by cases st <;> decide +kernel⟩ <;> decide +kernel

/-- Signatures of the magnet example: a wheel at entry, the wheel at exit, the magnet. -/
def wheelIn : List Byte := [0x1E, 0x3E, 0x55, 0x64, 0x6E, 0x71, 0x70, 0x6A, 0x5E, 0x4F, 0x3D, 0x1C, 0x72, 0x5A, 0x02, 0x8D]
def wheelOut : List Byte := [31, 63, 84, 101, 111, 112, 113, 105, 95, 78, 62, 27, 113, 90, 2, 0x8D]
def magnet : List Byte := [0x42, 0x46, 0x48, 0x4A, 0x4B, 0x4B, 0x4B, 0x4A, 0x49, 0x47, 0x45, 0x42, 0x4C, 0xFF, 0x00, 0xCE]

/-- A ledger entry with a signature, or a wildcard. -/
def entryOf (sig : List Byte) (wild : Bool) : Entry :=
  { sig := sig, head := hd, wildcard := wild, brake := false, epoch := 0 }

/-- Section 3 with two axles and a ledger, one of which leaves with a signature. -/
def leaving (sig : List Byte) (l : List Entry) : State :=
  evalSec (axle true sig) (fun c => { c with state := .occupied, count := 2, ledger := l }) 0x10

theorem wit_Match_rule :
    (∀ sig ∈ [wheelOut, []], ∀ l ∈ [[entryOf wheelIn false], [entryOf magnet false], [entryOf [] true],
        [entryOf magnet false, entryOf wheelIn false, entryOf magnet false]],
      OneItem (leaving sig l) 3 (axle true sig) ∧ signOf ((leaving sig l).sec 3) hd = some false ∧
        1 < ((leaving sig l).sec 3).core.count ∧ secMode ((leaving sig l).sec 3).cfg ≠ 0 ∧
        ((leaving sig l).sec 3).core.susp = false ∧ ((leaving sig l).sec 3).core.ledger = l) ∧
    usableSig 0x60A00060 [] = false ∧ usableSig 0x60A00060 wheelOut = true ∧
    ((leaving wheelOut []).sec 3).match_ = 0x60A00060 ∧
    entryDist wheelOut (entryOf wheelIn false) ≤ tolOf 0x60A00060 wheelOut (entryOf wheelIn false) ∧
    tolOf 0x60A00060 wheelOut (entryOf magnet false) < entryDist wheelOut (entryOf magnet false) := by
  unfold OneItem
  refine ⟨?_, ?_⟩ <;> decide +kernel

/-- In a ledger of three the middle entry alone is near: no end entry is. -/
theorem wit_Match_displaced (near : Entry → Prop) (a b : Entry) (ha : ¬ near a) (l3 l4 : List Entry) (z : Entry)
    (wild : Entry → Prop) (hw : ¬ wild a) (e : [a, b, a] = l3 ++ z :: l4)
    (h : (∀ x ∈ l3, wild x) ∨ (∀ x ∈ l4, wild x)) : ¬ near z := by
  match l3, l4, e with
  | [], _, e => simp at e; rw [← e.1]; exact ha
  | [x], [y], e => simp at e; exfalso; rcases h with h | h
                   · exact hw (e.1 ▸ h x (by simp))
                   · exact hw (e.2.2 ▸ h y (by simp))
  | [_, _], [], e => simp at e; rw [← e.2.2]; exact ha
  | [_], [], e => simp at e
  | [_], _ :: _ :: _, e => simp at e
  | [_, _], _ :: _, e => simp at e
  | _ :: _ :: _ :: l, _, e => simp at e

theorem wit_Fail_rule :
    (let s := (evalSec (axle false []) id 0x10).modSec 3 (fun x => { x with intake := [], cutOvf := true })
     (s.sec 3).core.service = true ∧ (s.sec 3).intakeCmd = [] ∧ (s.sec 3).cutOvf = true ∧ (s.sec 3).intake = []) ∧
    (∀ k ∈ [ItemKind.reject, .notice 7],
      OneItem (evalSec { axle false [] with kind := k } id 0x10) 3 { axle false [] with kind := k }) := by
  unfold OneItem
  decide +kernel

/-- Section 3 with one command to be applied. -/
def applying (op : SecOp) (service : Bool) (st : SecState) (f : Section → Section) : State :=
  ready.modSec 3 (fun x => f { x with
    intakeCmd := [{ op := op, job := none, at_ := 0, wr := none }]
    core := { x.core with service := service, state := st } })

theorem wit_Apply_rule :
    (∀ op ∈ [SecOp.service true, .service false, .disturb, .reset true, .reset false], ∀ service : Bool,
      ∀ st ∈ [SecState.clear, .disturbed],
      let s := applying op service st id
      (s.sec 3).intakeCmd = [{ op := op, job := none, at_ := 0, wr := none }] ∧ (s.sec 3).intake = [] ∧
        (s.sec 3).cutOvf = false ∧ (s.sec 3).core.service = service ∧ (s.sec 3).core.state = st ∧
        bindings (s.sec 3) = 0 ∧ (s.sec 3).cutFit = false) ∧
    (let s := applying (.service true) false .disturbed (fun x => { x with bind := tset x.bind 7 0x8105 })
     bindings (s.sec 3) ≠ 0) ∧
    (let s := applying (.reset true) true .disturbed (fun x => { x with
       cutFit := true, cfg := 0x00010010, cutQuiet := 100000 })
     (s.sec 3).cutFit = true ∧ quietMet (s.sec 3) (s.sec 3).cutQuiet = true ∧ (s.sec 3).cutWaits = false) ∧
    (let s := applying (.reset true) true .disturbed (fun x => { x with
       cutFit := true, cfg := 0x00010010, cutQuiet := 99999 })
     (s.sec 3).cutFit = true ∧ quietMet (s.sec 3) (s.sec 3).cutQuiet = false) := by
  decide +kernel

theorem wit_Evaluation_deadline :
    (servedSec.phase = .running ∧ servedSec.epc.quiet = false ∧ servedSec.epc.start + 70000000 ≤ max servedSec.now 70000000 ∧
      max servedSec.now 69999999 < servedSec.epc.start + 70000000 ∧ (servedSec.sec 3).eval = .served) ∧
    ((dueSec.modSec 255 (fun x => { x with eval := .committed })).sec 255).eval = .committed := by
  decide +kernel

theorem wit_Track_tick :
    (let s : State := { calm with epc := { calm.epc with tick := 9 } }
     s.phase = .running ∧ s.epc.tick < 10 ∧ s.epc.start + 10000000 * s.epc.tick ≤ max s.now 90000000 ∧
       ((s.head hd).flt.slice.get .sys1).settleHeld = false ∧
       ((s.head hd).flt.slice.get .sys1).settleStart < s.epc.start + 10000000 * s.epc.tick) ∧
    ((ready.head hd).flt.slice.get .sys2).settleHeld = true := by
  decide +kernel

/-- A frame with every code 11, without its build check. -/
def unchecked : Frame := { hdr := frameHdr 0 1, codes := Vector.replicate 256 3, check := 0 }

/-- That frame with its build check, or with the complement of it. -/
def closed (bad : Bool) : Frame :=
  { unchecked with check := laneCrc (withLane (copyBits unchecked []) 0) bad }

def plainRead : ReadInput :=
  { loadOld := false, period := 20000, low := 10000, stallAt := 0, stallFor := 0, near := [], flipped := [], padAt := none }

/-- The device with that frame latched. -/
def latched : State := { ready with vsp := { ready.vsp with frame := some (closed false) } }

theorem wit_Voter_read_check : buildBad (closed false) plainRead = false ∧ buildBad (closed true) plainRead = true := by
  have k : ∀ w : Word, (w != ~~~ w) = true := fun w => by
    refine bne_iff_ne.mpr fun e => ?_
    have := congrArg (·.getLsbD 0) e
    simp at this
  have c : ∀ b, copyBits (closed b) [] = copyBits unchecked [] := fun b => by simp only [copyBits, closed]
  constructor
  · rw [buildBad, plainRead, c]; simp only [closed, laneCrc, Bool.false_eq_true, if_false, bne_self_eq_false]
  · rw [buildBad, plainRead, c]; simp only [closed, laneCrc, if_true, k]

/-- A read in progress since 0, with every code CLEAR and its build check right or wrong. -/
def inRead (bad : Bool) : LaneRead :=
  { start := 0, period := 20000, low := 10000, stallAt := 0, stallFor := 0
    copy := (List.range 272).flatMap (fun _ => [false, true]), bad := bad, seq := 0, near := [], padAt := none }

/-- The device in that read on lane A, the latch of section 255 changed at an instant. -/
def reading (bad : Bool) : State :=
  (ready.modLane .a (fun x => { x with read := some (inRead bad) })).modSec 255 (fun x => { x with latchLog := [100000] })

theorem wit_Voter_read :
    (laneServes latched .a = true ∧ (latched.vsp.lane .a).read = none ∧
      loadFrame (latched.advance 1) plainRead = some (closed false) ∧ plainRead.flipped = []) ∧
    (∀ bad : Bool, ((reading bad).vsp.lane .a).read = some (inRead bad) ∧ (inRead bad).copy.length = 544 ∧
      (inRead bad).done ≤ max (reading bad).now 11520000 ∧ max (reading bad).now 11519999 < (inRead bad).done ∧
      (inRead bad).bad = bad ∧ ((reading bad).vsp.lane .a).crcFail = false ∧
      544 ≤ (inRead bad).launchedBy (max (reading bad).now 11519999)) ∧
    (((reading false).sec 0).latchLog = [] ∧ ((reading false).sec 255).latchLog = [100000] ∧
      100000 + 300 ≤ (inRead false).edge (543 + 1) - (inRead false).low ∧
      (inRead false).edge (0 + 1) - (inRead false).low + 300 ≤ 100000) := by
  refine ⟨⟨by decide +kernel, rfl, rfl, rfl⟩, fun bad => by cases bad <;> decide +kernel, by decide +kernel⟩

/-! ### Duplex, power, clocks -/

/-- Role 10 in the pins, not deposed, the claim won. -/
def driver : State :=
  { calm with zl := { calm.zl with pins := 2, roleIn := 2, deposed := false, claim := .won, holdOut := true } }

theorem wit_Role_input_and_depose :
    (let s : State := { ready with zl := { ready.zl with deposed := false } }
     s.zl.deposed = false ∧ s.zl.roleIn ≠ 2 ∧ s.phase ≠ .eclipse) ∧
    (ready.zl.deposed = true ∧ (3 : BitVec 2) ≠ 2 ∧ driver.zl.roleIn = 2 ∧ driver.zl.deposed = false ∧ awake driver = true) ∧
    (let s : State := { ready with zl := { ready.zl with pins := 2 } }
     s.zl.pins = 2 ∧ s.zl.roleIn ≠ 2 ∧ s.phase ≠ .eclipse) := by
  decide +kernel

/-- A claim that waits, and one that is being tried since time 0; head 5 listens unlocked. -/
def claiming (c : Claim) : State :=
  { (calm.modXsSlice hd .sys1 (fun v => { v with reg := .listen })) with
    zl := { ready.zl with pins := 2, roleIn := 2, deposed := false, claim := c, wantSince := some 0 } }

theorem wit_Excitation_interlock :
    (claiming .waiting).zl.claim = .waiting ∧
    ((claiming .waiting).pwr.aonHeld = false ∧
      ({ ready with pwr := { ready.pwr with aonHeld := true } } : State).pwr.aonHeld = true) ∧
    ((claiming .trying).zl.claim = .trying ∧ (claiming .trying).zl.claimAt + 100000 ≤ max (claiming .trying).now 100000 ∧
      awake (claiming .trying) = true ∧ (((claiming .trying).head hd).xs.slice.get .sys1).reg = .listen) ∧
    (awake (claiming .waiting) = true ∧ (claiming .waiting).zl.wantSince = some 0 ∧ (claiming .waiting).zl.claim ≠ .won ∧
      0 + 4000000 ≤ max (claiming .waiting).now 4000000) := by
  decide +kernel

theorem wit_Excitation_unlocked : unlockedSlices (claiming .trying) ≠ [] := by
  refine List.ne_nil_of_mem (a := (hd, Sys.sys1)) (List.mem_filter.mpr ⟨?_, by decide +kernel⟩)
  refine List.mem_flatMap.mpr ⟨hd, List.mem_finRange _, ?_⟩
  have r : inRun (claiming .trying) hd = true := by decide +kernel
  have u : Sys.sys1 ∈ usedSlices (claiming .trying) hd := by decide +kernel
  rw [if_pos r]
  exact List.mem_map.mpr ⟨_, u, rfl⟩

/-- A paired device whose link is in the given state. -/
def linked (l : LinkState) : State :=
  { calm with zl := { calm.zl with cfg := 0x00180001, link := l, deposed := false } }

theorem wit_Handover_marks :
    (let s := (linked .up).modXsSlice hd .sys2 (fun v => { v with reg := .listen })
     awake s = true ∧ handOverReady s = true ∧ ((s.head hd).xs.slice.get .sys2).reg = .listen ∧ inRun s hd = true ∧
       inUse s hd .sys2 = true ∧ ((s.head hd).flt.slice.get .sys2).mark = none ∧
       ((s.head hd).flt.slice.get .sys2).gap = none) ∧
    (let g : Gap := { start := 0, stop := none, unbridged := false, settled := true }
     let s := (linked .up).modFltSlice hd .sys1 (fun f => { f with mark := some 1000000, gap := some g })
     awake s = true ∧ ((s.head hd).flt.slice.get .sys1).mark = some 1000000 ∧
       ((s.head hd).flt.slice.get .sys1).inv = none ∧ ((s.head hd).flt.slice.get .sys1).gap = some g ∧
       g.stop = none ∧ g.unbridged = false ∧ max s.now 8000000 ≤ g.start + 8000000) := by
  decide +kernel

/-- What the partner's STATUS told. -/
def partner : PartnerStatus := { role := 2, ready := true, meas := 0, req := [], ahead := 3 }

theorem wit_Link_states_and_sending :
    ((linked .train).phase = .running ∧ (linked .train).zl.link = .train ∧ (linked .up).zl.link = .up ∧
      (linked .wait).zl.link = .wait) ∧
    (let s := (linked .up).modSec 255 (fun x => { x with core := { x.core with service := true } })
     (s.sec 255).core.service = true) ∧
    (let s : State := { linked .up with zl := { (linked .up).zl with statusMiss := 4 } }
     s.zl.link = .up ∧ 4 ≤ s.zl.statusMiss) ∧
    (let s : State := { linked .up with zl := { (linked .up).zl with partner := some partner, alignRun := 16 } }
     s.zl.partner = some partner ∧ s.zl.aligned = false ∧ s.zl.role ≠ 2 ∧ s.zl.link = .up ∧ 16 ≤ s.zl.alignRun) ∧
    ((linked .wait).zl.sent = false ∧ (linked .wait).epc.start + 1000000 ≤ max (linked .wait).now 1000000 ∧
      (linked .wait).zl.setRole ≠ 2) ∧
    ({ linked .up with zl := { (linked .up).zl with sent := true } } : State).zl.sent = true ∧
    ({ linked .up with zl := { (linked .up).zl with doorbells := [288, 511] } } : State).zl.doorbells = [288, 511] ∧
    (hostOk (linked .up) = true ∧ 288 ≤ fld 288 0 9 ∧ 288 ≤ fld 511 0 9) := by
  decide +kernel

/-- A message of a generation and epoch with a payload. -/
def message (gen : BitVec 16) (p : List Nat) : LinkMsg :=
  { part := 0, last := true, gen := gen, epoch := 0, payload := p.map (BitVec.ofNat 8) }

theorem wit_Link_receiving :
    (let s : State := { linked .wait with zl := { (linked .wait).zl with upCount := 1 } }
     let m := message 0 (List.replicate 32 0)
     s.phase = .running ∧ s.zl.link = .wait ∧ m.gen = s.aon.gen ∧ 1 ≤ s.zl.upCount ∧ m.payload.length = 32) ∧
    (let m := message 0 (List.replicate 1024 0)
     m.gen = (linked .up).aon.gen ∧ m.payload.length = 1024 ∧ (linked .up).zl.link = .up ∧ inSet m ((linked .up).advance 40000000) = true ∧
       inSet m ((linked .up).advance 40000001) = false) ∧
    ((message 0 (List.replicate 2048 0)).payload.length = 2048 ∧ (message 0 []).payload.length ≠ 2048 ∧
      16 ≤ (message 0 ([255] ++ List.replicate 15 0)).payload.length) ∧
    ((linked .up).zl.role ≠ 2 ∧ field (message 0 ([255] ++ List.replicate 15 0)).payload 0 2 = (255 : SecId).val) ∧
    ((message 0 (b2 288)).payload.length = 2 ∧ 288 ≤ field (message 0 (b2 288)).payload 0 2 ∧ field (message 0 (b2 511)).payload 0 2 ≤ 511) ∧
    (message 0x8000 (List.replicate 1024 0)).payload.length = 1024 ∧
    32768 ≤ ((message 0x8000 (List.replicate 1024 0)).gen - (linked .up).aon.gen).toNat ∧
    32768 ≤ ((message 0xFFFF []).gen - (linked .up).aon.gen).toNat := by
  decide +kernel

/-- Head 5, the one head in RUN, driven since 5, with a flag that spoils the drive interval at an instant. -/
def driven (spoil : Nat) : State :=
  ({ driver with zl := { driver.zl with driveFrom := some 5 } } : State).modXs hd (fun b => { b with spoilAt := spoil })

theorem driven_other (k : Nat) {g : HeadId} (e : g ≠ hd) : (driven k).head g = Head.reset := by
  have d : ∀ z, ({ calm with zl := z } : State).head g = Head.reset := fun z => by
    show calm.head g = _
    simp [calm, live, State.modCmp, State.modFlt, State.modXs, State.modXsSlice, State.modFe, modHead_head_other _ _ _ _ e,
      ready_head]
  simp only [driven, State.modXs, modHead_head_other _ _ _ _ e]
  exact d _

theorem wit_Drive_interval : drivesAll (driven 5) = true ∧ drivesAll (driven 6) = true ∧
    ∀ h : HeadId, inRun (driven 5) h = true → ((driven 5).head h).xs.spoilAt + 10000000000000 ≤ max (driven 5).now 10000000000005 := by
  have r : ∀ k g, g ≠ hd → inRun (driven k) g = false := fun k g e => by
    rw [inRun, driven_other k e]
    rfl
  have a : ∀ k, (usedSlices (driven k) hd).all (stageOn (driven k) hd) = true → drives (driven k) = true →
      drivesAll (driven k) = true := fun k u d => by
    simp only [drivesAll, d, Bool.true_and, List.all_eq_true]
    intro g _
    by_cases e : g = hd
    · rw [e, u, Bool.or_true]
    · rw [r k g e]
      rfl
  refine ⟨a 5 (by decide +kernel) rfl, a 6 (by decide +kernel) rfl, fun h i => ?_⟩
  by_cases e : h = hd
  · rw [e]
    decide +kernel
  · rw [r 5 h e] at i
    contradiction

theorem wit_Link_commands_and_drive_age :
    (let c := cmd [3, 0x18, 0, 0]
     Accepted 0x0280 false 4 0 c (ready.advance 1) ∧
       zlSetRefused ((field c.payload 0 1).testBit 0) ((field c.payload 0 1).testBit 1) ready = false ∧
       (field c.payload 0 1).testBit 0 = true ∧ ready.zl.link = .down ∧ ready.pwr.linkUp = true ∧
       (let s : State := { ready with zl := { ready.zl with role := 2 } }
        Accepted 0x0280 false 4 0 c (s.advance 1) ∧
          zlSetRefused ((field c.payload 0 1).testBit 0) ((field c.payload 0 1).testBit 1) s = true)) ∧
    (let c := cmd [0, 255, 0, 0]
     Accepted 0x0280 false 4 0 c (ready.advance 1) ∧ (field c.payload 0 1).testBit 0 = false) ∧
    Accepted 0x0281 false 0 48 (cmd []) (ready.advance 1) ∧
    (awake (driven 0) = true ∧ (driven 0).zl.driveFrom = some 5 ∧ max (driven 0).now 10000000000004 < 5 + 10000000000000 ∧
      5 + 10000000000000 ≤ max (driven 0).now 10000000000005 ∧ inRun (driven 6) hd = true ∧
      max (driven 6).now 10000000000005 < ((driven 6).head hd).xs.spoilAt + 10000000000000) ∧
    (max ready.now 3599999999999999 < ready.aon.hourAt + 3600000000000000 ∧
      ready.aon.hourAt + 3600000000000000 ≤ max ready.now 3600000000000000 ∧ drivesAll ready = false ∧
      ready.zl.driveFrom = none) ∧
    (let s : State := { ready with aon := { ready.aon with driveAge := 23 } }
     awake s = true ∧ s.aon.driveAge < max 1 (fld s.zl.cfg 16 8) ∧
       max 1 (fld s.zl.cfg 16 8) ≤ min (s.aon.driveAge + 1) 65535) := by
  unfold Accepted
  decide +kernel

/-- Section 9 is bound to head 5. -/
def bound5 : State := calm.modSec 9 (fun x => { x with bind := tset x.bind 0 0x8005, latch := false })

theorem wit_Supply_monitors :
    (awake bound5 = true ∧ dieOf hd = 0 ∧ dieUp bound5 0 = true ∧ boundTo hd (bound5.sec 9) = true ∧ dieUp bound5 7 = true) ∧
    (ready.phase ≠ .reset ∧ ({ ready with phase := .eclipse } : State).phase ≠ .reset) ∧
    (let s : State := { ready with rcd := { ready.rcd with lastWrite := some 0 } }
     s.rcd.lastWrite = some 0 ∧ 0 + 20000000 ≤ max s.now 20000000 ∧ MemInv s ∧
       128 * ((s.aon.next + 2 ^ 32 - 1) % 2 ^ 32 % 262144) = 128 * 262143) := by
  unfold MemInv
  decide +kernel

theorem wit_Resets :
    (ready.phase = .running ∧ starting.phase = .starting) ∧
    (awake ready = true ∧ ready.epc.start + 1000000000 ≤ max ready.now 1000000000) ∧ State.reset.phase = .reset ∧
    max ready.now 999999999 < ready.epc.start + 1000000000 ∧
    (let s : State := { ready with phase := .eclipse, ecl := { ready.ecl with since := 999000000 } }
     s.phase = .eclipse ∧ max s.now 1001000000 ≤ s.ecl.since + 2000000 ∧ s.epc.start + 1000000000 ≤ max s.now 1001000000 ∧
       s.ecl.since + 2000000 < max s.now 1001000001) := by
  decide +kernel

theorem wit_Start_up_and_field_power :
    (let i : StartInput := { supplyOk := 0x7F, eclipseLow := false }
     State.reset.phase = .reset ∧ State.reset.pwr.coreHeld = false ∧ State.reset.pwr.aonHeld = false ∧
       i.eclipseLow = false ∧ ({ State.reset with pwr := { Pwr.reset with coreHeld := true } } : State).pwr.coreHeld = true) ∧
    (let c := cmd [0x81, 0, 1, 0]
     Accepted 0x02B0 true 4 0 c (bound5.advance 1) ∧ field c.payload 1 1 = 0 ∧ (field c.payload 0 1).testBit (7 : DieId).val = true ∧
       (field c.payload 0 1).testBit (0 : DieId).val = true ∧
       fldTest bound5 (BitVec.ofNat 8 (field c.payload 0 1)) 0 (decide (field c.payload 2 1 % 2 = 1)) = 0 ∧
       dieUp bound5 7 = true ∧ bound5.pwr.on.getLsbD (7 : DieId).val = true ∧ boundTo hd (bound5.sec 9) = true) ∧
    (let c := cmd [0, 0, 0, 0]
     Accepted 0x02B0 true 4 0 c (ready.advance 1) ∧ field c.payload 1 1 = 0 ∧
       fldTest ready (BitVec.ofNat 8 (field c.payload 0 1)) 0 (decide (field c.payload 2 1 % 2 = 1)) ≠ 0) ∧
    (let s : State := { ready with pwr := { ready.pwr with goingOff := 0x80, fldEn := 0x7F } }
     awake s = true ∧ s.pwr.goingOff.getLsbD (7 : DieId).val = true ∧ s.pwr.fldEn.getLsbD (7 : DieId).val = false) ∧
    (let s : State := { ready with pwr := { ready.pwr with inReset := 0x01 } }
     mayReleaseDie (s.advance 1) 0 = true ∧ dieOf 31 = 0 ∧ dieOf 32 ≠ 0) ∧
    Accepted 0x02B1 false 0 32 (cmd []) (ready.advance 1) := by
  unfold Accepted
  decide +kernel

theorem wit_Clock_supervision :
    (let c := cmd (b4 0x6401)
     Accepted 0x02C0 true 4 0 c (ready.advance 1) ∧ clkTest ready (word (field c.payload 0 4)) = 0) ∧
    (let c := cmd (b4 0x6501)
     Accepted 0x02C0 true 4 0 c (ready.advance 1) ∧ clkTest ready (word (field c.payload 0 4)) ≠ 0) ∧
    (awake ready = true ∧ 100 * fld ready.clk.cfg 8 8 < (-2001 : Int).natAbs ∧ (linked .up).zl.link = .up ∧
      (tbIn 3 .locked).tb.refOk = ready.tb.refOk ∧ (-32767 : Int).natAbs ≤ 32767) ∧
    ({ ready with tb := { ready.tb with refOk := false } } : State).tb.refOk = false ∧
    (let s : State := { tbIn 3 .locked with
       tb := { (tbIn 3 .locked).tb with refOk := true }, clk := { ready.clk with hclkOk := true } }
     s.clk.hclkOk = true ∧ s.tb.refOk = true ∧ uses10M s.tb.mode = true ∧ s.tb.st = .locked) ∧
    (let s : State := { ready with clk := { ready.clk with zSeen := true } }
     bit s.clk.cfg 0 = true ∧ s.clk.zlock = false ∧ s.clk.zSeen = true) := by
  unfold Accepted
  decide +kernel

/-! ### Eclipse, recorder, host port, the machine -/

theorem wit_Eclipse_entry :
    awake ready = true ∧ State.reset.phase = .reset ∧
    (let s : State := { ready with phase := .eclipse, ecl := { ready.ecl with since := 1000 } }
     s.phase = .eclipse ∧ max s.now 2001000 ≤ s.ecl.since + 2000000 ∧ s.ecl.since + 2000000 < max s.now 2001001) ∧
    (let c := cmd (b4 0x0EC11950)
     Accepted 0x02D0 false 4 0 c (ready.advance 1) ∧ bit ready.ecl.cfg 0 = true ∧ word (field c.payload 0 4) = 0x0EC11950) ∧
    (let c := cmd (b4 0x0EC11951)
     Accepted 0x02D0 false 4 0 c (ready.advance 1) ∧ word (field c.payload 0 4) ≠ 0x0EC11950) ∧
    bit ({ ready with ecl := { ready.ecl with cfg := 0 } } : State).ecl.cfg 0 = false := by
  unfold Accepted
  decide +kernel

/-- A device in eclipse with a path selected. -/
def dark (p : BitVec 48) : State := { ready with phase := .eclipse, tap := { ready.tap with path := p } }

theorem wit_Tap_instructions :
    ready.phase ≠ .reset ∧ ready.phase ≠ .eclipse ∧ (dark 0).phase = .eclipse ∧
    pathOk (dark 0x365811000006).tap.path = true ∧
    cellOff ((dark 0x365811000006).advance 1) (dark 0x365811000006).tap.path = false ∧
    pathOk (dark 0x365811000007).tap.path = false ∧ pathOk (dark 0xFFFFFFFFFFFF).tap.path = false ∧
    (let s : State := { dark 0x365811000000 with pwr := { ready.pwr with on := 0xF7 } }
     s.phase = .eclipse ∧ pathOk s.tap.path = true ∧ cellOff (s.advance 1) s.tap.path = true) := by
  decide +kernel

/-- REC_CLEAR with E_TOK 0 and a token. -/
def clearCmd (tok : List Byte) : Cmd := { cmd [] with plen := 16, payload := zeros 8 ++ tok }

/-- The device with the customer key of 32 bytes 01 and recorder nonce 0. -/
def keyed : State := { ready with key := some (List.replicate 32 1), rcd := { ready.rcd with nonce := 0 } }

theorem wit_Recorder_commands :
    Accepted 0x02A0 false 16 0 (cmd (List.replicate 16 255)) (ready.advance 1) ∧
    (let c := cmd ([16, 0, 0, 0] ++ List.replicate 64 0)
     Accepted 0x02A1 false 68 0 c (ready.advance 1) ∧ ready.rcd.raised = [] ∧ field c.payload 0 1 ≤ 16 ∧
       ∀ i, i < field c.payload 0 1 → (regView ready (field c.payload (4 + 4 * i) 4)).isSome = true) ∧
    (let c := cmd ([17, 0, 0, 0] ++ List.replicate 64 0)
     Accepted 0x02A1 false 68 0 c (ready.advance 1) ∧ 16 < field c.payload 0 1) ∧
    (let c := cmd (b4 0xFFFFFFFF ++ b4 8192)
     Accepted 0x02A2 true 8 20 c (ready.advance 1) ∧ RingInv ready ∧ 1 ≤ field c.payload 4 2 ∧
       field c.payload 4 2 ≤ 8192 ∧ min (field c.payload 4 2) (recDist (readStart ready 0xFFFFFFFF) ready.aon.next) ≤ 20) ∧
    (let c := cmd (b4 4 ++ b4 21)
     let s : State := { ready with aon := { ready.aon with next := 25 } }
     Accepted 0x02A2 true 8 20 c (s.advance 1) ∧ RingInv s ∧ readStart s (field c.payload 0 4) = 4 ∧
       min (field c.payload 4 2) (recDist 4 s.aon.next) = 21 ∧
       min 20 (recDist (readStart s 5) s.aon.next) = 20) ∧
    (let c := cmd (b4 0 ++ b4 0)
     Accepted 0x02A2 true 8 20 c (ready.advance 1) ∧ field c.payload 4 2 = 0) ∧
    (Accepted 0x02A3 true 16 0 (clearCmd (zeros 8)) (ready.advance 1) ∧ ready.key = none) := by
  unfold Accepted RingInv ringOk
  refine ⟨?_, ?_, ?_, ?_, ?_, ?_, ?_⟩ <;> decide +kernel

theorem wit_Recorder_clear :
    keyed.key = some (List.replicate 32 1) ∧ keyed.rcd.raised = [] ∧ tokenWindow keyed 0 = true ∧
    (let c := clearCmd (zeros 8)
     Accepted 0x02A3 true 16 0 c (keyed.advance 1) ∧ field c.payload 0 6 = 0 ∧
       slice c.payload 8 8 ≠ token (List.replicate 32 1) 0x02A3 0 (field c.payload 0 6) keyed.rcd.nonce) ∧
    (let c := clearCmd (token (List.replicate 32 1) 0x02A3 0 0 0)
     Accepted 0x02A3 true 16 0 c (keyed.advance 1) ∧
       slice c.payload 8 8 = token (List.replicate 32 1) 0x02A3 0 (field c.payload 0 6) keyed.rcd.nonce) := by
  unfold Accepted
  refine ⟨?_, ?_, ?_, ?_, ?_⟩ <;> decide +kernel

/-- A trigger of class 14. -/
def mark14 : Trigger :=
  { cls := 14, source := 0xFFFF, detail := 5, epoch := 0, tbGen := 0, tbTime := 0, role := 0 }

/-- That trigger is raised, with so many records waiting, in a mode without coalescing. -/
def raising (waiting : Nat) : State :=
  { ready with rcd := { ready.rcd with
      cfg := 1, raised := [mark14], staging := List.replicate waiting (plainEntry ready 0x20 0) } }

theorem wit_Recorder_triggers :
    (awake (raising 31) = true ∧ (raising 31).rcd.raised = [mark14] ∧ fld (raising 31).rcd.cfg 0 2 = 1 ∧
      fld (raising 31).rcd.cfg 16 16 = 0 ∧ bit (raising 31).rcd.eclEn 14 = false ∧ stageFill (raising 31) < 32 ∧
      32 ≤ stageFill (raising 32)) ∧
    (let s : State := { ready with rcd := { ready.rcd with cfg := 2, period := 0 }, epc := { ready.epc with seq := 100 } }
     s.phase = .running ∧ fld s.rcd.cfg 0 2 = 2 ∧ s.rcd.raised = [] ∧
       s.rcd.survey.startSeq + 100 * max 1 (fld s.rcd.period 0 16) ≤ s.epc.seq) ∧
    (hostOk ready = true ∧ bit ready.rcd.trigEn 14 = true ∧ reachable ready (0 : Word).toNat = false ∧
      reachable ({ ready with aon := { ready.aon with next := 1 } } : State) (0 : Word).toNat = true) := by
  decide +kernel

/-- An open EVENT record of number `n`. -/
def openRec (n : Nat) : OpenRec :=
  { recno := n, cls := 14, source := 0xFFFF, detail := 5, rep := 2, lastEp := 7, latest := 7, opened := 0, wroteBack := 0 }

theorem wit_Recorder_writing :
    (let s : State := { raising 1 with
       rcd := { (raising 1).rcd with lastWrite := some 0, open_ := some (openRec 0xFFFFFFFF) }
       aon := { ready.aon with next := 0 } }
     awake s = true ∧ MemInv s ∧ s.rcd.staging = [plainEntry ready 0x20 0] ∧ mayWrite (s.advance 20000000) = true ∧
       mayWrite (s.advance 19999999) = false ∧ s.rcd.open_ = some (openRec 0xFFFFFFFF)) ∧
    (let s : State := { ready with rcd := { ready.rcd with open_ := some (openRec 0) }, epc := { ready.epc with seq := 108 } }
     s.rcd.open_ = some (openRec 0) ∧ (openRec 0).latest + fld s.rcd.cfg 16 16 < s.epc.seq) := by
  unfold MemInv
  decide +kernel

theorem wit_Completion_of_a_command :
    Accepted 0x0001 false 0 0 (cmd []) (ready.advance 1) ∧ (∀ e ∈ ready.hp.inflight, e.admSeq ≠ ready.hp.admSeq) := by
  unfold Accepted
  decide +kernel

/-- A command in progress on orbit 3. -/
def running3 (long : Bool) : InFlight :=
  { opcode := 0x0210, tag := 0, orbit := 3, cmdIdx := 0, rlen := 0, raddr := 0, epochAdm := 0, admSeq := 900, long := long,
    lost := false }

/-- The device with commands in progress on orbit 3. -/
def busyWith (n : Nat) (long : Bool) : State :=
  { ready with hp := { ready.hp with inflight := List.replicate n (running3 long), admSeq := 1000 } }

theorem wit_Host_port_checks :
    (let c : Cmd := { cmd [] with fence := true, orbit := 3 }
     let s := busyWith 1 true
     commandShape (.hpWrite 1 c) = some (0x0003, false, 8, 0, c) ∧ admissible 0x0003 c (s.advance 1) = false ∧
       orbitReady c.orbit s = true ∧ (s.orbit (cmdOrbit c.orbit)).waiting = none ∧ fenceHolds c s = true) ∧
    (let c := cmd (List.replicate 8 0)
     let s := (busyWith 8 true).modOrbit 0 (fun o => { o with
       waiting := some { opcode := 0x0003, desc := { descOf c with tag := 8 } } })
     commandShape (.hpWrite 1 c) = some (0x0003, false, 8, 0, c) ∧ admissible 0x0003 c (s.advance 1) = false ∧
       ({ descOf c with tag := 8 } : Cmd) ≠ descOf c) ∧
    (let c := cmd (List.replicate 23 0)
     commandShape (.feRoute 1 c) = some (0x0210, true, 24, 0, c) ∧ admissible 0x0210 c (ready.advance 1) = true ∧
       c.plen.toNat < 24) ∧
    (let c := cmd (List.replicate 24 0)
     commandShape (.feRoute 1 c) = some (0x0210, true, 24, 0, c) ∧ 24 ≤ c.plen.toNat ∧
       admissible 0x0210 c ((busyWith 64 false).advance 1) = true ∧ 64 ≤ (busyWith 64 false).hp.inflight.length ∧
       ((busyWith 64 false).hp.inflight.filter (·.long)).length < 8 ∧
       admissible 0x0210 c ((busyWith 8 true).advance 1) = true ∧
       8 ≤ ((busyWith 8 true).hp.inflight.filter (·.long)).length) ∧
    (let c : Cmd := { cmd [0, 0] with rlen := 95 }
     commandShape (.secStatus 1 c) = some (0x0265, false, 2, 96, c) ∧
       admissible 0x0265 c ((busyWith 63 false).advance 1) = true ∧
       2 ≤ c.plen.toNat ∧ (busyWith 63 false).hp.inflight.length < 64 ∧ c.rlen.toNat < 96) := by
  refine ⟨⟨rfl, ?_⟩, ⟨rfl, ?_⟩, ⟨rfl, ?_⟩, ⟨rfl, ?_⟩, ⟨rfl, ?_⟩⟩ <;> decide +kernel

/-- A sealed device. -/
def sealedDev : State := { ready with hp := { ready.hp with isSealed := true } }

theorem wit_Host_port_commands :
    (Accepted 0x0002 false 0 0 (cmd []) (ready.advance 1) ∧ ready.hp.isSealed = false ∧
      Accepted 0x0002 false 0 0 (cmd []) (sealedDev.advance 1) ∧ sealedDev.hp.isSealed = true) ∧
    (let c := cmd (b4 0x14 ++ b4 0)
     Accepted 0x0003 false 8 0 c (ready.advance 1) ∧ Accepted 0x0003 false 8 0 c (sealedDev.advance 1) ∧
       (regView ready (field c.payload 0 4)).isNone = true) ∧
    (let c := cmd (b4 0x4700C ++ b4 0xFFFFFFFF)
     Accepted 0x0003 false 8 0 c (ready.advance 1) ∧ field c.payload 0 4 = 0x4700C) ∧
    (Accepted 0x0004 false 0 32 { cmd [] with rlen := 32 } (ready.advance 1) ∧
      admissible 0xFFFF (cmd []) (ready.advance 1) = true) := by
  unfold Accepted
  decide +kernel

theorem wit_Host_register_accesses :
    hostOk ready = true ∧ bit (1 : Word) 0 = true ∧ (0x5EA10000 : Word) ≠ 0x5EA10001 ∧ ready.hp.muted = none ∧
    regView ready 0x14 = none ∧ regView ready 0x7FFFFC = none ∧ (14 : BitVec 4) ≠ 15 ∧
    (hostOk sealedDev = true ∧ sealedDev.hp.isSealed = true ∧ (0 : Word) &&& 0xFFFF ≠ sealedDev.epc.cfg ∧
      sealedDev.epc.cfg &&& 0xFFFF = sealedDev.epc.cfg ∧ sealedDev.hp.muted = none) := by
  decide +kernel

theorem wit_Sealed_set_up_is_kept :
    sealedDev.hp.isSealed = true ∧ hostAccess (.registerWrite 1 .bar0 0x4700C 5 15 1) = true ∧
    hostAccess (.feRouteCtrlGo 1 hd 0x80000001 15) = true ∧ hostOk (sealedDev.advance 1) = true ∧
    sealedDev.hp.muted = none ∧ (regView (sealedDev.advance 1) 0x4700C).isSome = true ∧
    (regView (sealedDev.advance 1) 0x100000).isSome = true ∧ bit (0x7FFFFFFC : Word) 31 = false ∧
    fld (0x7FFFFFFC : Word) 0 2 = fld (sealedDev.head hd).fe.routeCtrl 0 2 := by
  decide +kernel

/-- Orbit 8 with one posted buffer that holds a record of epoch 0, in epoch 1. -/
def posted8 (b : Buf) : State :=
  (({ ready with epc := { ready.epc with seq := 1 } }).modOrbit 8 (fun o => { o with posted := [b], hostIdx := 1 }))

theorem wit_Orbits_and_doorbells :
    hostOk ready = true ∧
    (let s := ready.modOrbit 15 (fun o => { o with cfg := 0x06 })
     orbCfgTest s 15 0x00000110 = 0 ∧ bit (0x110 : Word) 8 = true ∧ (s.orbit 15).en = false ∧ hostOk s = true) ∧
    (orbCfgTest ready 0 0x105 ≠ 0 ∧ orbCfgTest ready 14 0x111 ≠ 0 ∧ (14 : Fin 16) ≠ 15) ∧
    (let s := busyWith 1 false
     orbCfgTest s 7 0x006 ≠ 0 ∧ (s.orbit 7).en = true ∧ bit (0x006 : Word) 8 = false ∧ mayDisable s 7 = false) ∧
    ((ready.orbit 0).en = true ∧ (0 : Fin 16).val < 8 ∧ doorbellFlags 0 (ready.orbit 0) 64 = 0 ∧
      doorbellFlags 0 (ready.orbit 0) 65 ≠ 0 ∧ doorbellFlags 7 (ready.orbit 7) 0 = 0 ∧ doorbellFlags 7 (ready.orbit 7) 1 ≠ 0) ∧
    (let s := ready.modOrbit 14 (fun o => { o with cfg := 0x06 })
     hostOk s = true ∧ (s.orbit 14).en = false) ∧
    (let b : Buf := { addr := 0x100, len := 64, used := 64, first := some 0 }
     let s := posted8 b
     s.phase = .running ∧ (s.orbit 8).posted = [b] ∧ b.first = some 0 ∧ (s.orbit 8).en = true ∧
       (s.orbit 8).halt = false ∧ canMaster s = true ∧ 0 + fld (s.orbit 8).cfg 24 8 < s.epc.seq) := by
  decide +kernel

theorem wit_Function_resets_and_dma_errors :
    orbitReady 0 ready = true ∧ orbitReady 3 ready = true ∧ (ready.orbit (cmdOrbit 0)).waiting = none ∧
    (ready.orbit (cmdOrbit 3)).waiting = none ∧ admissible 0x0003 (cmd [0]) (ready.advance 1) = true ∧
    hostOk ready = true ∧ awake ready = true ∧ hostUp ready = true ∧ ready.hp.d3hot = false ∧
    (let s : State := { ready with hp := { ready.hp with d3hot := true } }
     awake s = true ∧ hostUp s = true ∧ s.hp.d3hot = true) := by
  decide +kernel

/-- A device whose queue holds a command that writes no recorder memory. -/
def queued (i : Instr) : State := { keyed with pending := [i] }

theorem wit_Every_step_keeps_the_memory_canonical :
    (∃ u, step (queued (.recTrigger 1)) = .next u) ∧ MemInv (queued (.recTrigger 1)) ∧ RingInv (queued (.recTrigger 1)) ∧
      (queued (.recTrigger 1)).pending = .recTrigger 1 :: [] ∧ writesRecorder (.recTrigger 1) = false :=
  ⟨⟨_, rfl⟩, by unfold MemInv; decide, by unfold RingInv ringOk; decide, rfl, rfl⟩

theorem wit_Key_is_programmed_once :
    (let c := cmd (List.replicate 32 1)
     Accepted 0x0266 true 32 0 c (ready.advance 1) ∧ ready.hp.isSealed = false ∧ ready.key = none ∧
       Accepted 0x0266 true 32 0 c (served.advance 1) ∧ served.hp.isSealed = false ∧ served.key = some (List.replicate 32 1) ∧
       (let s := { ready with hp := { ready.hp with isSealed := true } }
        Accepted 0x0266 true 32 0 c (s.advance 1) ∧ s.hp.isSealed = true)) ∧
    (∃ u, exec (.secKeyProgram 1 (cmd (List.replicate 32 1))) ready = .next u ∧ u.key ≠ ready.key) ∧
    (queued (.aonPowerOnReset 1)).key = some (List.replicate 32 1) ∧ ∃ u, step (queued (.aonPowerOnReset 1)) = .next u := by
  unfold Accepted
  exact ⟨by decide +kernel, ⟨_, rfl, by decide +kernel⟩, rfl, ⟨_, rfl⟩⟩

theorem wit_Software_moves_no_section_towards_clear :
    fromSoftware (.registerWrite 1 .bar0 0x200000 0x11 15 1) = true ∧
      ∃ u, exec (.registerWrite 1 .bar0 0x200000 0x11 15 1) ready = .next u ∧ (u.sec 0).latch = true := by
  exact ⟨rfl, ⟨_, rfl, by decide +kernel⟩⟩

/-- The device in eclipse. -/
def eclipsed : State := { ready with phase := .eclipse }

theorem wit_Core_reset_and_eclipse_stop_the_rest :
    State.reset.phase = .reset ∧ actsInReset (.registerWrite 1 .bar0 0x20 0x5EA10001 15 1) = false ∧
      actsInReset (.epochWatchdog 1) = false ∧ eclipsed.phase = .eclipse ∧ (∀ l, (eclipsed.vsp.lane l).read = none) ∧
      (ready.phase ≠ .eclipse ∧ ∃ u, exec (.eclipseRequest 1) ready = .next u ∧ u.phase = .eclipse) ∧
      (∃ u, exec (.eclRead 1) eclipsed = .next u ∧ u.phase = .eclipse) ∧
      (∃ u, exec (.supplyMonitorTrip 1 .vserUv) eclipsed = .next u ∧ u.phase = .eclipse) :=
  ⟨rfl, rfl, rfl, rfl, fun l => by cases l <;> rfl, ⟨by decide, _, rfl, rfl⟩, ⟨_, rfl, rfl⟩, ⟨_, rfl, rfl⟩⟩

theorem wit_Head_events_stay_on_their_head :
    headEvent (.presenceAssert 1 255 .sys2 160) = some 255 ∧
      ∃ u, exec (.presenceAssert 1 255 .sys2 160) ready = .next u := ⟨rfl, ⟨_, rfl⟩⟩

/-! ### Ill-formed commands are refused -/

/-- A payload shorter than PLEN. -/
theorem test_wf_payload : Instr.wf (.hpWrite 1 { cmd [0, 0] with plen := 3 }) = false ∧ Instr.wf (.hpWrite 1 (cmd [0, 0])) = true := by
  decide

theorem test_wf_byte_enables : Instr.wf (.irqEoi 1 0 0) = false ∧ Instr.wf (.irqEoi 1 0 8) = true := by decide

theorem test_wf_go : Instr.wf (.feRouteCtrlGo 1 0 0x7FFFFFFF 15) = false ∧ Instr.wf (.feRouteCtrlGo 1 0 0x80000000 15) = true := by
  decide

theorem test_wf_register_write :
    Instr.wf (.registerWrite 1 .bar0 2 0 15 1) = false ∧ Instr.wf (.registerWrite 1 .bar0 0 0 15 0) = false ∧
    Instr.wf (.registerWrite 1 .bar0 0x800000 0 15 1) = false ∧ Instr.wf (.registerWrite 1 .bar2 0x10000 0 15 1) = false ∧
    Instr.wf (.registerWrite 1 .bar0 0 0 0 1) = false ∧ Instr.wf (.registerWrite 1 .bar2 0xFFFC 0 15 1) = true ∧
    Instr.wf (.registerWrite 1 .bar4 0x4000 0 15 1) = false ∧ Instr.wf (.registerWrite 1 .bar4 0 0 15 2) = false := by
  decide +kernel

/-- A read that does not cover the register of its row, or leaves BAR0. -/
theorem test_wf_bus_read :
    Instr.wf (.epcSeqLoRead 1 ⟨0x47004, 1, 15, 0⟩) = false ∧ Instr.wf (.tbNowLoRead 1 ⟨0x49FFC, 1, 15, 0⟩) = false ∧
    Instr.wf (.tbEpochLoRead 1 ⟨0x4A006, 2, 15, 15⟩) = false ∧ Instr.wf (.tbEpochLoRead 1 ⟨0x4A000, 4, 15, 15⟩) = true := by
  decide +kernel

/-- BYPASS with the code of another instruction, a cell of the chain named twice, a capture error above 5 ns, a bad opcode
that is a row of the table. -/
theorem test_wf_others :
    Instr.wf (.bypass 1 0x22) = false ∧ Instr.wf (.bypass 1 0xFF) = true ∧
    Instr.wf (.extest 1 [(.role1, true), (.role1, false)]) = false ∧ Instr.wf (.extest 1 [(.role1, true), (.role0, true)]) = true ∧
    Instr.wf (.ppsEdge 1 6) = false ∧ Instr.wf (.ppsEdge 1 (-5)) = true ∧
    Instr.wf (.commandBadOpcode 1 0x0210 (cmd [])) = false ∧ Instr.wf (.commandBadOpcode 1 0x0211 (cmd [])) = (rowOf 0x0211).isNone ∧
    Instr.wf (.dmaReadError 1 (.payload 0x0210 (cmd []))) = false ∧
    Instr.wf (.dmaReadError 1 (.payload 0x0210 (cmd [0]))) = true := by
  decide +kernel

/-- A boundary that samples only leakages, drivers and dies. -/
def sampling (leaks : List LeakSample) (drives : List DriveSample) (dies : List DieSample) : BoundaryInput :=
  { edgesA := 0, edgesB := 0, edgesC := 0, leaks := leaks, listens := [], drives := drives, dies := dies, holdIn := false,
    stuck := [], linkPm := .l0 }

/-- Two leakage samples of one head; a driver or a die beyond its register's range. -/
theorem test_wf_boundary :
    Instr.wf (.epochBoundary 1 (sampling [⟨7, 1⟩, ⟨7, 2⟩] [] [])) = false ∧
    Instr.wf (.epochBoundary 1 (sampling [⟨7, 1⟩, ⟨8, 2⟩] [] [⟨7, 511, 65535⟩])) = true ∧
    Instr.wf (.epochBoundary 1 (sampling [] [⟨7, .sys1, 1024, 0, 0, false⟩] [])) = false ∧
    Instr.wf (.epochBoundary 1 (sampling [] [] [⟨7, 512, 0⟩])) = false ∧
    Instr.wf (.epochBoundary 1 (sampling [] [] [⟨7, 0, 0⟩, ⟨7, 1, 0⟩])) = false := by
  decide +kernel

theorem test_wf_tick :
    Instr.wf (.trackTick 1 ⟨1024, [], [⟨7, .sys1, []⟩, ⟨7, .sys1, [true]⟩]⟩) = false ∧
    Instr.wf (.trackTick 1 ⟨1024, [(0, 1), (0, 2)], []⟩) = false ∧
    Instr.wf (.trackTick 1 ⟨1024, [], [⟨7, .sys1, []⟩, ⟨7, .sys2, [true]⟩]⟩) = true := by
  decide

theorem test_wf_vital_read :
    Instr.wf (.vspRead 1 .a { plainRead with flipped := [576] }) = false ∧
    Instr.wf (.vspRead 1 .a { plainRead with period := 19999 }) = false ∧
    Instr.wf (.vspRead 1 .a { plainRead with low := 20001 }) = false ∧
    Instr.wf (.vspRead 1 .a { plainRead with near := [544] }) = false ∧
    Instr.wf (.vspRead 1 .a plainRead) = true := by
  decide +kernel

theorem test_wf_message :
    Instr.wf (.ephMessage 1 { message 0 [] with part := 256 }) = false ∧
    Instr.wf (.ephMessage 1 { message 0 [] with epoch := 2 ^ 48 }) = false ∧ Instr.wf (.ephMessage 1 (message 0 [])) = true := by
  decide

/-! ### Worked examples of the manual -/

/-- Axle 2 of the high-speed example: its quantities of R154 and its stamp, with t0 as 0. -/
def axle2 : Passage :=
  { Passage.begin 0 true with
    spacing := 140, val := 0x14190032, valb := 0x000C0046, len := 0x0190001E, lenb := 0x012C003C
    edges := ⟨{ Edges.none with te := some 325000, tx := some 347572, peak := 472 },
              { Edges.none with te := some 342540, tx := some 365088, peak := 448 }⟩ }

theorem test_measure_axle2 :
    (measure axle2).dt = 17528 ∧ (measure axle2).speed = 28753 ∧ (measure axle2).acc = 1025 ∧
      (measure axle2).len1 = 180 ∧ (measure axle2).len2 = 180 ∧ (measure axle2).stamp = 345050 ∧
      validate axle2 (measure axle2) none = 0 := by
  decide +kernel

theorem test_distances :
    sigDist wheelOut wheelIn false = 14 ∧ sigDist magnet wheelIn false = 1036 ∧ sigDist magnet wheelIn true = 1036 ∧
      brakeSig magnet = true ∧ brakeSig wheelIn = false ∧ usableSig 0x60A00060 wheelIn = true := by
  decide +kernel

/-- The header of lanes A, B and C in epoch 0x318C21 at role 10. -/
theorem test_frame_header :
    frameHdr 2 0x318C21 = 0x8A318C21 ∧ withLane (msb 32 (frameHdr 2 0x318C21).toNat) 1 = msb 32 0x9A318C21 ∧
      withLane (msb 32 (frameHdr 2 0x318C21).toNat) 2 = msb 32 0xAA318C21 := by
  decide +kernel

/-- SHA-256 of "abc" (FIPS 180-4, which R188 names). -/
theorem test_sha : sha256 [0x61, 0x62, 0x63] =
    [0xBA, 0x78, 0x16, 0xBF, 0x8F, 0x01, 0xCF, 0xEA, 0x41, 0x41, 0x40, 0xDE, 0x5D, 0xAE, 0x22, 0x23,
     0xB0, 0x03, 0x61, 0xA3, 0x96, 0x17, 0x7A, 0x9C, 0xB4, 0x10, 0xFF, 0x61, 0xF2, 0x00, 0x15, 0xAD] := by
  decide +kernel

/-- The CRC of "123456789" (R220). -/
theorem test_crc : crc32 [0x31, 0x32, 0x33, 0x34, 0x35, 0x36, 0x37, 0x38, 0x39] = 0xFC891918 := by decide +kernel

/-- The path of the CIC cells of SYS2 of H101 on FD3. -/
theorem test_path :
    pathOk 0x365811000000 = true ∧ pathDie 0x365811000000 = 3 ∧ pathHead 0x365811000000 = 0x65 ∧
      pathSlice 0x365811000000 = 2 ∧ pathStage 0x365811000000 = 0x011 ∧ pathCell 0x365811000000 = 0 := by
  decide +kernel

/-- No word spells a command, for the table gives no row bits. -/
theorem test_no_words : decodeTableWord 32 0xFFFFFFFF = none ∧ ∀ s : State, s.withFetchWord 16 1 = s := ⟨rfl, fun _ => rfl⟩

end Sys2Proof.Tests
end

section
/-! SUPPORT. The reads of the vital status port (R133, R213 to R221): a lane's copy of the frame, the gated code bits and
the CRC that it launches, and how a read starts, completes and aborts. Settles O31. -/
namespace Sys2Proof.Machine

/-! ### Bits, flags and lanes -/

@[simp] theorem msb_length (n v : Nat) : (msb n v).length = n := by simp [msb]

theorem laneIdx_lt (l : Lane) : laneIdx l < 3 := by cases l <;> decide

theorem bit_bits_one {k : Nat} (h : k < 32) : bit (bits k 1) k = true := by
  have fits : 2 ^ k < 4294967296 := Nat.pow_lt_pow_right (by decide) h
  simp [bit, bits, put, Nat.mod_eq_of_lt fits]

section
variable (s : State) (flags : Word)
theorem flagVsp_vsp : (flagVsp flags s).vsp = { s.vsp with fault := s.vsp.fault ||| flags } :=
  (vsp_of_device (flagVsp_device s flags) :)
@[simp] theorem flagVsp_fault : (flagVsp flags s).vsp.fault = s.vsp.fault ||| flags := by rw [flagVsp_vsp]
@[simp] theorem flagVsp_frame : (flagVsp flags s).vsp.frame = s.vsp.frame := by rw [flagVsp_vsp]
@[simp] theorem flagVsp_lane (l : Lane) : (flagVsp flags s).vsp.lane l = s.vsp.lane l := by
  rw [flagVsp_vsp]; cases l <;> rfl
@[simp] theorem flagVsp_sections : (flagVsp flags s).sections = s.sections :=
  (sections_of_device (flagVsp_device s flags) :)
end

@[simp] theorem setLane_frame (v : Vsp) (l : Lane) (x : LaneSt) : (v.setLane l x).frame = v.frame := by cases l <;> rfl

/-! ### The copy (R214, R218) -/

theorem frameBits_length (hdr : Word) (codes : Vector (BitVec 2) 256) : (frameBits hdr codes.toList).length = 544 := by
  rw [frameBits, List.length_append, List.length_flatMap]
  simp only [msb_length, List.map_const', List.sum_replicate, Vector.length_toList, smul_eq_mul]

theorem copyBits_length (f : Frame) (flipped : List Nat) : (copyBits f flipped).length = 544 := by
  simp [copyBits, frameBits_length]

theorem copyBits_sound (f : Frame) : copyBits f [] = frameBits f.hdr f.codes.toList :=
  List.ext_getElem? fun i => by simp [copyBits]

/-- LANE is the only field of the copy that a lane replaces (R218). -/
theorem withLane_parts {b : List Bool} (n : Nat) (h : 4 ≤ b.length) :
    (withLane b n).length = b.length ∧ (withLane b n).take 2 = b.take 2 ∧ ((withLane b n).drop 2).take 2 = msb 2 n ∧
      (withLane b n).drop 4 = b.drop 4 := by
  have h2 : (b.take 2).length = 2 := by rw [List.length_take]; omega
  have h4 : (b.take 2 ++ msb 2 n).length = 4 := by rw [List.length_append, h2, msb_length]
  refine ⟨?_, ?_, ?_, ?_⟩
  · rw [withLane, List.length_append, h4, List.length_drop]; omega
  · rw [withLane, List.append_assoc, List.take_left' h2]
  · rw [withLane, List.append_assoc, List.drop_left' h2, List.take_left' (msb_length 2 n)]
  · rw [withLane, List.drop_left' h4]

/-! ### Gated code bits (R133, R136) -/

theorem gateCode_length (a b : Bool) (t : Bool × Bool) : (gateCode a b t).length = 2 := by
  unfold gateCode; split <;> rfl

/-- Gating acts on a CLEAR code, bit by bit, and on no other code. -/
theorem gateCode_eq (a b x y : Bool) : gateCode a b (x, y) =
    if [a, b] = [false, true] ∨ [a, b] = [true, false] then
      List.zipWith (fun c trip => c && !trip) [a, b] [x, y] else [a, b] := by
  cases a <;> cases b <;> rfl

section
variable (s : State) (r : LaneRead)

theorem gateCodes_length (n : Nat) (l : List Bool) : (gateCodes s r n l).length = l.length := by
  induction n, l using gateCodes.induct with
  | case1 n a b rest ih => simp only [gateCodes, List.length_append, gateCode_length, ih, List.length_cons]; omega
  | case2 n l short => rw [gateCodes]; exact short

/-- The codes from section `n + k` on are gated as those of that section. -/
theorem gateCodes_drop (k n : Nat) (l : List Bool) :
    (gateCodes s r n l).drop (2 * k) = gateCodes s r (n + k) (l.drop (2 * k)) := by
  induction k generalizing n l with
  | zero => rfl
  | succ k ih =>
    match l with
    | [] => simp [gateCodes]
    | [a] => simp [gateCodes, Nat.mul_succ]
    | a :: b :: rest =>
      rw [gateCodes, show 2 * (k + 1) = 2 + 2 * k by omega, ← List.drop_drop, List.drop_left' (gateCode_length ..), ih,
        ← List.drop_drop, show n + 1 + k = n + (k + 1) by omega]
      rfl

variable {r}

theorem launched_length (h : r.copy.length = 544) : (launched s r).length = 544 := by
  simp [launched, gateCodes_length, h]

/-- The two code bits that a lane launches for a section. -/
theorem launched_code (h : r.copy.length = 544) (n : SecId) {code : List Bool}
    (hc : (r.copy.drop (32 + 2 * n.val)).take 2 = code) :
    ((launched s r).drop (32 + 2 * n.val)).take 2 =
      if code = [false, true] ∨ code = [true, false] then
        List.zipWith (fun b trip => b && !trip) code
          [tripSample s r n (32 + 2 * n.val), tripSample s r n (33 + 2 * n.val)]
      else code := by
  have header : (r.copy.take 32).length = 32 := by rw [List.length_take]; omega
  have codes : (launched s r).drop (32 + 2 * n.val) = gateCodes s r n.val (r.copy.drop (32 + 2 * n.val)) := by
    rw [launched, ← List.drop_drop, List.drop_left' header, gateCodes_drop, Nat.zero_add, List.drop_drop]
  have left : 2 ≤ (r.copy.drop (32 + 2 * n.val)).length := by rw [List.length_drop]; omega
  rw [codes, ← hc]
  match r.copy.drop (32 + 2 * n.val), left with
  | a :: b :: rest, _ =>
    have num : Fin.ofNat 256 n.val = n := Fin.ext (Nat.mod_eq_of_lt n.isLt)
    rw [gateCodes, List.take_left' (gateCode_length ..), num, gateCode_eq]
    rfl

/-! ### The bits of a whole read (R217, R220) -/

variable (l : Lane)

theorem readBits_take (h : r.copy.length = 544) : (readBits s l r).take 544 = launched s r :=
  List.take_left' (launched_length s h)

theorem readBits_drop (h : r.copy.length = 544) : (readBits s l r).drop 544 =
    msb 32 (laneCrc ((readBits s l r).take 544) (r.bad || (s.vsp.lane l).crcFail)).toNat := by
  rw [readBits_take s l h]; exact List.drop_left' (launched_length s h)

theorem readBits_length (h : r.copy.length = 544) : (readBits s l r).length = 576 := by
  simp [readBits, launched_length s h]

/-- The code bits of a section stand in the read as they are launched. -/
theorem readBits_code (h : r.copy.length = 544) (n : SecId) :
    ((readBits s l r).drop (32 + 2 * n.val)).take 2 = ((launched s r).drop (32 + 2 * n.val)).take 2 := by
  rw [← readBits_take s l h, List.drop_take, List.take_take, Nat.min_eq_left (by omega)]
end

theorem launchedBy_le (r : LaneRead) (now : Nat) : r.launchedBy now ≤ 576 :=
  (List.length_filter_le _ _).trans_eq List.length_range

/-! ### How a read starts and ends (R213, R215, R221) -/

/-- A build-check mismatch is flagged once all bits of the copy are launched. -/
theorem readFlags_bad (l : Lane) {r : LaneRead} {n : Nat} (h : r.bad = true) (hn : 544 ≤ n) :
    bit (readFlags l r n) (12 + laneIdx l) = true := by
  have := laneIdx_lt l
  simp [readFlags, h, hn, bit_bits_one (show 12 + laneIdx l < 32 by omega)]

section
variable {s : State} {l : Lane} {r : LaneRead}

theorem abortRead_idle (h : (s.vsp.lane l).read = none) : abortRead l s = s := by
  simp [abortRead, endRead, h]

/-- A read that is already complete is not aborted. -/
theorem abortRead_complete (h : (s.vsp.lane l).read = some r) (hd : r.done ≤ s.now) :
    abortRead l s = flagVsp (readFlags l r 576) (s.modLane l (fun x => { x with
      read := none, bits := readBits s l r, lastSeq := r.seq, complete := (x.complete + 1) % 65536
      crcFail := false })) := by
  simp [abortRead, endRead, h, hd]

/-- A read that is not complete is aborted: the bits launched so far stay, and so does the armed failure. -/
theorem abortRead_early (h : (s.vsp.lane l).read = some r) (hd : s.now < r.done) :
    abortRead l s = flagVsp (readFlags l r (r.launchedBy s.now) ||| bits (16 + laneIdx l) 1)
      (s.modLane l (fun x => { x with
        read := none, bits := (readBits s l r).take (r.launchedBy s.now), aborted := (x.aborted + 1) % 256 })) := by
  simp [abortRead, endRead, h, Nat.not_le.mpr hd]

/-- A read of an enabled lane that is idle loads the lane's copy. -/
theorem vspRead_starts {i : ReadInput} {f : Frame} (idle : (s.vsp.lane l).read = none) (on : laneServes s l = true)
    (load : loadFrame s i = some f) :
    vspRead l i s = s.modLane l (fun x => { x with
      read := some (startRead s l f i), loaded := x.loaded || !loadsOld s i }) := by
  simp [vspRead, abortRead_idle idle, on, load]
end

/-! ### The sample of a trip latch (R136) -/

@[simp] theorem advance_tripSample (t : Nat) (s : State) (r : LaneRead) (n : SecId) (k : Nat) :
    tripSample (s.advance t) r n k = tripSample s r n k := rfl

section
variable {s : State} {n : SecId} (r : LaneRead) (k : Nat)

theorem tripSample_steady (h : (s.sec n).latchLog = []) : tripSample s r n k = (s.sec n).latch := by
  simp [tripSample, sampleLatch, latchThen, h]

/-- A latch that changed 0.3 ns before the edge or earlier samples as it is now. -/
theorem tripSample_after {c : Nat} (h : (s.sec n).latchLog = [c]) (hc : c + 300 ≤ r.sampleEdge k) :
    tripSample s r n k = (s.sec n).latch := by
  have far : ¬ r.sampleEdge k < c + 300 := by omega
  have past : ¬ r.sampleEdge k < c := by omega
  simp [tripSample, sampleLatch, latchThen, h, far, past]

/-- A latch that changed 0.3 ns after the edge or later samples as it was before the change. -/
theorem tripSample_before {c : Nat} (h : (s.sec n).latchLog = [c]) (hc : r.sampleEdge k + 300 ≤ c) :
    tripSample s r n k = !(s.sec n).latch := by
  have far : ¬ c < r.sampleEdge k + 300 := by omega
  have ahead : r.sampleEdge k < c := by omega
  simp [tripSample, sampleLatch, latchThen, h, far, ahead]
end

/-! ### O31 -/

/-- Settles O31, by the three ways of a read: it starts with the lane's copy, completes once bit 575 is launched, or is
aborted before; and by what the trip latches sample as. -/
theorem voterRead : Obligations.Voter_read := by
  unfold Obligations.Voter_read
  intro t s l
  have lane := laneIdx_lt l
  refine ⟨fun i f on idle load => ?starts, fun r hr len => ⟨fun done => ?completes, fun early => ?aborts⟩,
    fun r n k => ⟨tripSample_steady r k, fun c hc => ⟨tripSample_after r k hc, tripSample_before r k hc⟩⟩⟩
  case starts =>
    have four : 4 ≤ (copyBits f i.flipped).length := by rw [copyBits_length]; omega
    obtain ⟨copyLen, copyHead, copyLane, copyTail⟩ := withLane_parts (laneIdx l) four
    refine ⟨_, startRead (s.advance t) l f i, congrArg Host.Outcome.next (vspRead_starts idle on load), by simp, rfl, rfl,
      rfl, copyLen.trans (copyBits_length ..), copyLane, fun sound => ?_, rfl, by simp, by simp, by simp⟩
    rw [sound, copyBits_sound] at copyHead copyTail
    simp only [startRead, copyHead, copyTail, sound, copyBits_sound]
  case completes =>
    have crc := readBits_drop (s.advance t) l len
    refine ⟨_, congrArg Host.Outcome.next (abortRead_complete hr done), by simp,
      by simpa using readBits_length _ l len, by simp, by simp, by simp, fun good unarmed => ?_, fun failing => ?_,
      fun bad => ?_, fun n => ?_, by simp, by simp⟩
    · simpa [good, unarmed, laneCrc] using crc
    · have flip : (r.bad || (s.vsp.lane l).crcFail) = true := by simpa using failing
      simpa [flip, laneCrc] using crc
    · simp [readFlags_bad l bad]
    · simpa using (readBits_code _ l len n).trans (launched_code (s.advance t) len n rfl)
  case aborts =>
    refine ⟨_, congrArg Host.Outcome.next (abortRead_early hr early), by simp, ?_, by simp, by simp, by simp, ?_,
      fun bad all => ?_, by simp, by simp⟩
    · simpa [readBits_length _ l len] using launchedBy_le r _
    · simp [bit_bits_one (show 16 + laneIdx l < 32 by omega)]
    · have flagged := readFlags_bad l bad all
      simp [State.advance, flagged]

end Sys2Proof.Machine
end

section
/-! SUPPORT. What leaves the customer key alone (R189): every operation of every unit, the core die's reset and the AON
power-on reset among them, and so every command but SEC_KEY_PROGRAM. -/
namespace Sys2Proof.Machine

/-! ### Branches and loops -/

@[simp] theorem key_ite {p : Prop} [Decidable p] (a b : State) :
    (if p then a else b).key = if p then a.key else b.key := apply_ite State.key p a b

@[simp] theorem foldOver_key {α : Type} {f : α → State → State} (l : List α) (keep : ∀ a s, (f a s).key = s.key)
    (s : State) : (foldOver l f s).key = s.key := foldOver_keeps (g := State.key) keep s

theorem eq_or_of_ite_eq_some {α : Type} {p : Prop} [Decidable p] {a u : α} {o : Option α}
    (e : (if p then some a else o) = some u) : a = u ∨ o = some u := by
  split at e
  · exact .inl (Option.some.inj e)
  · exact .inr e

/-! ### The shared operations -/

section
variable (s : State) (k : Fin 16) (opcode : BitVec 16) (c : Cmd) (st : Status) (detail : Nat)
@[simp] theorem draw_key : s.draw.2.key = s.key := (rfl)
@[simp] theorem whenAwake_key {f : State → State} (keep : ∀ s, (f s).key = s.key) : (whenAwake f s).key = s.key := by
  simp [whenAwake, keep]
@[simp] theorem whenRunning_key {f : State → State} (keep : ∀ s, (f s).key = s.key) :
    (whenRunning f s).key = s.key := by
  simp [whenRunning, keep]
@[simp] theorem whenHost_key {f : State → State} (keep : ∀ s, (f s).key = s.key) : (whenHost f s).key = s.key := by
  simp [whenHost, keep]
@[simp] theorem raise_key (n : Nat) : (raise n s).key = s.key := key_of_device (raise_device ..)
@[simp] theorem trig_key (cls source : Nat) (detail : Word) : (trig cls source detail s).key = s.key :=
  key_of_device (trig_device ..)
@[simp] theorem orbFault_key (flags : Word) : (orbFault k flags s).key = s.key := key_of_device (orbFault_device ..)
@[simp] theorem handBack_key (b : Buf) (flags : Nat) : (handBack k b flags s).key = s.key :=
  key_of_device (handBack_device ..)
@[simp] theorem offer_key (bytes : List Byte) : (offer k bytes s).1.key = s.key := key_of_device (offer_device ..)
@[simp] theorem hpErr_key (cause : Nat) (bar2 : Bool) (off : Nat) (val : Word) :
    (hpErr cause bar2 off val s).key = s.key :=
  key_of_device (hpErr_device ..)
@[simp] theorem complete_key (seq : Nat) (resp : List Byte) : (complete seq st detail resp s).key = s.key :=
  key_of_device (complete_device ..)
@[simp] theorem completeJob_key (job : Option Nat) : (completeJob job st detail s).key = s.key :=
  key_of_device (completeJob_device ..)
@[simp] theorem admitCmd_key (long : Bool) : (admitCmd opcode long c s).key = s.key :=
  key_of_device (admitCmd_device ..)
@[simp] theorem holdBack_key : (holdBack opcode c s).key = s.key := key_of_device (holdBack_device ..)
end

section
variable {opcode : BitVec 16} {long : Bool} {need rneed : Nat} {c : Cmd} {body : Nat → State → State} {s : State}
/-- A command row changes the key only where its body does. -/
theorem command_key_of (keep : (body s.hp.admSeq (admitCmd opcode long c s)).key = s.key) :
    (command opcode long need rneed c body s).key = s.key := by
  rcases command_cases opcode long need rneed c body s with e | ⟨st, d, e⟩ | e
  · rw [e, holdBack_key]
  · rw [e, complete_key, admitCmd_key]
  · rw [e, keep]
@[simp] theorem command_key (keep : ∀ seq s, (body seq s).key = s.key) :
    (command opcode long need rneed c body s).key = s.key :=
  command_key_of ((keep _ _).trans (admitCmd_key ..))
end

/-! ### Flags -/

section
variable (s : State) (n : Nat) (h : HeadId) (flags : Word)
@[simp] theorem flagHead_key (r : HeadReg) : (flagHead r h flags s).key = s.key := by simp [flagHead, countEvents]
@[simp] theorem flagFe_key : (flagFe h n s).key = s.key := by simp [flagFe]
@[simp] theorem flagXs_key : (flagXs h n s).key = s.key := by simp [flagXs]
@[simp] theorem flagFlt_key : (flagFlt h n s).key = s.key := by simp [flagFlt]
@[simp] theorem flagCmp_key : (flagCmp h n s).key = s.key := by simp [flagCmp]
@[simp] theorem flagTrn_key : (flagTrn h n s).key = s.key := by simp [flagTrn]
@[simp] theorem announce_key (src cls : Nat) (old new : Word) : (announce src cls old new s).key = s.key :=
  key_of_device (announce_device ..)
@[simp] theorem flagVsp_key : (flagVsp flags s).key = s.key := by simp [flagVsp]
@[simp] theorem flagZl_key : (flagZl n s).key = s.key := by simp [flagZl]
@[simp] theorem flagEpc_key : (flagEpc flags s).key = s.key := by simp [flagEpc]
@[simp] theorem flagClk_key : (flagClk flags s).key = s.key := by simp [flagClk]
@[simp] theorem flagTb_key : (flagTb n s).key = s.key := by simp [flagTb]
@[simp] theorem flagRec_key : (flagRec n s).key = s.key := by simp [flagRec]
@[simp] theorem flagSec_key (n : SecId) (k : Nat) : (flagSec n k s).key = s.key := by simp [flagSec]
end

/-! ### Heads -/

section
variable (s : State) (h : HeadId) (x : Sys) (r : StreamRec) (reason : Nat)
@[simp] theorem endEpisode_key : (endEpisode h s).key = s.key := by unfold endEpisode; split <;> simp
@[simp] theorem pushItem_key (it : Item) (n : SecId) : (pushItem it n s).key = s.key := by
  unfold pushItem
  split <;> simp
@[simp] theorem activity_key : (activity h s).key = s.key := by simp [activity]
@[simp] theorem headNotice_key : (headNotice h reason s).key = s.key := by simp [headNotice]
@[simp] theorem faultNotice_key : (faultNotice h s).key = s.key := by simp [faultNotice]
@[simp] theorem changeNotice_key : (changeNotice h s).key = s.key := by simp [changeNotice]
@[simp] theorem setLatches_key : (setLatches h s).key = s.key := by simp [setLatches]
@[simp] theorem withLines_key {f : State → State} (keep : ∀ s, (f s).key = s.key) : (withLines h f s).key = s.key := by
  simp [withLines, keep]
@[simp] theorem anchorSlice_key : (anchorSlice h x s).key = s.key := by simp [anchorSlice]
@[simp] theorem loseLock_key : (loseLock h x s).key = s.key := by simp [loseLock]
@[simp] theorem holdSettle_key : (holdSettle h x s).key = s.key := by simp [holdSettle]
@[simp] theorem restartSettle_key : (restartSettle h x s).key = s.key := by simp [restartSettle]
@[simp] theorem releaseSettle_key : (releaseSettle h x s).key = s.key := by simp [releaseSettle]
@[simp] theorem onBoth_key {f : Sys → State → State} (keep : ∀ a s, (f a s).key = s.key) :
    (onBoth f s).key = s.key := by
  simp [onBoth, keep]
@[simp] theorem countDrop_key : (countDrop r s).key = s.key := by
  simp only [countDrop]
  repeat' split
  all_goals simp
@[simp] theorem offerRec_key : (offerRec r s).key = s.key := by simp [offerRec]
@[simp] theorem queueRec_key : (queueRec r s).key = s.key := by simp [queueRec]
@[simp] theorem issue_key (i : Issued) : (issue h i s).key = s.key := by
  simp [issue, surveyPassage, countPassage, deliverPassage, recordPassage]
@[simp] theorem abortHead_key : (abortHead h reason s).key = s.key := by simp only [abortHead]; split <;> simp
@[simp] theorem wiringFault_key : (wiringFault h x s).key = s.key := by simp [wiringFault]
@[simp] theorem closeWindow_key : (closeWindow h s).key = s.key := by simp [closeWindow]
@[simp] theorem realign_key : (realign h s).key = s.key := by simp [realign]
@[simp] theorem restartHead_key : (restartHead h s).key = s.key := by simp [restartHead]
@[simp] theorem swapDone_key (w : Swap) : (swapDone h w s).key = s.key := by simp [swapDone]
@[simp] theorem endSwaps_key : (endSwaps h s).key = s.key := by
  simp only [endSwaps]
  repeat' split
  all_goals simp
@[simp] theorem completeRoute_key : (completeRoute h s).key = s.key := by simp [completeRoute]
@[simp] theorem completeChange_key : (completeChange h s).key = s.key := by unfold completeChange; split <;> simp
@[simp] theorem afterRegulated_key : (afterRegulated h x s).key = s.key := by simp only [afterRegulated]; split <;> simp
end

/-! ### Operands of the commands -/

section
variable (seq : Nat) (s : State)
@[simp] theorem refuse_key (st : Status) (code : Nat) : (refuse seq st code s).key = s.key := by simp [refuse]
@[simp] theorem done_key : (done seq s).key = s.key := by simp [done]
@[simp] theorem withHead_key (i rangeCode : Nat) {f : HeadId → State → State} (keep : ∀ h s, (f h s).key = s.key) :
    (withHead p i rangeCode seq f s).key = s.key := by
  unfold withHead
  split <;> simp [keep]
end

/-! ### Front end -/

section
variable (s : State) (h : HeadId) (x : Sys) (d : DieId) (g : Fin 4) (p : List Byte) (seq code : Nat) (w : Sweep)
  (ovr cm : Bool)
@[simp] theorem feRefuse_key (seq : Option Nat) (st : Status) : (feRefuse h seq st code s).key = s.key := by
  simp [feRefuse]
@[simp] theorem forceSlice_key : (forceSlice h x s).key = s.key := by simp [forceSlice]
@[simp] theorem admitRoute_key (r : RouteCfg) (job : Option Nat) : (admitRoute h r job s).key = s.key := by
  simp [admitRoute, rampOff]
@[simp] theorem feRoute_key : (feRoute p seq s).key = s.key := by
  simp only [feRoute]
  repeat' split
  all_goals simp
@[simp] theorem routeCtrlWrite_key (v : Word) : (routeCtrlWrite h v s).key = s.key := by
  simp only [routeCtrlWrite]
  repeat' split
  all_goals simp
@[simp] theorem leakEval_key (was : Bool) : (leakEval h was s).key = s.key := by simp [leakEval]
@[simp] theorem feBiasSet_key : (feBiasSet p seq s).key = s.key := by
  unfold feBiasSet
  refine withHead_key (keep := fun h s => ?_) ..
  dsimp only
  repeat' split
  all_goals simp
@[simp] theorem routeBreak_key : (routeBreak h s).key = s.key := by simp only [routeBreak]; split <;> simp
@[simp] theorem retune_key : (retune h x s).key = s.key := by simp [retune, lowerEnvbw, bankFollow, dropNotches]
@[simp] theorem makeSlice_key : (makeSlice h x s).key = s.key := by simp [makeSlice]
@[simp] theorem routeMake_key : (routeMake h s).key = s.key := by unfold routeMake; split <;> simp
@[simp] theorem routeAfterBreak_key : (routeAfterBreak h s).key = s.key := by
  simp only [routeAfterBreak]
  split <;> simp [startTest]
@[simp] theorem routeDischargeEnd_key : (routeDischargeEnd h s).key = s.key := by
  simp only [routeDischargeEnd]
  split <;> simp
@[simp] theorem routeAfterBreak2_key : (routeAfterBreak2 h s).key = s.key := by simp [routeAfterBreak2]
@[simp] theorem makeDue_key : (makeDue h x s).key = s.key := by simp [makeDue]
@[simp] theorem feImpRun_key : (feImpRun p seq s).key = s.key := by simp [feImpRun]
@[simp] theorem feImpSetref_key : (feImpSetref p seq s).key = s.key := by simp [feImpSetref]
@[simp] theorem modTone_key (f : Tone → Tone) : (s.modTone d g f).key = s.key := by simp [State.modTone]
@[simp] theorem endSweep_key : (endSweep d g w code s).key = s.key := by unfold endSweep; split <;> simp
@[simp] theorem sweepPoint_key (r : Word × Word) : (sweepPoint d g w r s).key = s.key := by simp [sweepPoint]
@[simp] theorem slotStart_key : (slotStart d g s).key = s.key := by
  simp only [slotStart]
  repeat' split
  all_goals simp
@[simp] theorem slotEnd_key (m : ImpMeasure) : (slotEnd d g m s).key = s.key := by
  simp only [slotEnd]
  repeat' split
  all_goals simp [checkDone, impRecord, classEffects]
@[simp] theorem slotAbort_key : (slotAbort d g s).key = s.key := by
  simp only [slotAbort]
  repeat' split
  all_goals simp
@[simp] theorem checkOverdue_key : (checkOverdue h x s).key = s.key := by simp only [checkOverdue]; split <;> simp
@[simp] theorem sweepTimeout_key : (sweepTimeout d g s).key = s.key := by unfold sweepTimeout; split <;> simp
@[simp] theorem leakTimer_key : (leakTimer h s).key = s.key := by unfold leakTimer; split <;> simp
@[simp] theorem unbridge_key : (unbridge h x s).key = s.key := by unfold unbridge; split <;> simp
@[simp] theorem beginGap_key (from_ : Nat) : (beginGap h x from_ s).key = s.key := by
  simp only [beginGap]
  split <;> simp
@[simp] theorem endGap_key : (endGap h x s).key = s.key := by simp only [endGap]; split <;> simp
@[simp] theorem invalidStart_key : (invalidStart h x ovr cm s).key = s.key := by
  simp only [invalidStart]
  repeat' split
  all_goals simp
@[simp] theorem invalidLong_key : (invalidLong h x ovr cm s).key = s.key := by unfold invalidLong; split <;> simp
@[simp] theorem invalidEnd_key : (invalidEnd h x s).key = s.key := by simp [invalidEnd]
@[simp] theorem gapBridged_key : (gapBridged h x s).key = s.key := by unfold gapBridged; split <;> simp
end

/-! ### Excitation -/

section
variable (s : State) (h : HeadId) (job : Option Nat) (d : DieId) (tj : Int) (p : List Byte) (seq : Nat) (x : Sys)
  (r : XsReq) (off : Bool)
@[simp] theorem switchPoint_key : (switchPoint h x s).key = s.key := by simp [switchPoint]
@[simp] theorem xsAdmit_key : (xsAdmit h r job s).key = s.key := by simp [xsAdmit, admitChange]
@[simp] theorem xsRefuse_key (st : Status) (code : Nat) : (xsRefuse h job st code s).key = s.key := by simp [xsRefuse]
@[simp] theorem xsSet_key : (xsSet p seq s).key = s.key := by
  simp only [xsSet]
  repeat' split
  all_goals simp
@[simp] theorem headPlan_key (f : XsHead → XsHead) : (headPlan h f job s).key = s.key := by simp [headPlan]
@[simp] theorem xsAdjSet_key : (xsAdjSet p seq s).key = s.key := by unfold xsAdjSet; split <;> simp
@[simp] theorem xsBandsSet_key : (xsBandsSet p seq s).key = s.key := by unfold xsBandsSet; split <;> simp
@[simp] theorem xsListenReset_key : (xsListenReset p seq s).key = s.key := by simp [xsListenReset]
@[simp] theorem devPlan_key (f : Dev → Dev) : (devPlan f job s).key = s.key := by simp only [devPlan]; split <;> simp
@[simp] theorem devRange_key : (devRange job s).key = s.key := by simp [devRange]
@[simp] theorem ubandRequest_key (k : Fin 16) (w : Word) : (ubandRequest k w job s).key = s.key := by
  simp [ubandRequest]
@[simp] theorem xsWrite_key (o : Nat) (v : Word) : (xsWrite h o v r s).key = s.key := by unfold xsWrite; split <;> simp
@[simp] theorem carrierSwitch_key : (carrierSwitch h x s).key = s.key := by unfold carrierSwitch; split <;> simp
@[simp] theorem thermStore_key : (thermStore d off tj s).key = s.key := by simp [thermStore]
@[simp] theorem thermTell_key (was : Die) : (thermTell d was s).key = s.key := by simp [thermTell, thermRaise]
@[simp] theorem thermSet_key : (thermSet d off tj s).key = s.key := by simp [thermSet]
@[simp] theorem thermWarn_key : (thermWarn d tj s).key = s.key := by simp [thermWarn]
@[simp] theorem thermHead_key : (thermHead h s).key = s.key := by simp [thermHead]
@[simp] theorem thermOff_key : (thermOff d tj s).key = s.key := by simp [thermOff]
@[simp] theorem thermBack_key : (thermBack h s).key = s.key := by simp [thermBack]
@[simp] theorem thermOffClear_key : (thermOffClear d tj s).key = s.key := by simp [thermOffClear]
end

/-! ### Filter chain -/

section
variable (s : State) (h : HeadId) (seq code : Nat) (p : List Byte) (job : Option Nat) (st : Status) (w : Swap) (x : Sys)
@[simp] theorem fltRefuse_key : (fltRefuse h job st code s).key = s.key := by simp [fltRefuse]
@[simp] theorem filterChange_key (f : FltHead → FltHead) : (filterChange h f job s).key = s.key := by
  simp [filterChange]
@[simp] theorem fltAdmit_key (r : FltReq) : (fltAdmit h r job s).key = s.key := by simp [fltAdmit]
@[simp] theorem fltSet_key : (fltSet p seq s).key = s.key := by
  unfold fltSet
  refine withHead_key (keep := fun h s => ?_) ..
  dsimp only
  split <;> simp
@[simp] theorem fltNotchSet_key : (fltNotchSet p seq s).key = s.key := by
  unfold fltNotchSet
  refine withHead_key (keep := fun h s => ?_) ..
  dsimp only
  repeat' split
  all_goals simp
@[simp] theorem startSwap_key : (startSwap h w s).key = s.key := by simp [startSwap]
@[simp] theorem admitSwap_key : (admitSwap h w s).key = s.key := by
  simp only [admitSwap]
  repeat' split
  all_goals simp
@[simp] theorem fltSwap_key : (fltSwap p seq s).key = s.key := by
  unfold fltSwap
  refine withHead_key (keep := fun h s => ?_) ..
  dsimp only
  split <;> simp
@[simp] theorem dequeueSwap_key : (dequeueSwap h s).key = s.key := by
  simp only [dequeueSwap]
  repeat' split
  all_goals simp
@[simp] theorem fadeComplete_key : (fadeComplete h x s).key = s.key := by simp only [fadeComplete]; split <;> simp
@[simp] theorem bankOutcome_key (d : DieId) (slot : Nat) : (bankOutcome d slot seq st code s).key = s.key := by
  simp [bankOutcome]
@[simp] theorem fltBankLoad_key : (fltBankLoad p seq s).key = s.key := by unfold fltBankLoad; split <;> simp
@[simp] theorem fltBankFree_key : (fltBankFree p seq s).key = s.key := by unfold fltBankFree; split <;> simp
@[simp] theorem fltBankRead_key : (fltBankRead p seq s).key = s.key := by unfold fltBankRead; split <;> simp
@[simp] theorem fltPreSeal_key (o : Nat) (v : Word) : (fltPreSeal h o v s).key = s.key := by
  simp only [fltPreSeal]
  repeat' split
  all_goals simp
end

/-! ### Comparators -/

section
variable (h : HeadId) (s : State) (x : Sys) (job : Option Nat)
@[simp] theorem startEpisode_key : (startEpisode h s).key = s.key := by simp [startEpisode]
@[simp] theorem noteCheck_key (thr : Nat) : (noteCheck h x thr s).key = s.key := by simp [noteCheck]
@[simp] theorem releasePresence_key : (releasePresence h x s).key = s.key := by simp [releasePresence]
@[simp] theorem brakeEnd_key : (brakeEnd h s).key = s.key := by unfold brakeEnd; split <;> simp
@[simp] theorem testEnd_key (r : TestResult) : (testEnd h x r s).key = s.key := by simp [testEnd]
@[simp] theorem envHoldEnd_key : (envHoldEnd h x s).key = s.key := by unfold envHoldEnd; split <;> simp
@[simp] theorem cmpOutcome_key (code : Nat) : (cmpOutcome h job code s).key = s.key := by simp [cmpOutcome]
@[simp] theorem cmpStage_key (w : CmpWords) : (cmpStage h w job s).key = s.key := by simp [cmpStage]
end

/-! ### Transits -/

section
variable (s : State) (h : HeadId) (p : Passage) (tk seq : Nat) (job : Option Nat) (x : Sys)
@[simp] theorem signature_key (m : Measure) : (signature h p m s).2.key = s.key := by unfold signature; split <;> simp
@[simp] theorem issuePassage_key (forced : Nat) : (issuePassage h p forced s).key = s.key := by simp [issuePassage]
@[simp] theorem endPassage_key : (endPassage h p tk s).key = s.key := by simp [endPassage]
@[simp] theorem formDepth_key (fromWait : Bool) : (formDepth h x tk fromWait s).2.key = s.key := by
  unfold formDepth
  exact modTrnSlice_key ..
@[simp] theorem machineStep_key : (machineStep h tk s).key = s.key := by simp [machineStep, moveBase]
@[simp] theorem passageValidation_key : (passageValidation h s).key = s.key := by
  unfold passageValidation
  split <;> simp
@[simp] theorem trnOutcome_key (st : Status) (code : Nat) : (trnOutcome h job st code s).key = s.key := by
  simp [trnOutcome]
@[simp] theorem trnAdmit_key (w : TrnWords) : (trnAdmit h w job s).key = s.key := by simp [trnAdmit]
@[simp] theorem trnSet_key (p : List Byte) : (trnSet p seq s).key = s.key := by
  unfold trnSet
  refine withHead_key (keep := fun h s => ?_) ..
  dsimp only
  split <;> simp
@[simp] theorem trnPreSeal_key (o : Nat) (v : Word) : (trnPreSeal h o v s).key = s.key := by
  unfold trnPreSeal
  extract_lets old w
  split <;> simp
@[simp] theorem trnSetref_key (p : List Byte) : (trnSetref p seq s).key = s.key := by
  unfold trnSetref
  refine withHead_key (keep := fun h s => ?_) ..
  dsimp only
  repeat' split
  all_goals simp
end

/-! ### Sections -/

section
variable (s : State) (n : SecId) (job : Option Nat) (seq : Nat)
@[simp] theorem queueSecRec_key (b : List Byte) : (queueSecRec n b s).key = s.key := by simp [queueSecRec]
@[simp] theorem secOutcome_key (code : Nat) : (secOutcome n job code s).key = s.key := by simp [secOutcome]
@[simp] theorem secBind_key (entries words : List Word) : (secBind n entries words job s).key = s.key := by
  simp [secBind, storeBind]
@[simp] theorem secSet_key (cfg m : Word) : (secSet n cfg m job s).key = s.key := by simp [secSet]
@[simp] theorem queueCmd_key (op : SecOp) (wr : Option Word) : (queueCmd n op job wr s).key = s.key := by
  simp [queueCmd]
@[simp] theorem secReset_key (direct : Bool) (etok : Nat) (toks : List (Nat × List Byte)) :
    (secReset n direct etok toks seq s).key = s.key := by
  simp only [secReset]
  repeat' split
  all_goals simp [resetEnd]
@[simp] theorem askSnap_key (w : Snap) : (askSnap w s).key = s.key := by simp [askSnap]
@[simp] theorem secPreSeal_key (o : Nat) (v : Word) : (secPreSeal n o v s).key = s.key := by
  simp [secPreSeal, secWriteErr]
@[simp] theorem withSec_key (p : List Byte) {f : SecId → State → State} (keep : ∀ n s, (f n s).key = s.key) :
    (withSec p seq f s).key = s.key := by
  unfold withSec
  split <;> simp [keep]
end

/-! ### The partner's set -/

section
variable (s : State) (n : SecId)
@[simp] theorem sendLink_key (b : List Byte) : (sendLink b s).key = s.key := by simp [sendLink]
@[simp] theorem judge_key (m : LinkMsg) (status : Bool) : (judge m status s).2.key = s.key := by
  simp only [judge]
  repeat' split
  all_goals simp
@[simp] theorem dropCovered_key : (dropCovered s).key = s.key := by
  simp only [dropCovered]
  repeat' split
  all_goals simp
@[simp] theorem missAdoption_key : (missAdoption n s).key = s.key := by simp [missAdoption]
@[simp] theorem takeOverSec_key (seq : Nat) : (takeOverSec seq n s).key = s.key := by
  simp only [takeOverSec]
  repeat' split
  all_goals simp
@[simp] theorem staleCmd_key (c : SecCmd) : (staleCmd n c s).key = s.key := by unfold staleCmd; split <;> simp
end

/-! ### Lanes -/

section
variable (s : State) (l : Lane)
@[simp] theorem endRead_key : (endRead l s).key = s.key := by unfold endRead; split <;> simp
@[simp] theorem endReads_key : (endReads s).key = s.key := by simp [endReads]
@[simp] theorem abortRead_key : (abortRead l s).key = s.key := by simp only [abortRead]; split <;> simp
@[simp] theorem cutRead_key : (cutRead l s).key = s.key := by simp only [cutRead]; split <;> simp
@[simp] theorem cutReads_key : (cutReads s).key = s.key := by simp [cutReads]
end

/-! ### Time base -/

section
variable (s : State)
@[simp] theorem tbAnchor_key : (tbAnchor s).key = s.key := by simp [tbAnchor]
@[simp] theorem setRate_key (base adj : Int) : (setRate base adj s).key = s.key := by simp [setRate]
@[simp] theorem measureRef_key : (measureRef s).key = s.key := by simp [measureRef]
@[simp] theorem tbEnter_key (st : TbState) : (tbEnter st s).key = s.key := by unfold tbEnter; split <;> simp
@[simp] theorem refLost_key (flag : Nat) : (refLost flag s).key = s.key := by simp [refLost]
@[simp] theorem tenMhzLoss_key : (tenMhzLoss s).key = s.key := by simp [tenMhzLoss]
@[simp] theorem ppsLoss_key : (ppsLoss s).key = s.key := by unfold ppsLoss; split <;> simp
@[simp] theorem tbBoundary_key (seq : Nat) : (tbBoundary seq s).key = s.key := by
  simp only [tbBoundary]
  split <;> simp [tbMode, applyStep, stepEffects, pushLatch]
@[simp] theorem tbSet_key (cfg disc : Word) : (tbSet cfg disc s).key = s.key := by simp [tbSet]
end

/-! ### Ring reads -/

section
variable (s : State)
@[simp] theorem readSome_key (n : Nat) (j : ReadJob) : (readSome n j s).2.key = s.key := by
  induction n generalizing j s with
  | zero => rfl
  | succ n ih =>
    simp only [readSome]
    split <;> simp [ih]
@[simp] theorem readChunk_key (j : ReadJob) : (readChunk j s).key = s.key := by simp [readChunk, finishRead]
end

/-! ### Epochs -/

section
variable (s : State) (n : SecId) (p : Priv)
@[simp] theorem lateCmd_key (c : SecCmd) : (lateCmd n c s).key = s.key := by unfold lateCmd; split <;> simp
@[simp] theorem dropSec_key : (dropSec n s).key = s.key := by simp [dropSec]
@[simp] theorem serve_key : (serve n p s).key = s.key := by simp [serve]
@[simp] theorem grantPriv_key : (grantPriv n p s).key = s.key := by simp [grantPriv]
@[simp] theorem serveAdoption_key : (serveAdoption n s).key = s.key := by
  unfold serveAdoption
  split <;> simp [setMismatch]
@[simp] theorem grant_key : (grant n s).key = s.key := by
  simp only [grant]
  repeat' split
  all_goals simp
@[simp] theorem finishCmd_key (d : CmdDone) : (finishCmd n d s).key = s.key := by unfold finishCmd; split <;> simp
@[simp] theorem commitPriv_key : (commitPriv n p s).key = s.key := by
  simp only [commitPriv]
  split <;> simp [adoptCommit]
@[simp] theorem commitSec_key : (commitSec n s).key = s.key := by unfold commitSec; split <;> simp
@[simp] theorem deadlineSec_key : (deadlineSec n s).key = s.key := by unfold deadlineSec; split <;> simp
@[simp] theorem deadline_key : (deadline s).key = s.key := by
  simp [deadline, epochReport, epochRecord, surveyEpoch, openQuiet]
@[simp] theorem changeRole_key (role was : BitVec 2) (seq : Nat) : (changeRole role was seq s).key = s.key := by
  simp [changeRole, handDownSec]
@[simp] theorem writeSnaps_key : (writeSnaps s).key = s.key := by simp [writeSnaps, takeSnap]
@[simp] theorem senseStages_key (i : BoundaryInput) : (senseStages i s).key = s.key := by simp [senseStages]
@[simp] theorem boundary_key (i : BoundaryInput) : (boundary i s).key = s.key := by
  simp [boundary, driveEpoch, listenEpoch, dieReport, readMore, vspBoundary, latchSet, decayTrims, leakUpdate,
    stormWindow, linkBoundary]
@[simp] theorem trackTick_key (i : TickInput) : (trackTick i s).key = s.key := by
  simp [trackTick, takeSample, plausTick, paceSample, surveyPace]
@[simp] theorem epcCtrl_key (v : Word) : (epcCtrl v s).key = s.key := by simp [epcCtrl]
end

/-! ### Duplex operation -/

section
variable (s : State) (m : LinkMsg) (h : HeadId) (x : Sys)
@[simp] theorem raiseMark_key : (raiseMark h x s).key = s.key := by simp [raiseMark]
@[simp] theorem raiseMarks_key : (raiseMarks s).key = s.key := by simp [raiseMarks]
@[simp] theorem withdrawHead_key : (withdrawHead h s).key = s.key := by simp [withdrawHead, withdrawSlice]
@[simp] theorem withdrawAll_key (won : Bool) : (withdrawAll won s).key = s.key := by simp [withdrawAll, abortDrive]
@[simp] theorem setRoleIn_key (r : BitVec 2) : (setRoleIn r s).key = s.key := by simp [setRoleIn]
@[simp] theorem pickUp_key : (pickUp s).key = s.key := by simp [pickUp, pickUpSlice]
@[simp] theorem holdTimeout_key : (holdTimeout s).key = s.key := by unfold holdTimeout; split <;> simp
@[simp] theorem linkToTrain_key : (linkToTrain s).key = s.key := by unfold linkToTrain; split <;> simp [unsyncAll]
@[simp] theorem linkToDown_key : (linkToDown s).key = s.key := by simp [linkToDown]
@[simp] theorem linkStart_key : (linkStart s).key = s.key := by simp [linkStart]
@[simp] theorem doorbellSend_key : (doorbellSend s).key = s.key := by unfold doorbellSend; split <;> simp
@[simp] theorem pdbWrite_key (v : Word) : (pdbWrite v s).key = s.key := by simp [pdbWrite]
@[simp] theorem putRx_key (f : RxSet → RxSet) : (putRx f s).key = s.key := by simp [putRx]
@[simp] theorem messageDiscarded_key : (messageDiscarded s).key = s.key := by simp [messageDiscarded]
@[simp] theorem receive_key (lo hi : Nat) (status : Bool) {f : State → State} (keep : ∀ s, (f s).key = s.key) :
    (receive lo hi m status f s).key = s.key := by
  simp [receive, keep]
@[simp] theorem measureSkew_key (p : PartnerStatus) (consecutive : Bool) :
    (measureSkew p consecutive s).key = s.key := by
  unfold measureSkew
  split <;> simp
@[simp] theorem alignedNow_key : (alignedNow s).key = s.key := by unfold alignedNow; split <;> simp
@[simp] theorem lfullMessage_key : (lfullMessage m s).key = s.key := by unfold lfullMessage; split <;> simp [applyFull]
@[simp] theorem zlStore_key (paired unit : Bool) (age : Nat) : (zlStore paired unit age s).key = s.key := by
  simp [zlStore]
end

/-! ### Vital status port -/

section
variable (s : State) (l : Lane)
@[simp] theorem heldLow_key : (heldLow l s).key = s.key := modLane_key ..
@[simp] theorem vspRead_key (i : ReadInput) : (vspRead l i s).key = s.key := by simp only [vspRead]; split <;> simp
@[simp] theorem armCrcFail_key (v : Word) : (armCrcFail v s).key = s.key := by simp [armCrcFail]
end

/-! ### Interrupts -/

section
variable (s : State) (v : Word) (k : Fin 16) (be : BitVec 4)
@[simp] theorem applyMessage_key : (applyMessage s).key = s.key := by unfold applyMessage; split <;> simp
@[simp] theorem sendMsix_key (v : SrcId) : (sendMsix v s).key = s.key := by simp [sendMsix]
@[simp] theorem arbitrate_key : (arbitrate s).key = s.key := by
  unfold arbitrate
  split <;> simp [commitSource, deliver, stormCount]
@[simp] theorem releaseHeld_key : (releaseHeld s).key = s.key := by
  simp only [releaseHeld]
  repeat' split
  all_goals simp
@[simp] theorem msixWrite_key (w : MsixWrite) : (msixWrite w s).key = s.key := by unfold msixWrite; split <;> simp
@[simp] theorem whenHostUp_key {f : State → State} (keep : ∀ s, (f s).key = s.key) : (whenHostUp f s).key = s.key := by
  simp [whenHostUp, keep]
@[simp] theorem enabled_key (off : Nat) {f : State → State} (keep : ∀ s, (f s).key = s.key) :
    (enabled be off v f s).key = s.key := by
  simp [enabled, keep]
@[simp] theorem eoi_key : (eoi v s).key = s.key := by simp [eoi]
@[simp] theorem hdrain_key : (hdrain v s).key = s.key := by simp [hdrain]
@[simp] theorem maskSet_key : (maskSet k v s).key = s.key := by simp [maskSet]
@[simp] theorem maskClr_key : (maskClr k v s).key = s.key := by simp [maskClr]
@[simp] theorem pendDiscard_key : (pendDiscard k v s).key = s.key := by simp [pendDiscard]
@[simp] theorem irqDoorbell_key : (irqDoorbell v be s).key = s.key := by simp [irqDoorbell]
end

/-! ### Eclipse -/

section
variable (s : State)
@[simp] theorem requestEclipse_key (cause cls : Nat) : (requestEclipse cause cls s).key = s.key := by
  unfold requestEclipse
  split <;> simp [enterEclipse]
end

/-! ### Recorder -/

section
variable (s : State) (t : Trigger) (seq : Nat) (v : Word)
@[simp] theorem stage_key (e : RecEntry) : (stage e s).key = s.key := by simp [stage]
@[simp] theorem enterQueue_key (ecl : Bool) : (enterQueue t ecl s).key = s.key := by simp [enterQueue]
@[simp] theorem service_key : (service t s).key = s.key := by
  simp only [service]
  repeat' split
  all_goals simp
@[simp] theorem countTrigger_key : (countTrigger t s).key = s.key := modRec_key ..
@[simp] theorem handleTrigger_key : (handleTrigger t s).key = s.key := by simp [handleTrigger]
@[simp] theorem nextTrigger_key : (nextTrigger s).key = s.key := by unfold nextTrigger; split <;> simp
@[simp] theorem settleTriggers_key : (settleTriggers s).key = s.key := by simp [settleTriggers]
@[simp] theorem writeBack_key : (writeBack s).key = s.key := by unfold writeBack; split <;> simp
@[simp] theorem closeOpen_key : (closeOpen s).key = s.key := by simp [closeOpen]
@[simp] theorem recWrite_key : (recWrite s).key = s.key := by
  unfold recWrite
  split <;> simp [writeEntry, stepRing, writeHeader, afterWrite]
@[simp] theorem recWriteBack_key : (recWriteBack s).key = s.key := by unfold recWriteBack; split <;> simp
@[simp] theorem surveyStart_key : (surveyStart seq s).key = s.key := by simp [surveyStart]
@[simp] theorem recSet_key (cfg period trigEn eclEn : Word) : (recSet cfg period trigEn eclEn s).key = s.key := by
  simp [recSet]
@[simp] theorem recClear_key (p : List Byte) : (recClear p seq s).key = s.key := by
  unfold recClear
  split <;> simp [queueClear]
@[simp] theorem recMark_key : (recMark v s).key = s.key := by simp [recMark]
@[simp] theorem recCursor_key : (recCursor v s).key = s.key := by simp [recCursor]
end

/-! ### Power, clocks and resets

A reset of the core die builds the state anew around the key, and an AON power-on reset begins with such a reset (R189,
R329). -/

section
variable (s : State) (d : DieId) (job : Option Nat) (v : Word) (h : HeadId)
@[simp] theorem flagPwr_key (flags die : Word) (source : Nat) : (flagPwr flags die source s).key = s.key := by
  simp [flagPwr]
@[simp] theorem endpointReset_key : (endpointReset s).key = s.key := by simp [endpointReset]
@[simp] theorem endHeadJobs_key : (endHeadJobs h s).key = s.key := by
  simp only [endHeadJobs]
  repeat' split
  all_goals simp
@[simp] theorem endDieSweeps_key : (endDieSweeps d s).key = s.key := by
  unfold endDieSweeps
  refine foldOver_keeps (g := State.key) (fun g s => ?_) s
  split <;> simp
@[simp] theorem dieNotice_key : (dieNotice d s).key = s.key := by
  simp only [dieNotice]
  refine (foldOver_keeps (g := State.key) (fun n s => ?_) _).trans (by simp)
  split <;> simp
@[simp] theorem dieDown_key : (dieDown d s).key = s.key := by simp [dieDown, resetDie]
@[simp] theorem clearCore_key : (clearCore s).key = s.key := by simp [clearCore]
@[simp] theorem tearWrite_key : (tearWrite s).key = s.key := by
  unfold tearWrite
  split
  · simp only [key_ite, modRec_key, ite_self]
  · rfl
@[simp] theorem coreReset_key (cause : ResetCause) : (coreReset cause s).key = s.key := by simp [coreReset]
@[simp] theorem aonReset_key : (aonReset s).key = s.key := by simp [aonReset]
@[simp] theorem monitorTrip_key (m : Monitor) : (monitorTrip m s).key = s.key := by
  unfold monitorTrip
  split <;> simp [monitorDie, vserTrip]
@[simp] theorem finishDie_key (of : FldJob → Bool) : (finishDie of d s).key = s.key := by simp [finishDie]
@[simp] theorem closeSwitches_key : (closeSwitches d s).key = s.key := by simp [closeSwitches]
@[simp] theorem fldAdmit_key (mask : BitVec 8) (on : Bool) : (fldAdmit mask on job s).key = s.key := by
  unfold fldAdmit
  split <;> simp [turnOff, turnOn]
@[simp] theorem fldPreSeal_key : (fldPreSeal v s).key = s.key := by simp [fldPreSeal]
@[simp] theorem dieReleased_key : (dieReleased d s).key = s.key := by simp [dieReleased, releaseDie]
@[simp] theorem recovered_key (dom : Domain) : (recovered dom s).key = s.key := by unfold recovered; split <;> simp
@[simp] theorem release_key (i : StartInput) : (release i s).key = s.key := by simp [release, startRecord]
@[simp] theorem clkStore_key : (clkStore v job s).key = s.key := by simp [clkStore]
@[simp] theorem refclkLoss_key : (refclkLoss s).key = s.key := by simp [refclkLoss]
end

/-! ### Host port

No register holds the key: a write to any address, before the seal or after, is one of the operations above. -/

section
variable (s : State) (v : Word) (k : Fin 16) (off o : Nat) (r : RegView) (be : BitVec 4) (h : HeadId)
@[simp] theorem sealWrite_key : (sealWrite v s).key = s.key := by simp [sealWrite]
@[simp] theorem errClr_key : (errClr v s).key = s.key := by simp [errClr]
@[simp] theorem orbCfgWrite_key : (orbCfgWrite k v s).key = s.key := by simp [orbCfgWrite]
@[simp] theorem orbWriteReg_key : (orbWriteReg k o v s).key = s.key := by simp [orbWriteReg]
@[simp] theorem skipShort_key (bufs : List Buf) : (skipShort k bufs s).key = s.key := by
  induction bufs generalizing s with
  | nil => rfl
  | cons b rest ih => simp [skipShort, ih]
@[simp] theorem skipNow_key : (skipNow k s).key = s.key := by simp [skipNow]
@[simp] theorem doorbell_key (descs : List StreamDesc) : (doorbell k v be descs s).key = s.key := by
  simp [doorbell, takeDoorbell]
@[simp] theorem flushStream_key : (flushStream k s).key = s.key := by
  simp only [flushStream]
  repeat' split
  all_goals simp
@[simp] theorem irqWriteReg_key : (irqWriteReg off v s).key = s.key := by simp [irqWriteReg, maskWrite, stormClear]
/-- A write that takes effect whether the device is sealed or not leaves the key alone. -/
theorem devAct_key {u : State} (e : devAct off v s = some u) : u.key = s.key := by
  unfold devAct at e
  repeat
    obtain rfl | e := eq_or_of_ite_eq_some e
    · simp
  cases e
@[simp] theorem devPreSeal_key : (devPreSeal off v s).key = s.key := by
  simp [devPreSeal, xsDevPreSeal, secAuthWrite, tbPreSeal, zlPreSeal, vspPreSeal, eclPreSeal, recPreSeal, clkPreSeal]
@[simp] theorem sealedWrite_key : (sealedWrite off v r s).key = s.key := by simp [sealedWrite]
@[simp] theorem headWrite_key : (headWrite h o v r s).key = s.key := by
  simp only [headWrite]
  repeat' split
  all_goals simp [headPreSeal, xsPreSeal, cmpPreSeal, fePreSeal]
@[simp] theorem devWrite_key : (devWrite off v r s).key = s.key := by
  unfold devWrite
  split
  next u e => exact devAct_key _ _ _ e
  next => simp
@[simp] theorem writeReg_key : (writeReg off v s).key = s.key := by
  unfold writeReg
  split <;> simp [hpWriteReg, secWrite]
@[simp] theorem busWrite_key (bar : Bar) (dwords : Nat) : (busWrite bar off v be dwords s).key = s.key := by
  unfold busWrite
  split <;> simp [writeBar2, writeBar4]
@[simp] theorem logAer_key : (logAer s).key = s.key := by simp [logAer]
@[simp] theorem dmaError_key (r : DmaRead) : (dmaError r s).key = s.key := by
  unfold dmaError
  split <;> simp [descriptorError, payloadError]
end

/-! ### Reads of the host -/

section
variable (s : State)
@[simp] theorem busRead_key (r : BusRead) : (busRead r s).key = s.key := by
  simp [busRead, readCaptures, readTbNow, readTbEpoch, readSeq]
end

/-! ### Test access port -/

section
variable (s : State) (code : Byte)
@[simp] theorem whenTap_key {f : State → State} (keep : ∀ s, (f s).key = s.key) : (whenTap f s).key = s.key := by
  simp [whenTap, keep]
@[simp] theorem selectTap_key (dr : BitVec 40) : (selectTap code dr s).key = s.key := by simp [selectTap]
@[simp] theorem scanChain_key (cells : List (ScanPin × Bool)) : (scanChain code cells s).key = s.key := by
  simp [scanChain]
@[simp] theorem eclRead_key : (eclRead s).key = s.key := by simp [eclRead]
@[simp] theorem loadPath_key (v : BitVec 48) : (loadPath v s).key = s.key := by simp [loadPath]
end

/-! ### Every command but SEC_KEY_PROGRAM -/

/-- What a command other than SEC_KEY_PROGRAM runs keeps the key, unit by unit. -/
theorem exec_key {i : Instr} {s u : State} (other : ∀ t c, i ≠ .secKeyProgram t c) (e : exec i s = .next u) :
    u.key = s.key := by
  cases i
  case secKeyProgram t c => exact absurd rfl (other t c)
  case feRoute | feRouteCtrlGo | feBiasSet | feImpSet | feImpRun | feImpSetref | feImpSweep | invalidRunStart |
      invalidRunLong | gapUnbridged | gapBridged | routeRampDownDone | routeBreakExpiry | routeDischargeExpiry |
      routeBreak2Expiry | leakFaultTimer | impCheckDue | impSlotStart | impSlotEnd | impSlotAbort | impOverdue |
      sweepTimeout | invalidRunEnd =>
    cases e; simp [feImpSet, feImpSweep, checkDue]
  case xsSet | xsAdjSet | xsBandsSet | xsUbandSet | xsPlanSet | xsListenReset | carrierSwitchPoint |
      regulatorRampUpDone | regulatorAcquireDone | regulatorAcquireTimeout | regulatorHoldBegin | regulatorHoldEnd |
      regulationFault | driverClipFault | listenLocked | thermWarn | thermOff | thermOffClear |
      regulatorRampDownDone =>
    cases e; simp [xsUbandSet, xsPlanSet, rampUpDone, acquireDone, acquireTimeout, holdBegin, holdEnd, regulationFault,
      clipFault, listenLocked, rampDownDone]
  case fltSet | fltNotchSet | fltSwap | fltBankLoad | fltBankFree | fltBankRead | trackSampleLate | fadeStart |
      fadeComplete =>
    cases e; simp [sampleLate, fadeStart]
  case cmpSet | cmpStatus | settleComplete | presenceAssert | presenceRelease | occultationExpiry |
      presenceEpisodeJudgement | healthTrip | healthReturn | railFault | brakeComparatorSet | brakeComparatorClear |
      brakeRecognitionEnd | envelopeHoldEnd | comparatorTestEnd =>
    cases e; simp [cmpSet, cmpStatus, settleComplete, presenceAssert, presenceRelease, occultationExpiry,
      judgeEpisodes, judgeOne, noTransit, healthTrip, healthReturn, railFault, brakeSet, markBrake, brakeClear]
  case trnSet | trnSetref | trnStatus | transitStep | passageValidation =>
    cases e; simp [trnStatus, transitStep, formDepths]
  case secBind | secSet | secService | secDisturb | secLedgerRead | secStatus | secResetSup | secResetDir =>
    cases e; simp [secService, secDisturb]
  case tbSet | tbStep | ppsEdge | tbFreqLock | ref10mLoss | ppsLoss | referenceReturn =>
    cases e; simp [tbStep, tbRefuse, ppsEdge, freqLock, refReturn]
  case epcCtrlClr | epochBoundary | sectionGrant | sectionCommit | evaluationDeadline | trackTick =>
    cases e; simp [epochBoundary, evaluationDeadline]
  case zlSet | zlStatus | zlPdbWrite | handoverMarkRaise | handoverMarkEnd | roleInputChange | depose | deposeRelease |
      interlockClaim | claimWaitExpiry | holdTimeout | statusSend | doorbellSend | statusMessage | ephMessage |
      coverMessage | ldeltaMessage | lfullMessage | doorbellMessage | linkTrained | linkLoss | statusTimeout |
      aligned | driveIntervalComplete | driveAgeHour | messageDiscarded =>
    cases e; simp [zlSet, zlStatus, markRaise, markEnd, roleInputChange, depose, deposeRelease, claimTry, claimEnd,
      statusSend, sendParts, statusMessage, countStatus, useStatus, ephMessage, coverMessage, ldeltaMessage,
      doorbellMessage, linkTrained, linkLoss, statusTimeout, driveComplete, driveHour]
  case vspTestCrcFail | vspRead | vspReadAbort =>
    cases e; simp
  case irqEoi | irqHdrain | irqMaskSet | irqMaskClr | irqPendDiscard | irqDoorbellWrite | msixUnmask |
      interruptMessage | interruptCommit =>
    cases e; simp
  case eclEnter | eclipseRequest =>
    cases e; simp [eclEnter, eclipsePin]
  case recSet | recSelect | recRead | recClear | recMarkWrite | recCursorWrite | recTrigger | recWrite | recWriteBack |
      recSurveyPeriod =>
    cases e; simp [recSelect, recRead, surveyPeriod]
  case pwrFld | pwrStatus | clkSet | supplyMonitorTrip | supplyRecovery | aonPowerOnReset | coreDieReset | startUp |
      fldPowerDownDone | fldResetRelease | clkrefLoss | clkrefGlitch | sclkFrequencyCheck | zpllLoss | epochWatchdog |
      zclkPllLock | pcieRefclkLoss =>
    cases e; simp [pwrFld, pwrStatus, clkSet, startUp, powerDownDone, clkrefLoss, clkrefGlitch, freqCheck, zpllLoss,
      watchdog, zclkLock]
  case hpNop | hpSeal | hpWrite | hpIdent | commandBadOpcode | hpSealWrite | hpCtrlErrClr | orbDoorbell | orbCfgWrite |
      registerWrite | functionLevelReset | d3hotToD0 | conventionalReset | dmaReadError | poisonedWrite | streamFlush |
      d0ToD3hot | busMasterEnableChange =>
    cases e; simp [hpSeal, hpWrite, hpIdent, badOpcode, functionReset, leaveD3, enterD3, setBme]
  case epcSeqLoRead | tbNowLoRead | tbEpochLoRead =>
    cases e; simp
  case tapReset | extest | idcode | samplePreload | highz | clamp | eclPath | eclRead | eclStatus | bypass =>
    cases e; simp

end Sys2Proof.Machine
end

section
/-! SUPPORT. The customer key is programmed once (R189): what SEC_KEY_PROGRAM answers, what SEC_AUTH shows, and that no
step changes a key. Settles O57. -/
namespace Sys2Proof.Machine

/-! ### SEC_KEY_PROGRAM (R189) -/

section
variable {s : State} (p : List Byte) (seq : Nat)

theorem keyProgram_of_sealed (h : s.hp.isSealed = true) : keyProgram p seq s = complete seq .sealed 0 [] s := if_pos h

theorem keyProgram_of_isSome (h : s.hp.isSealed = false) (k : s.key.isSome = true) :
    keyProgram p seq s = complete seq .conflict 3 [] s := by simp [keyProgram, h, k]

theorem keyProgram_of_none (h : s.hp.isSealed = false) (k : s.key = none) :
    keyProgram p seq s = complete seq .ok 0 [] { s with key := some (p.take 32) } := by simp [keyProgram, h, k]

/-- A device that has a key refuses another, sealed or not. -/
theorem keyProgram_key_of_isSome (k : s.key.isSome = true) : (keyProgram p seq s).key = s.key := by
  cases h : s.hp.isSealed with
  | true => rw [keyProgram_of_sealed p seq h, complete_key]
  | false => rw [keyProgram_of_isSome p seq h k, complete_key]
end

/-! ### SEC_AUTH -/

theorem readReg_secAuth (s : State) :
    readReg s 0x46000 = (put 31 1 (b2n s.key.isSome) ||| (s.dev.secAuth &&& 0xFFFFFF)) := rfl

/-- Bit 31 lies above the fields of SEC_AUTH that the host writes. -/
theorem bit_readReg_secAuth (s : State) : bit (readReg s 0x46000) 31 = s.key.isSome := by
  have written : bit (s.dev.secAuth &&& 0xFFFFFF) 31 = false := by
    simp [bit, show Nat.testBit 0xFFFFFF 31 = false by decide]
  rw [readReg_secAuth, bit_or, written, Bool.or_false]
  cases s.key.isSome <;> rfl

/-! ### Every command and every step -/

/-- A key once programmed outlives every command, SEC_KEY_PROGRAM among them. -/
theorem exec_key_of_isSome {i : Instr} {s u : State} (k : s.key.isSome = true) (e : exec i s = .next u) :
    u.key = s.key := by
  by_cases prog : ∃ t c, i = .secKeyProgram t c
  · obtain ⟨t, c, rfl⟩ := prog
    cases e
    have has : (admitCmd 0x0266 true c (s.advance t)).key.isSome = true := by rw [admitCmd_key]; exact k
    exact command_key_of ((keyProgram_key_of_isSome c.payload _ has).trans (admitCmd_key ..))
  · exact exec_key (fun t c eq => prog ⟨t, c, eq⟩) e

theorem step_key_of_isSome {s u : State} (k : s.key.isSome = true) (e : step s = .next u) : u.key = s.key := by
  unfold step at e
  split at e
  next => cases e; rfl
  next c rest _ => exact exec_key_of_isSome (s := { s with pending := rest }) k e

/-! ### O57 -/

/-- Settles O57, by the three answers of SEC_KEY_PROGRAM, what SEC_AUTH reads, and that no other command touches the
key. -/
theorem keyIsProgrammedOnce : Obligations.Key_is_programmed_once := by
  unfold Obligations.Key_is_programmed_once
  refine ⟨fun t c s A => ⟨fun h k => ?programmed, fun h k => ?second, fun h => ?sealed⟩, bit_readReg_secAuth,
    fun i s u e changed => ?other, fun s u k has e => ?kept⟩
  case programmed =>
    exact answers_of (body := fun seq => keyProgram c.payload seq) A rfl fun _ _ _ _ =>
      ⟨_, keyProgram_of_none _ _ h k, rfl, rfl⟩
  case second =>
    exact answers_of (body := fun seq => keyProgram c.payload seq) A rfl fun _ _ _ _ =>
      ⟨_, keyProgram_of_isSome _ _ h k, rfl, rfl⟩
  case sealed =>
    exact answers_of (body := fun seq => keyProgram c.payload seq) A rfl fun _ _ _ _ =>
      ⟨_, keyProgram_of_sealed _ _ h, rfl, rfl⟩
  case other =>
    by_contra prog
    exact changed (exec_key (fun t c eq => prog ⟨t, c, eq⟩) e)
  case kept =>
    exact (step_key_of_isSome (by rw [has]; rfl) e).trans has

end Sys2Proof.Machine
end

section
/-! SUPPORT. The host's writes to the interrupt controller (R4, R288, R289, R291, R297): the bits of a 512-bit map that a
word reaches, what a counted write leaves alone, the register map at a mask, and what each write does. Settles O26. -/
namespace Sys2Proof.Machine

/-! ### The bits of a map -/

/-- A word in place k reaches the sources 32 × k to 32 × k + 31 alone. -/
theorem mapPlace_getLsbD (k : Fin 16) (v : Word) (m : SrcId) :
    (mapPlace k v).getLsbD m.val = (decide (m.val / 32 = k.val) && v.getLsbD (m.val % 32)) := by
  have shifted : (mapPlace k v).getLsbD m.val = (decide (32 * k.val ≤ m.val) && v.getLsbD (m.val - 32 * k.val)) := by
    rw [mapPlace, BitVec.getLsbD_ofNat, Nat.testBit_mul_two_pow, decide_eq_true m.isLt, Bool.true_and,
      BitVec.testBit_toNat]
  rw [shifted]
  rcases lt_trichotomy (m.val / 32) k.val with below | inside | above
  · rw [decide_eq_false (by omega), decide_eq_false (by omega), Bool.false_and, Bool.false_and]
  · rw [decide_eq_true inside, decide_eq_true (by omega), show m.val - 32 * k.val = m.val % 32 by omega]
  · rw [BitVec.getLsbD_of_ge v _ (by omega), Bool.and_false, decide_eq_false (by omega), Bool.false_and]

theorem or_mapPlace_getLsbD (a : BitVec 512) (k : Fin 16) (v : Word) (m : SrcId) :
    (a ||| mapPlace k v).getLsbD m.val =
      (a.getLsbD m.val || (decide (m.val / 32 = k.val) && v.getLsbD (m.val % 32))) := by
  rw [BitVec.getLsbD_or, mapPlace_getLsbD]

theorem andNot_mapPlace_getLsbD (a : BitVec 512) (k : Fin 16) (v : Word) (m : SrcId) :
    (a &&& ~~~ mapPlace k v).getLsbD m.val =
      (a.getLsbD m.val && !(decide (m.val / 32 = k.val) && v.getLsbD (m.val % 32))) := by
  rw [BitVec.getLsbD_and, BitVec.getLsbD_not, mapPlace_getLsbD, decide_eq_true m.isLt, Bool.true_and]

/-- Word k is replaced whole. -/
theorem mapPut_getLsbD (a : BitVec 512) (k : Fin 16) (v : Word) (m : SrcId) :
    (mapPut a k v).getLsbD m.val = if m.val / 32 = k.val then v.getLsbD (m.val % 32) else a.getLsbD m.val := by
  have ones : (0xFFFFFFFF : Word).getLsbD (m.val % 32) = true := by
    rw [show (0xFFFFFFFF : Word) = BitVec.allOnes 32 from rfl, BitVec.getLsbD_allOnes]
    exact decide_eq_true (Nat.mod_lt _ (by decide))
  rw [mapPut, or_mapPlace_getLsbD, andNot_mapPlace_getLsbD, ones]
  by_cases h : m.val / 32 = k.val <;> simp [h]

/-! ### What a counted write leaves alone

An event of HP_ERR can raise messages, of source 8 and of the diagnostic stream; the controller changes in nothing else. -/

/-- The interrupt controller apart from the messages on their way to it. -/
def State.sources (s : State) : Irq := { s.irq with msgs := [] }

section
variable {u s : State} (e : u.sources = s.sources)
include e
theorem mask_of_sources : u.irq.mask = s.irq.mask := (congrArg Irq.mask e :)
theorem pend_of_sources : u.irq.pend = s.irq.pend := (congrArg Irq.pend e :)
end

section
variable (s : State)
@[simp] theorem raise_sources (n : Nat) : (raise n s).sources = s.sources := (rfl)
@[simp] theorem modOrbit_sources (k : Fin 16) (f : Orbit → Orbit) : (s.modOrbit k f).sources = s.sources := (rfl)
@[simp] theorem dma_sources (a : BitVec 64) (l : List Byte) : (dma a l s).sources = s.sources := (rfl)
@[simp] theorem orbFault_sources (k : Fin 16) (w : Word) : (orbFault k w s).sources = s.sources := by
  simp only [orbFault]; split <;> simp
@[simp] theorem stepIndex_sources (k : Fin 16) : (stepIndex k s).sources = s.sources := by
  simp only [stepIndex]; split <;> simp
@[simp] theorem dropRecord_sources (k : Fin 16) : (dropRecord k s).sources = s.sources := by simp [dropRecord]
@[simp] theorem handBack_sources (k : Fin 16) (b : Buf) (n : Nat) : (handBack k b n s).sources = s.sources := by
  simp [handBack]
@[simp] theorem offerFrom_sources (k : Fin 16) (bytes : List Byte) (bufs : List Buf) :
    (offerFrom k bytes bufs s).1.sources = s.sources := by
  induction bufs generalizing s with
  | nil => simp [offerFrom]
  | cons b rest ih =>
    simp only [offerFrom]
    split
    · simp [ih]
    · split
      · simp
      · simp [ih]
@[simp] theorem offer_sources (k : Fin 16) (bytes : List Byte) : (offer k bytes s).1.sources = s.sources := by
  simp only [offer]; split <;> simp
@[simp] theorem hpErr_sources (cause : Nat) (bar2 : Bool) (off : Nat) (v : Word) :
    (hpErr cause bar2 off v s).sources = s.sources := by
  simp only [hpErr]
  split
  next => rfl
  next =>
    refine ite_proj State.sources ((offer_sources ..).trans ?_) ?_ <;>
      exact ite_proj State.sources rfl rfl
end

/-! ### The register map at a plain mask (R300) -/

theorem inArray_element (base : Nat) {n i : Nat} (h : i < n) : inArray (base + 4 * i) base n = some i := by
  rw [inArray, if_pos (by omega), Nat.add_sub_cancel_left, Nat.mul_div_cancel_left i (by decide)]

theorem inArray_above {o base n : Nat} (h : base + 4 * n ≤ o) : inArray o base n = none := if_neg (by omega)

section
variable (k : Fin 16) (v : Word) (s : State)

/-- The place that an element's offset gives. -/
theorem place_element (base : Nat) : (Fin.ofNat 16 ((base + 4 * k.val - base) / 4) : Fin 16) = k := by
  rw [Nat.add_sub_cancel_left, Nat.mul_div_cancel_left _ (by decide), Fin.ofNat_val_eq_self]

theorem irqView_mask : irqView s (0x200 + 4 * k.val) = some { val := mapWord s.irq.mask k, rw := 0xFFFFFFFF } := by
  simp only [irqView]
  rw [if_neg (by omega), if_neg (by omega), if_neg (by omega), if_neg (by omega), if_neg (by omega),
    inArray_above (base := 0x40) (by omega), inArray_above (base := 0x100) (by omega), inArray_element 0x200 k.isLt,
    place_element]
  rfl

theorem regView_mask : regView s (0x10200 + 4 * k.val) = some { val := mapWord s.irq.mask k, rw := 0xFFFFFFFF } := by
  rw [regView, if_neg (by omega), if_neg (by omega), if_neg (by omega), if_neg (by omega), if_pos (by omega),
    show 0x10200 + 4 * k.val - 0x10000 = 0x200 + 4 * k.val by omega, irqView_mask]

theorem irqWriteReg_mask : irqWriteReg (0x10200 + 4 * k.val) v s = maskWrite k v s := by
  simp only [irqWriteReg]
  rw [if_neg (by omega), if_neg (by omega), inArray_above (base := 0x10040) (by omega),
    inArray_above (base := 0x10100) (by omega), inArray_element 0x10200 k.isLt, place_element]
  rfl

theorem writeReg_mask : writeReg (0x10200 + 4 * k.val) v s = maskWrite k v s := by
  rw [writeReg, regView_mask]
  simp only
  rw [if_neg (by omega), if_neg (by omega), if_pos (by omega), irqWriteReg_mask]
end

/-! ### What each write does -/

theorem enabled_all (off : Nat) (v : Word) (f : State → State) (s : State) : enabled 15 off v f s = f s := (rfl)

/-- Without all byte enables a write is counted and does nothing else. -/
theorem enabled_short {be : BitVec 4} (h : be ≠ 15) (off : Nat) (v : Word) (f : State → State) (s : State) :
    enabled be off v f s = hpErr 1 false off v s := if_neg (by simpa [allEnables] using h)

section
variable {s : State} (h : hostOk s = true) (t : Nat) (k : Fin 16) (v : Word)
include h

theorem exec_irqMaskSet : exec (.irqMaskSet t k v 15) s = .next (maskSet k v (s.advance t)) :=
  congrArg Host.Outcome.next (whenHost_advance h)
theorem exec_irqMaskClr : exec (.irqMaskClr t k v 15) s = .next (maskClr k v (s.advance t)) :=
  congrArg Host.Outcome.next (whenHost_advance h)
theorem exec_irqPendDiscard : exec (.irqPendDiscard t k v 15) s = .next (pendDiscard k v (s.advance t)) :=
  congrArg Host.Outcome.next (whenHost_advance h)
theorem exec_irqHdrain : exec (.irqHdrain t v 15) s = .next (hdrain v (s.advance t)) :=
  congrArg Host.Outcome.next (whenHost_advance h)
theorem exec_registerWrite_mask :
    exec (.registerWrite t .bar0 (0x10200 + 4 * k.val) v 15 1) s = .next (maskWrite k v (s.advance t)) :=
  congrArg Host.Outcome.next ((whenHost_advance h).trans (writeReg_mask k v (s.advance t)))
theorem exec_irqMaskClr_short {be : BitVec 4} (short : be ≠ 15) :
    exec (.irqMaskClr t k v be) s = .next (hpErr 1 false (0x10300 + 4 * k.val) v (s.advance t)) :=
  congrArg Host.Outcome.next ((whenHost_advance h).trans (enabled_short short ..))
theorem exec_irqDoorbellWrite (lo : 288 ≤ v.toNat) (hi : v.toNat ≤ 511) :
    exec (.irqDoorbellWrite t v 15) s =
      .next (raise v.toNat ((s.advance t).modIrq (fun q => { q with lastDb := v }))) :=
  congrArg Host.Outcome.next ((whenHost_advance h).trans (if_pos (by simp [allEnables, lo, hi])))
end

/-- HDRAIN takes its amount off the counter that it names and leaves the other counters alone. -/
theorem hdrain_hcnt (v : Word) (s : State) (h : HeadId) :
    tget (hdrain v s).irq.hcnt h = if h = Fin.ofNat 256 (fld v 16 8) then
      { count := (tget s.irq.hcnt h).count - fld v 0 8,
        sat := (tget s.irq.hcnt h).sat && decide (255 ≤ (tget s.irq.hcnt h).count - fld v 0 8) }
    else tget s.irq.hcnt h := tget_tmod ..

/-! ### O26 -/

/-- Settles O26, write by write: the bits that a word in its place reaches, the counter that HDRAIN names, the message of
a doorbell, and what a counted write leaves alone. -/
theorem interruptMasksAndCounters : Obligations.Interrupt_masks_and_counters := by
  unfold Obligations.Interrupt_masks_and_counters
  intro t s v host
  refine ⟨fun k => ⟨?set, ?clear, ?discard, ?plain, fun be short => ?short⟩, ?drain, fun lo hi => ?doorbell⟩
  case set => exact ⟨_, exec_irqMaskSet host t k v, rfl, rfl, or_mapPlace_getLsbD s.irq.mask k v⟩
  case clear => exact ⟨_, exec_irqMaskClr host t k v, rfl, rfl, andNot_mapPlace_getLsbD s.irq.mask k v⟩
  case discard => exact ⟨_, exec_irqPendDiscard host t k v, rfl, rfl, andNot_mapPlace_getLsbD s.irq.pend k v⟩
  case plain => exact ⟨_, exec_registerWrite_mask host t k v, rfl, rfl, mapPut_getLsbD s.irq.mask k v⟩
  case short =>
    have kept := hpErr_sources (s.advance t) 1 false (0x10300 + 4 * k.val) v
    exact ⟨_, exec_irqMaskClr_short host t k v short, mask_of_sources kept, pend_of_sources kept, hpErr_device ..⟩
  case drain =>
    refine ⟨_, exec_irqHdrain host t v, ?_, fun h other => ?_, rfl, rfl, rfl⟩
    · rw [hdrain_hcnt, if_pos rfl, advance_irq]
    · rw [hdrain_hcnt, if_neg other, advance_irq]
  case doorbell => exact ⟨_, exec_irqDoorbellWrite host t v lo hi, rfl, rfl, rfl, rfl⟩

end Sys2Proof.Machine
end

section
/-! SUPPORT. The resets of the core die and of AON (R310, R329, R330, R336, R337, R344 to R346): when a core die reset
acts and what it builds, the recorder write that a lost supply cuts off, and the epoch watchdog. Settles O39. -/
namespace Sys2Proof.Machine

/-! ### A write that a lost supply cuts off (R310, R316) -/

section
variable (s : State)

theorem tearWrite_eq_modRec : tearWrite s = s.modRec (fun _ => (tearWrite s).rcd) := by
  unfold tearWrite
  split
  · split <;> rfl
  · rfl

@[simp] theorem tearWrite_aon : (tearWrite s).aon = s.aon :=
  (congrArg State.aon (tearWrite_eq_modRec s) :)
@[simp] theorem tearWrite_pending : (tearWrite s).pending = s.pending :=
  (congrArg State.pending (tearWrite_eq_modRec s) :)
end

/-- A supply lost 20 us after the last write began, or later, tears nothing. -/
theorem tearWrite_of_ended {s : State} (ended : ∀ w, s.rcd.lastWrite = some w → w + 20000000 ≤ s.now) :
    tearWrite s = s := by
  unfold tearWrite
  cases e : s.rcd.lastWrite with
  | none => rfl
  | some w => exact if_neg fun ⟨early, _⟩ => absurd (ended w e) (Nat.not_le.mpr early)

/-- What a reset finds: the two core supplies, where one of them is its cause, have cut off a write. -/
def tornBy (cause : ResetCause) (s : State) : State := if cause = .vcoreUv ∨ cause = .vioUv then tearWrite s else s

section
variable {cause : ResetCause} {s : State}

/-- What a cut-off write leaves alone, this does too. -/
theorem tornBy_keeps {α : Type} {g : State → α} (keep : g (tearWrite s) = g s) : g (tornBy cause s) = g s := by
  unfold tornBy
  split
  · exact keep
  · rfl

theorem tornBy_of_other (core : cause ≠ .vcoreUv) (io : cause ≠ .vioUv) : tornBy cause s = s :=
  if_neg (not_or.mpr ⟨core, io⟩)

theorem tornBy_of_ended (ended : ∀ w, s.rcd.lastWrite = some w → w + 20000000 ≤ s.now) : tornBy cause s = s :=
  tornBy_keeps (g := id) (tearWrite_of_ended ended)
end

/-! ### Core die reset (R329, R330, R337, R345) -/

/-- What AON takes down of a core die reset. -/
def Aon.afterReset (cause : ResetCause) (a : Aon) : Aon :=
  { a with tbGen := a.tbGen + 1, cause := a.cause ||| bits (causeBit cause) 1, resets := (a.resets + 1) % 65536 }

theorem entering_advance {s : State} (t : Nat) (h : s.phase = .eclipse) :
    entering (s.advance t) = decide (max s.now t ≤ s.ecl.since + 2000000) := by
  simp [entering, h, us]

theorem clearCore_sec (s : State) (n : SecId) : (clearCore s).sec n = Section.reset (Config.random (s.free + n.val)) :=
  tget_tabulate _ n

section
variable {cause : ResetCause} {s : State}

theorem awake_iff : awake s = true ↔ s.phase = .running ∨ s.phase = .starting := by simp [awake]

/-- Out of reset, and not yet in eclipse. -/
theorem not_dark_of_acts (acts : awake s = true ∨ entering s = true) :
    s.phase ≠ .reset ∧ ¬ (s.phase = .eclipse ∧ entering s = false) := by
  rcases acts with up | enters
  · rcases awake_iff.mp up with p | p <;> simp [p]
  · have p : s.phase = .eclipse := by simpa using (Bool.and_eq_true_iff.mp enters).1
    simp [p, enters]

/-- Every reset acts on a core die that is awake or enters eclipse. -/
theorem coreReset_of_acts (acts : awake s = true ∨ entering s = true) :
    coreReset cause s = { clearCore (tornBy cause s) with aon := s.aon.afterReset cause } := by
  obtain ⟨out, lit⟩ := not_dark_of_acts acts
  unfold coreReset
  rw [if_neg fun h => h.elim out fun ⟨dark, entered, _⟩ => lit ⟨dark, entered⟩]
  show { clearCore (tornBy cause s) with aon := (tornBy cause s).aon.afterReset cause } = _
  rw [tornBy_keeps (g := State.aon) (tearWrite_aon s)]

/-- In eclipse neither the clock-fault reset nor the watchdog acts. -/
theorem coreReset_of_dark (dark : s.phase = .eclipse) (entered : entering s = false)
    (c : cause = .clock ∨ cause = .wdog) : coreReset cause s = s := if_pos (.inr ⟨dark, entered, c⟩)

/-- The loss of CLKREF is a clock-fault reset of a device whose clocks have gone. -/
theorem clkrefLoss_of_acts (acts : awake s = true ∨ entering s = true) :
    clkrefLoss s = { clearCore (s.modClk (fun c => { c with refOk := false, lock := false })) with
      aon := s.aon.afterReset .clock } :=
  (if_neg (not_dark_of_acts acts).2).trans (coreReset_of_acts (cause := .clock) (s := s.modClk _) acts)

theorem clkrefLoss_of_dark (dark : s.phase = .eclipse) (entered : entering s = false) : clkrefLoss s = s :=
  if_pos ⟨dark, entered⟩

/-! ### The epoch watchdog (R337) -/

theorem watchdog_of_due (acts : awake s = true ∨ entering s = true) (due : s.epc.start + 1000000000 ≤ s.now) :
    watchdog s = { clearCore s with aon := s.aon.afterReset .wdog } :=
  (if_pos ⟨(not_dark_of_acts acts).1, due⟩).trans (coreReset_of_acts acts)

theorem watchdog_of_not_due (h : s.phase = .reset ∨ s.now < s.epc.start + 1000000000) : watchdog s = s :=
  if_neg fun ⟨out, due⟩ => h.elim out (Nat.not_lt.mpr due)

theorem watchdog_of_dark (dark : s.phase = .eclipse) (entered : entering s = false) : watchdog s = s := by
  unfold watchdog
  rw [coreReset_of_dark dark entered (.inr rfl), ite_self]
end

/-! ### O39 -/

/-- Settles O39: by what a core die reset builds where it acts, awake or on the way into eclipse, and by the two cases
in which it does not. -/
theorem resets : Obligations.Resets := by
  unfold Obligations.Resets
  intro t s
  refine ⟨fun up => ?awake, fun up due => ?watchdog, fun dark enters due => ?entry, fun idle => ?idle,
    fun dark entered => ?dark, ?aon⟩
  case awake =>
    have acts : awake (s.advance t) = true ∨ entering (s.advance t) = true := .inl (awake_iff.mpr up)
    refine ⟨fun c => ?core, ?clkref⟩
    case core =>
      refine ⟨_, congrArg Host.Outcome.next (coreReset_of_acts acts), rfl, rfl, rfl, rfl, rfl, rfl, rfl, rfl,
        fun n => ⟨congrArg Section.core (clearCore_sec _ n), congrArg Section.latch (clearCore_sec _ n)⟩,
        rfl, rfl, rfl, rfl, rfl, rfl, tornBy_keeps (g := State.key) (tearWrite_key _),
        tornBy_keeps (g := State.pending) (tearWrite_pending _), fun whole => ?_⟩
      have kept : tornBy c (s.advance t) = s.advance t :=
        whole.elim (fun ⟨core, io⟩ => tornBy_of_other core io) (fun ended => tornBy_of_ended ended)
      exact congrArg (fun u => u.rcd.mem) kept
    case clkref => exact ⟨_, congrArg Host.Outcome.next (clkrefLoss_of_acts acts), rfl, rfl, rfl, rfl, rfl⟩
  case watchdog =>
    exact ⟨_, congrArg Host.Outcome.next (watchdog_of_due (s := s.advance t) (.inl up) due), rfl, rfl, rfl, rfl, rfl⟩
  case entry =>
    have enters : entering (s.advance t) = true := (entering_advance t dark).trans (decide_eq_true enters)
    exact ⟨_, congrArg Host.Outcome.next (watchdog_of_due (s := s.advance t) (.inr enters) due), rfl, rfl⟩
  case idle => exact congrArg Host.Outcome.next (watchdog_of_not_due idle)
  case dark =>
    have entered : entering (s.advance t) = false :=
      (entering_advance t dark).trans (decide_eq_false (Nat.not_le.mpr entered))
    exact ⟨congrArg Host.Outcome.next (watchdog_of_dark dark entered),
      congrArg Host.Outcome.next (clkrefLoss_of_dark dark entered),
      congrArg Host.Outcome.next (coreReset_of_dark dark entered (.inl rfl))⟩
  case aon =>
    exact ⟨_, rfl, rfl, rfl, rfl, rfl, rfl, rfl, rfl, rfl, rfl, aonReset_key _, tearWrite_pending _,
      fun ended => congrArg (fun u => u.rcd.mem) (tearWrite_of_ended (s := s.advance t) ended)⟩

end Sys2Proof.Machine
end

section
/-! SUPPORT. What leaves the run phase of the core die alone: every operation of every unit but the resets, the release,
the epoch boundary and the entry into eclipse, and so every command but the ten that reach one of these. -/
namespace Sys2Proof.Machine

/-! ### Branches and loops -/

@[simp] theorem phase_ite {p : Prop} [Decidable p] (a b : State) :
    (if p then a else b).phase = if p then a.phase else b.phase := apply_ite State.phase p a b

@[simp] theorem foldOver_phase {α : Type} {f : α → State → State} (l : List α)
    (keep : ∀ a s, (f a s).phase = s.phase) (s : State) : (foldOver l f s).phase = s.phase :=
  foldOver_keeps (g := State.phase) keep s

/-! ### The shared operations -/

section
variable (s : State) (k : Fin 16) (opcode : BitVec 16) (c : Cmd) (st : Status) (detail : Nat)
@[simp] theorem draw_phase : s.draw.2.phase = s.phase := (rfl)
@[simp] theorem whenAwake_phase {f : State → State} (keep : ∀ s, (f s).phase = s.phase) :
    (whenAwake f s).phase = s.phase := by
  simp [whenAwake, keep]
@[simp] theorem whenRunning_phase {f : State → State} (keep : ∀ s, (f s).phase = s.phase) :
    (whenRunning f s).phase = s.phase := by
  simp [whenRunning, keep]
@[simp] theorem whenHost_phase {f : State → State} (keep : ∀ s, (f s).phase = s.phase) :
    (whenHost f s).phase = s.phase := by
  simp [whenHost, keep]
@[simp] theorem raise_phase (n : Nat) : (raise n s).phase = s.phase := phase_of_device (raise_device ..)
@[simp] theorem trig_phase (cls source : Nat) (detail : Word) : (trig cls source detail s).phase = s.phase :=
  phase_of_device (trig_device ..)
@[simp] theorem orbFault_phase (flags : Word) : (orbFault k flags s).phase = s.phase :=
  phase_of_device (orbFault_device ..)
@[simp] theorem handBack_phase (b : Buf) (flags : Nat) : (handBack k b flags s).phase = s.phase :=
  phase_of_device (handBack_device ..)
@[simp] theorem offer_phase (bytes : List Byte) : (offer k bytes s).1.phase = s.phase :=
  phase_of_device (offer_device ..)
@[simp] theorem hpErr_phase (cause : Nat) (bar2 : Bool) (off : Nat) (val : Word) :
    (hpErr cause bar2 off val s).phase = s.phase :=
  phase_of_device (hpErr_device ..)
@[simp] theorem complete_phase (seq : Nat) (resp : List Byte) : (complete seq st detail resp s).phase = s.phase :=
  phase_of_device (complete_device ..)
@[simp] theorem completeJob_phase (job : Option Nat) : (completeJob job st detail s).phase = s.phase :=
  phase_of_device (completeJob_device ..)
@[simp] theorem admitCmd_phase (long : Bool) : (admitCmd opcode long c s).phase = s.phase :=
  phase_of_device (admitCmd_device ..)
@[simp] theorem holdBack_phase : (holdBack opcode c s).phase = s.phase := phase_of_device (holdBack_device ..)
end

section
variable {opcode : BitVec 16} {long : Bool} {need rneed : Nat} {c : Cmd} {body : Nat → State → State} {s : State}
/-- A command row moves the phase only where its body does. -/
theorem command_phase_of (keep : (body s.hp.admSeq (admitCmd opcode long c s)).phase = s.phase) :
    (command opcode long need rneed c body s).phase = s.phase := by
  rcases command_cases opcode long need rneed c body s with e | ⟨st, d, e⟩ | e
  · rw [e, holdBack_phase]
  · rw [e, complete_phase, admitCmd_phase]
  · rw [e, keep]
@[simp] theorem command_phase (keep : ∀ seq s, (body seq s).phase = s.phase) :
    (command opcode long need rneed c body s).phase = s.phase :=
  command_phase_of ((keep _ _).trans (admitCmd_phase ..))
end

/-! ### Flags -/

section
variable (s : State) (n : Nat) (h : HeadId) (flags : Word)
@[simp] theorem flagHead_phase (r : HeadReg) : (flagHead r h flags s).phase = s.phase := by simp [flagHead, countEvents]
@[simp] theorem flagFe_phase : (flagFe h n s).phase = s.phase := by simp [flagFe]
@[simp] theorem flagXs_phase : (flagXs h n s).phase = s.phase := by simp [flagXs]
@[simp] theorem flagFlt_phase : (flagFlt h n s).phase = s.phase := by simp [flagFlt]
@[simp] theorem flagCmp_phase : (flagCmp h n s).phase = s.phase := by simp [flagCmp]
@[simp] theorem flagTrn_phase : (flagTrn h n s).phase = s.phase := by simp [flagTrn]
@[simp] theorem announce_phase (src cls : Nat) (old new : Word) : (announce src cls old new s).phase = s.phase :=
  phase_of_device (announce_device ..)
@[simp] theorem flagVsp_phase : (flagVsp flags s).phase = s.phase := by simp [flagVsp]
@[simp] theorem flagZl_phase : (flagZl n s).phase = s.phase := by simp [flagZl]
@[simp] theorem flagEpc_phase : (flagEpc flags s).phase = s.phase := by simp [flagEpc]
@[simp] theorem flagClk_phase : (flagClk flags s).phase = s.phase := by simp [flagClk]
@[simp] theorem flagTb_phase : (flagTb n s).phase = s.phase := by simp [flagTb]
@[simp] theorem flagRec_phase : (flagRec n s).phase = s.phase := by simp [flagRec]
@[simp] theorem flagSec_phase (n : SecId) (k : Nat) : (flagSec n k s).phase = s.phase := by simp [flagSec]
end

/-! ### Heads -/

section
variable (s : State) (h : HeadId) (x : Sys) (r : StreamRec) (reason : Nat)
@[simp] theorem endEpisode_phase : (endEpisode h s).phase = s.phase := by unfold endEpisode; split <;> simp
@[simp] theorem pushItem_phase (it : Item) (n : SecId) : (pushItem it n s).phase = s.phase := by
  unfold pushItem
  split <;> simp
@[simp] theorem activity_phase : (activity h s).phase = s.phase := by simp [activity]
@[simp] theorem headNotice_phase : (headNotice h reason s).phase = s.phase := by simp [headNotice]
@[simp] theorem faultNotice_phase : (faultNotice h s).phase = s.phase := by simp [faultNotice]
@[simp] theorem changeNotice_phase : (changeNotice h s).phase = s.phase := by simp [changeNotice]
@[simp] theorem setLatches_phase : (setLatches h s).phase = s.phase := by simp [setLatches]
@[simp] theorem withLines_phase {f : State → State} (keep : ∀ s, (f s).phase = s.phase) :
    (withLines h f s).phase = s.phase := by
  simp [withLines, keep]
@[simp] theorem anchorSlice_phase : (anchorSlice h x s).phase = s.phase := by simp [anchorSlice]
@[simp] theorem loseLock_phase : (loseLock h x s).phase = s.phase := by simp [loseLock]
@[simp] theorem holdSettle_phase : (holdSettle h x s).phase = s.phase := by simp [holdSettle]
@[simp] theorem restartSettle_phase : (restartSettle h x s).phase = s.phase := by simp [restartSettle]
@[simp] theorem releaseSettle_phase : (releaseSettle h x s).phase = s.phase := by simp [releaseSettle]
@[simp] theorem onBoth_phase {f : Sys → State → State} (keep : ∀ a s, (f a s).phase = s.phase) :
    (onBoth f s).phase = s.phase := by
  simp [onBoth, keep]
@[simp] theorem countDrop_phase : (countDrop r s).phase = s.phase := by
  simp only [countDrop]
  repeat' split
  all_goals simp
@[simp] theorem offerRec_phase : (offerRec r s).phase = s.phase := by simp [offerRec]
@[simp] theorem queueRec_phase : (queueRec r s).phase = s.phase := by simp [queueRec]
@[simp] theorem issue_phase (i : Issued) : (issue h i s).phase = s.phase := by
  simp [issue, surveyPassage, countPassage, deliverPassage, recordPassage]
@[simp] theorem abortHead_phase : (abortHead h reason s).phase = s.phase := by simp only [abortHead]; split <;> simp
@[simp] theorem wiringFault_phase : (wiringFault h x s).phase = s.phase := by simp [wiringFault]
@[simp] theorem closeWindow_phase : (closeWindow h s).phase = s.phase := by simp [closeWindow]
@[simp] theorem realign_phase : (realign h s).phase = s.phase := by simp [realign]
@[simp] theorem restartHead_phase : (restartHead h s).phase = s.phase := by simp [restartHead]
@[simp] theorem swapDone_phase (w : Swap) : (swapDone h w s).phase = s.phase := by simp [swapDone]
@[simp] theorem endSwaps_phase : (endSwaps h s).phase = s.phase := by
  simp only [endSwaps]
  repeat' split
  all_goals simp
@[simp] theorem completeRoute_phase : (completeRoute h s).phase = s.phase := by simp [completeRoute]
@[simp] theorem completeChange_phase : (completeChange h s).phase = s.phase := by unfold completeChange; split <;> simp
@[simp] theorem afterRegulated_phase : (afterRegulated h x s).phase = s.phase := by
  simp only [afterRegulated]
  split <;> simp
end

/-! ### Operands of the commands -/

section
variable (seq : Nat) (s : State)
@[simp] theorem refuse_phase (st : Status) (code : Nat) : (refuse seq st code s).phase = s.phase := by simp [refuse]
@[simp] theorem done_phase : (done seq s).phase = s.phase := by simp [done]
@[simp] theorem withHead_phase (i rangeCode : Nat) {f : HeadId → State → State} (keep : ∀ h s,
    (f h s).phase = s.phase) :
    (withHead p i rangeCode seq f s).phase = s.phase := by
  unfold withHead
  split <;> simp [keep]
end

/-! ### Front end -/

section
variable (s : State) (h : HeadId) (x : Sys) (d : DieId) (g : Fin 4) (p : List Byte) (seq code : Nat) (w : Sweep)
  (ovr cm : Bool)
@[simp] theorem feRefuse_phase (seq : Option Nat) (st : Status) : (feRefuse h seq st code s).phase = s.phase := by
  simp [feRefuse]
@[simp] theorem forceSlice_phase : (forceSlice h x s).phase = s.phase := by simp [forceSlice]
@[simp] theorem admitRoute_phase (r : RouteCfg) (job : Option Nat) : (admitRoute h r job s).phase = s.phase := by
  simp [admitRoute, rampOff]
@[simp] theorem feRoute_phase : (feRoute p seq s).phase = s.phase := by
  simp only [feRoute]
  repeat' split
  all_goals simp
@[simp] theorem routeCtrlWrite_phase (v : Word) : (routeCtrlWrite h v s).phase = s.phase := by
  simp only [routeCtrlWrite]
  repeat' split
  all_goals simp
@[simp] theorem leakEval_phase (was : Bool) : (leakEval h was s).phase = s.phase := by simp [leakEval]
@[simp] theorem feBiasSet_phase : (feBiasSet p seq s).phase = s.phase := by
  unfold feBiasSet
  refine withHead_phase (keep := fun h s => ?_) ..
  dsimp only
  repeat' split
  all_goals simp
@[simp] theorem routeBreak_phase : (routeBreak h s).phase = s.phase := by simp only [routeBreak]; split <;> simp
@[simp] theorem retune_phase : (retune h x s).phase = s.phase := by simp [retune, lowerEnvbw, bankFollow, dropNotches]
@[simp] theorem makeSlice_phase : (makeSlice h x s).phase = s.phase := by simp [makeSlice]
@[simp] theorem routeMake_phase : (routeMake h s).phase = s.phase := by unfold routeMake; split <;> simp
@[simp] theorem routeAfterBreak_phase : (routeAfterBreak h s).phase = s.phase := by
  simp only [routeAfterBreak]
  split <;> simp [startTest]
@[simp] theorem routeDischargeEnd_phase : (routeDischargeEnd h s).phase = s.phase := by
  simp only [routeDischargeEnd]
  split <;> simp
@[simp] theorem routeAfterBreak2_phase : (routeAfterBreak2 h s).phase = s.phase := by simp [routeAfterBreak2]
@[simp] theorem makeDue_phase : (makeDue h x s).phase = s.phase := by simp [makeDue]
@[simp] theorem feImpRun_phase : (feImpRun p seq s).phase = s.phase := by simp [feImpRun]
@[simp] theorem feImpSetref_phase : (feImpSetref p seq s).phase = s.phase := by simp [feImpSetref]
@[simp] theorem modTone_phase (f : Tone → Tone) : (s.modTone d g f).phase = s.phase := by simp [State.modTone]
@[simp] theorem endSweep_phase : (endSweep d g w code s).phase = s.phase := by unfold endSweep; split <;> simp
@[simp] theorem sweepPoint_phase (r : Word × Word) : (sweepPoint d g w r s).phase = s.phase := by simp [sweepPoint]
@[simp] theorem slotStart_phase : (slotStart d g s).phase = s.phase := by
  simp only [slotStart]
  repeat' split
  all_goals simp
@[simp] theorem slotEnd_phase (m : ImpMeasure) : (slotEnd d g m s).phase = s.phase := by
  simp only [slotEnd]
  repeat' split
  all_goals simp [checkDone, impRecord, classEffects]
@[simp] theorem slotAbort_phase : (slotAbort d g s).phase = s.phase := by
  simp only [slotAbort]
  repeat' split
  all_goals simp
@[simp] theorem checkOverdue_phase : (checkOverdue h x s).phase = s.phase := by simp only [checkOverdue]; split <;> simp
@[simp] theorem sweepTimeout_phase : (sweepTimeout d g s).phase = s.phase := by unfold sweepTimeout; split <;> simp
@[simp] theorem leakTimer_phase : (leakTimer h s).phase = s.phase := by unfold leakTimer; split <;> simp
@[simp] theorem unbridge_phase : (unbridge h x s).phase = s.phase := by unfold unbridge; split <;> simp
@[simp] theorem beginGap_phase (from_ : Nat) : (beginGap h x from_ s).phase = s.phase := by
  simp only [beginGap]
  split <;> simp
@[simp] theorem endGap_phase : (endGap h x s).phase = s.phase := by simp only [endGap]; split <;> simp
@[simp] theorem invalidStart_phase : (invalidStart h x ovr cm s).phase = s.phase := by
  simp only [invalidStart]
  repeat' split
  all_goals simp
@[simp] theorem invalidLong_phase : (invalidLong h x ovr cm s).phase = s.phase := by unfold invalidLong; split <;> simp
@[simp] theorem invalidEnd_phase : (invalidEnd h x s).phase = s.phase := by simp [invalidEnd]
@[simp] theorem gapBridged_phase : (gapBridged h x s).phase = s.phase := by unfold gapBridged; split <;> simp
end

/-! ### Excitation -/

section
variable (s : State) (h : HeadId) (job : Option Nat) (d : DieId) (tj : Int) (p : List Byte) (seq : Nat) (x : Sys)
  (r : XsReq) (off : Bool)
@[simp] theorem switchPoint_phase : (switchPoint h x s).phase = s.phase := by simp [switchPoint]
@[simp] theorem xsAdmit_phase : (xsAdmit h r job s).phase = s.phase := by simp [xsAdmit, admitChange]
@[simp] theorem xsRefuse_phase (st : Status) (code : Nat) : (xsRefuse h job st code s).phase = s.phase := by
  simp [xsRefuse]
@[simp] theorem xsSet_phase : (xsSet p seq s).phase = s.phase := by
  simp only [xsSet]
  repeat' split
  all_goals simp
@[simp] theorem headPlan_phase (f : XsHead → XsHead) : (headPlan h f job s).phase = s.phase := by simp [headPlan]
@[simp] theorem xsAdjSet_phase : (xsAdjSet p seq s).phase = s.phase := by unfold xsAdjSet; split <;> simp
@[simp] theorem xsBandsSet_phase : (xsBandsSet p seq s).phase = s.phase := by unfold xsBandsSet; split <;> simp
@[simp] theorem xsListenReset_phase : (xsListenReset p seq s).phase = s.phase := by simp [xsListenReset]
@[simp] theorem devPlan_phase (f : Dev → Dev) : (devPlan f job s).phase = s.phase := by
  simp only [devPlan]
  split <;> simp
@[simp] theorem devRange_phase : (devRange job s).phase = s.phase := by simp [devRange]
@[simp] theorem ubandRequest_phase (k : Fin 16) (w : Word) : (ubandRequest k w job s).phase = s.phase := by
  simp [ubandRequest]
@[simp] theorem xsWrite_phase (o : Nat) (v : Word) : (xsWrite h o v r s).phase = s.phase := by
  unfold xsWrite
  split <;> simp
@[simp] theorem carrierSwitch_phase : (carrierSwitch h x s).phase = s.phase := by unfold carrierSwitch; split <;> simp
@[simp] theorem thermStore_phase : (thermStore d off tj s).phase = s.phase := by simp [thermStore]
@[simp] theorem thermTell_phase (was : Die) : (thermTell d was s).phase = s.phase := by simp [thermTell, thermRaise]
@[simp] theorem thermSet_phase : (thermSet d off tj s).phase = s.phase := by simp [thermSet]
@[simp] theorem thermWarn_phase : (thermWarn d tj s).phase = s.phase := by simp [thermWarn]
@[simp] theorem thermHead_phase : (thermHead h s).phase = s.phase := by simp [thermHead]
@[simp] theorem thermOff_phase : (thermOff d tj s).phase = s.phase := by simp [thermOff]
@[simp] theorem thermBack_phase : (thermBack h s).phase = s.phase := by simp [thermBack]
@[simp] theorem thermOffClear_phase : (thermOffClear d tj s).phase = s.phase := by simp [thermOffClear]
end

/-! ### Filter chain -/

section
variable (s : State) (h : HeadId) (seq code : Nat) (p : List Byte) (job : Option Nat) (st : Status) (w : Swap) (x : Sys)
@[simp] theorem fltRefuse_phase : (fltRefuse h job st code s).phase = s.phase := by simp [fltRefuse]
@[simp] theorem filterChange_phase (f : FltHead → FltHead) : (filterChange h f job s).phase = s.phase := by
  simp [filterChange]
@[simp] theorem fltAdmit_phase (r : FltReq) : (fltAdmit h r job s).phase = s.phase := by simp [fltAdmit]
@[simp] theorem fltSet_phase : (fltSet p seq s).phase = s.phase := by
  unfold fltSet
  refine withHead_phase (keep := fun h s => ?_) ..
  dsimp only
  split <;> simp
@[simp] theorem fltNotchSet_phase : (fltNotchSet p seq s).phase = s.phase := by
  unfold fltNotchSet
  refine withHead_phase (keep := fun h s => ?_) ..
  dsimp only
  repeat' split
  all_goals simp
@[simp] theorem startSwap_phase : (startSwap h w s).phase = s.phase := by simp [startSwap]
@[simp] theorem admitSwap_phase : (admitSwap h w s).phase = s.phase := by
  simp only [admitSwap]
  repeat' split
  all_goals simp
@[simp] theorem fltSwap_phase : (fltSwap p seq s).phase = s.phase := by
  unfold fltSwap
  refine withHead_phase (keep := fun h s => ?_) ..
  dsimp only
  split <;> simp
@[simp] theorem dequeueSwap_phase : (dequeueSwap h s).phase = s.phase := by
  simp only [dequeueSwap]
  repeat' split
  all_goals simp
@[simp] theorem fadeComplete_phase : (fadeComplete h x s).phase = s.phase := by simp only [fadeComplete]; split <;> simp
@[simp] theorem bankOutcome_phase (d : DieId) (slot : Nat) : (bankOutcome d slot seq st code s).phase = s.phase := by
  simp [bankOutcome]
@[simp] theorem fltBankLoad_phase : (fltBankLoad p seq s).phase = s.phase := by unfold fltBankLoad; split <;> simp
@[simp] theorem fltBankFree_phase : (fltBankFree p seq s).phase = s.phase := by unfold fltBankFree; split <;> simp
@[simp] theorem fltBankRead_phase : (fltBankRead p seq s).phase = s.phase := by unfold fltBankRead; split <;> simp
@[simp] theorem fltPreSeal_phase (o : Nat) (v : Word) : (fltPreSeal h o v s).phase = s.phase := by
  simp only [fltPreSeal]
  repeat' split
  all_goals simp
end

/-! ### Comparators -/

section
variable (h : HeadId) (s : State) (x : Sys) (job : Option Nat)
@[simp] theorem noteCheck_phase (thr : Nat) : (noteCheck h x thr s).phase = s.phase := by simp [noteCheck]
@[simp] theorem releasePresence_phase : (releasePresence h x s).phase = s.phase := by simp [releasePresence]
@[simp] theorem brakeEnd_phase : (brakeEnd h s).phase = s.phase := by unfold brakeEnd; split <;> simp
@[simp] theorem testEnd_phase (r : TestResult) : (testEnd h x r s).phase = s.phase := by simp [testEnd]
@[simp] theorem envHoldEnd_phase : (envHoldEnd h x s).phase = s.phase := by unfold envHoldEnd; split <;> simp
@[simp] theorem cmpOutcome_phase (code : Nat) : (cmpOutcome h job code s).phase = s.phase := by simp [cmpOutcome]
@[simp] theorem cmpStage_phase (w : CmpWords) : (cmpStage h w job s).phase = s.phase := by simp [cmpStage]
end

/-! ### Transits -/

section
variable (s : State) (h : HeadId) (p : Passage) (tk seq : Nat) (job : Option Nat) (x : Sys)
@[simp] theorem signature_phase (m : Measure) : (signature h p m s).2.phase = s.phase := by
  unfold signature
  split <;> simp
@[simp] theorem issuePassage_phase (forced : Nat) : (issuePassage h p forced s).phase = s.phase := by
  simp [issuePassage]
@[simp] theorem formDepth_phase (fromWait : Bool) : (formDepth h x tk fromWait s).2.phase = s.phase := by
  unfold formDepth
  exact modTrnSlice_phase ..
@[simp] theorem machineStep_phase : (machineStep h tk s).phase = s.phase := by simp [endPassage, machineStep, moveBase]
@[simp] theorem passageValidation_phase : (passageValidation h s).phase = s.phase := by
  unfold passageValidation
  split <;> simp
@[simp] theorem trnOutcome_phase (st : Status) (code : Nat) : (trnOutcome h job st code s).phase = s.phase := by
  simp [trnOutcome]
@[simp] theorem trnAdmit_phase (w : TrnWords) : (trnAdmit h w job s).phase = s.phase := by simp [trnAdmit]
@[simp] theorem trnSet_phase (p : List Byte) : (trnSet p seq s).phase = s.phase := by
  unfold trnSet
  refine withHead_phase (keep := fun h s => ?_) ..
  dsimp only
  split <;> simp
@[simp] theorem trnPreSeal_phase (o : Nat) (v : Word) : (trnPreSeal h o v s).phase = s.phase := by
  unfold trnPreSeal
  extract_lets old w
  split <;> simp
@[simp] theorem trnSetref_phase (p : List Byte) : (trnSetref p seq s).phase = s.phase := by
  unfold trnSetref
  refine withHead_phase (keep := fun h s => ?_) ..
  dsimp only
  repeat' split
  all_goals simp
end

/-! ### Sections -/

section
variable (s : State) (n : SecId) (job : Option Nat) (seq : Nat)
@[simp] theorem queueSecRec_phase (b : List Byte) : (queueSecRec n b s).phase = s.phase := by simp [queueSecRec]
@[simp] theorem secOutcome_phase (code : Nat) : (secOutcome n job code s).phase = s.phase := by simp [secOutcome]
@[simp] theorem secBind_phase (entries words : List Word) : (secBind n entries words job s).phase = s.phase := by
  simp [secBind, storeBind]
@[simp] theorem secSet_phase (cfg m : Word) : (secSet n cfg m job s).phase = s.phase := by simp [secSet]
@[simp] theorem queueCmd_phase (op : SecOp) (wr : Option Word) : (queueCmd n op job wr s).phase = s.phase := by
  simp [queueCmd]
@[simp] theorem secReset_phase (direct : Bool) (etok : Nat) (toks : List (Nat × List Byte)) :
    (secReset n direct etok toks seq s).phase = s.phase := by
  simp only [secReset]
  repeat' split
  all_goals simp [resetEnd]
@[simp] theorem askSnap_phase (w : Snap) : (askSnap w s).phase = s.phase := by simp [askSnap]
@[simp] theorem withSec_phase (p : List Byte) {f : SecId → State → State} (keep : ∀ n s, (f n s).phase = s.phase) :
    (withSec p seq f s).phase = s.phase := by
  unfold withSec
  split <;> simp [keep]
end

/-! ### The partner's set -/

section
variable (s : State) (n : SecId)
@[simp] theorem sendLink_phase (b : List Byte) : (sendLink b s).phase = s.phase := by simp [sendLink]
@[simp] theorem judge_phase (m : LinkMsg) (status : Bool) : (judge m status s).2.phase = s.phase := by
  simp only [judge]
  repeat' split
  all_goals simp
@[simp] theorem dropCovered_phase : (dropCovered s).phase = s.phase := by
  simp only [dropCovered]
  repeat' split
  all_goals simp
@[simp] theorem missAdoption_phase : (missAdoption n s).phase = s.phase := by simp [missAdoption]
@[simp] theorem takeOverSec_phase (seq : Nat) : (takeOverSec seq n s).phase = s.phase := by
  simp only [takeOverSec]
  repeat' split
  all_goals simp
@[simp] theorem staleCmd_phase (c : SecCmd) : (staleCmd n c s).phase = s.phase := by unfold staleCmd; split <;> simp
end

/-! ### Lanes -/

section
variable (s : State) (l : Lane)
@[simp] theorem endRead_phase : (endRead l s).phase = s.phase := by unfold endRead; split <;> simp
@[simp] theorem endReads_phase : (endReads s).phase = s.phase := by simp [endReads]
@[simp] theorem abortRead_phase : (abortRead l s).phase = s.phase := by simp only [abortRead]; split <;> simp
@[simp] theorem cutRead_phase : (cutRead l s).phase = s.phase := by simp only [cutRead]; split <;> simp
@[simp] theorem cutReads_phase : (cutReads s).phase = s.phase := by simp [cutReads]
end

/-! ### Time base -/

section
variable (s : State)
@[simp] theorem tbAnchor_phase : (tbAnchor s).phase = s.phase := by simp [tbAnchor]
@[simp] theorem setRate_phase (base adj : Int) : (setRate base adj s).phase = s.phase := by simp [setRate]
@[simp] theorem measureRef_phase : (measureRef s).phase = s.phase := by simp [measureRef]
@[simp] theorem tbEnter_phase (st : TbState) : (tbEnter st s).phase = s.phase := by unfold tbEnter; split <;> simp
@[simp] theorem refLost_phase (flag : Nat) : (refLost flag s).phase = s.phase := by simp [refLost]
@[simp] theorem tenMhzLoss_phase : (tenMhzLoss s).phase = s.phase := by simp [tenMhzLoss]
@[simp] theorem ppsLoss_phase : (ppsLoss s).phase = s.phase := by unfold ppsLoss; split <;> simp
@[simp] theorem tbBoundary_phase (seq : Nat) : (tbBoundary seq s).phase = s.phase := by
  simp only [tbBoundary]
  split <;> simp [tbMode, applyStep, stepEffects, pushLatch]
@[simp] theorem tbSet_phase (cfg disc : Word) : (tbSet cfg disc s).phase = s.phase := by simp [tbSet]
end

/-! ### Ring reads -/

section
variable (s : State)
@[simp] theorem readSome_phase (n : Nat) (j : ReadJob) : (readSome n j s).2.phase = s.phase := by
  induction n generalizing j s with
  | zero => rfl
  | succ n ih =>
    simp only [readSome]
    split <;> simp [ih]
@[simp] theorem readChunk_phase (j : ReadJob) : (readChunk j s).phase = s.phase := by simp [readChunk, finishRead]
end

/-! ### Epochs -/

section
variable (s : State) (n : SecId) (p : Priv)
@[simp] theorem lateCmd_phase (c : SecCmd) : (lateCmd n c s).phase = s.phase := by unfold lateCmd; split <;> simp
@[simp] theorem dropSec_phase : (dropSec n s).phase = s.phase := by simp [dropSec]
@[simp] theorem grantPriv_phase : (grantPriv n p s).phase = s.phase := by simp [serve, grantPriv]
@[simp] theorem serveAdoption_phase : (serveAdoption n s).phase = s.phase := by
  unfold serveAdoption
  split <;> simp [setMismatch]
@[simp] theorem grant_phase : (grant n s).phase = s.phase := by
  simp only [grant]
  repeat' split
  all_goals simp
@[simp] theorem finishCmd_phase (d : CmdDone) : (finishCmd n d s).phase = s.phase := by unfold finishCmd; split <;> simp
@[simp] theorem commitPriv_phase : (commitPriv n p s).phase = s.phase := by
  simp only [commitPriv]
  split <;> simp [adoptCommit]
@[simp] theorem commitSec_phase : (commitSec n s).phase = s.phase := by unfold commitSec; split <;> simp
@[simp] theorem deadlineSec_phase : (deadlineSec n s).phase = s.phase := by unfold deadlineSec; split <;> simp
@[simp] theorem deadline_phase : (deadline s).phase = s.phase := by
  simp [deadline, epochReport, epochRecord, surveyEpoch, openQuiet]
/-- An epoch boundary leaves the core die running (R200). -/
theorem boundary_phase (i : BoundaryInput) : (boundary i s).phase = .running := by
  simp [boundary, driveEpoch, listenEpoch, dieReport, readMore, vspBoundary, latchSet, writeSnaps, takeSnap, changeRole,
    handDownSec, decayTrims, leakUpdate, senseStages, stormWindow, linkBoundary]
@[simp] theorem trackTick_phase (i : TickInput) : (trackTick i s).phase = s.phase := by
  simp [trackTick, takeSample, plausTick, paceSample, surveyPace]
@[simp] theorem epcCtrl_phase (v : Word) : (epcCtrl v s).phase = s.phase := by simp [epcCtrl]
end

/-! ### Duplex operation -/

section
variable (s : State) (m : LinkMsg) (h : HeadId) (x : Sys)
@[simp] theorem raiseMark_phase : (raiseMark h x s).phase = s.phase := by simp [raiseMark]
@[simp] theorem raiseMarks_phase : (raiseMarks s).phase = s.phase := by simp [raiseMarks]
@[simp] theorem withdrawHead_phase : (withdrawHead h s).phase = s.phase := by simp [withdrawHead, withdrawSlice]
@[simp] theorem withdrawAll_phase (won : Bool) : (withdrawAll won s).phase = s.phase := by
  simp [withdrawAll, abortDrive]
@[simp] theorem setRoleIn_phase (r : BitVec 2) : (setRoleIn r s).phase = s.phase := by simp [setRoleIn]
@[simp] theorem pickUp_phase : (pickUp s).phase = s.phase := by simp [pickUp, pickUpSlice]
@[simp] theorem holdTimeout_phase : (holdTimeout s).phase = s.phase := by unfold holdTimeout; split <;> simp
@[simp] theorem linkToTrain_phase : (linkToTrain s).phase = s.phase := by unfold linkToTrain; split <;> simp [unsyncAll]
@[simp] theorem linkToDown_phase : (linkToDown s).phase = s.phase := by simp [linkToDown]
@[simp] theorem linkStart_phase : (linkStart s).phase = s.phase := by simp [linkStart]
@[simp] theorem doorbellSend_phase : (doorbellSend s).phase = s.phase := by unfold doorbellSend; split <;> simp
@[simp] theorem pdbWrite_phase (v : Word) : (pdbWrite v s).phase = s.phase := by simp [pdbWrite]
@[simp] theorem messageDiscarded_phase : (messageDiscarded s).phase = s.phase := by simp [messageDiscarded]
@[simp] theorem receive_phase (lo hi : Nat) (status : Bool) {f : State → State} (keep : ∀ s, (f s).phase = s.phase) :
    (receive lo hi m status f s).phase = s.phase := by
  simp [receive, keep]
@[simp] theorem measureSkew_phase (p : PartnerStatus) (consecutive : Bool) :
    (measureSkew p consecutive s).phase = s.phase := by
  unfold measureSkew
  split <;> simp
@[simp] theorem alignedNow_phase : (alignedNow s).phase = s.phase := by unfold alignedNow; split <;> simp
@[simp] theorem lfullMessage_phase : (lfullMessage m s).phase = s.phase := by
  unfold lfullMessage
  split <;> simp [applyFull]
@[simp] theorem zlStore_phase (paired unit : Bool) (age : Nat) : (zlStore paired unit age s).phase = s.phase := by
  simp [zlStore]
end

/-! ### Vital status port -/

section
variable (s : State) (l : Lane)
@[simp] theorem heldLow_phase : (heldLow l s).phase = s.phase := modLane_phase ..
@[simp] theorem vspRead_phase (i : ReadInput) : (vspRead l i s).phase = s.phase := by
  simp only [vspRead]
  split <;> simp
@[simp] theorem armCrcFail_phase (v : Word) : (armCrcFail v s).phase = s.phase := by simp [armCrcFail]
end

/-! ### Interrupts -/

section
variable (s : State) (v : Word) (k : Fin 16) (be : BitVec 4)
@[simp] theorem applyMessage_phase : (applyMessage s).phase = s.phase := by unfold applyMessage; split <;> simp
@[simp] theorem sendMsix_phase (v : SrcId) : (sendMsix v s).phase = s.phase := by simp [sendMsix]
@[simp] theorem arbitrate_phase : (arbitrate s).phase = s.phase := by
  unfold arbitrate
  split <;> simp [commitSource, deliver, stormCount]
@[simp] theorem releaseHeld_phase : (releaseHeld s).phase = s.phase := by
  simp only [releaseHeld]
  repeat' split
  all_goals simp
@[simp] theorem msixWrite_phase (w : MsixWrite) : (msixWrite w s).phase = s.phase := by unfold msixWrite; split <;> simp
@[simp] theorem whenHostUp_phase {f : State → State} (keep : ∀ s, (f s).phase = s.phase) :
    (whenHostUp f s).phase = s.phase := by
  simp [whenHostUp, keep]
@[simp] theorem enabled_phase (off : Nat) {f : State → State} (keep : ∀ s, (f s).phase = s.phase) :
    (enabled be off v f s).phase = s.phase := by
  simp [enabled, keep]
@[simp] theorem eoi_phase : (eoi v s).phase = s.phase := by simp [eoi]
@[simp] theorem hdrain_phase : (hdrain v s).phase = s.phase := by simp [hdrain]
@[simp] theorem maskSet_phase : (maskSet k v s).phase = s.phase := by simp [maskSet]
@[simp] theorem maskClr_phase : (maskClr k v s).phase = s.phase := by simp [maskClr]
@[simp] theorem pendDiscard_phase : (pendDiscard k v s).phase = s.phase := by simp [pendDiscard]
@[simp] theorem irqDoorbell_phase : (irqDoorbell v be s).phase = s.phase := by simp [irqDoorbell]
end

/-! ### Recorder -/

section
variable (s : State) (t : Trigger) (seq : Nat) (v : Word)
@[simp] theorem stage_phase (e : RecEntry) : (stage e s).phase = s.phase := by simp [stage]
@[simp] theorem enterQueue_phase (ecl : Bool) : (enterQueue t ecl s).phase = s.phase := by simp [enterQueue]
@[simp] theorem service_phase : (service t s).phase = s.phase := by
  simp only [service]
  repeat' split
  all_goals simp
@[simp] theorem countTrigger_phase : (countTrigger t s).phase = s.phase := modRec_phase ..
@[simp] theorem handleTrigger_phase : (handleTrigger t s).phase = s.phase := by simp [handleTrigger]
@[simp] theorem nextTrigger_phase : (nextTrigger s).phase = s.phase := by unfold nextTrigger; split <;> simp
@[simp] theorem settleTriggers_phase : (settleTriggers s).phase = s.phase := by simp [settleTriggers]
@[simp] theorem writeBack_phase : (writeBack s).phase = s.phase := by unfold writeBack; split <;> simp
@[simp] theorem closeOpen_phase : (closeOpen s).phase = s.phase := by simp [closeOpen]
@[simp] theorem recWriteBack_phase : (recWriteBack s).phase = s.phase := by unfold recWriteBack; split <;> simp
@[simp] theorem surveyStart_phase : (surveyStart seq s).phase = s.phase := by simp [surveyStart]
@[simp] theorem recSet_phase (cfg period trigEn eclEn : Word) : (recSet cfg period trigEn eclEn s).phase = s.phase := by
  simp [recSet]
@[simp] theorem recClear_phase (p : List Byte) : (recClear p seq s).phase = s.phase := by
  unfold recClear
  split <;> simp [queueClear]
@[simp] theorem recMark_phase : (recMark v s).phase = s.phase := by simp [recMark]
@[simp] theorem recCursor_phase : (recCursor v s).phase = s.phase := by simp [recCursor]
end

/-! ### Power and clocks -/

section
variable (s : State) (d : DieId) (job : Option Nat) (v : Word) (h : HeadId)
@[simp] theorem flagPwr_phase (flags die : Word) (source : Nat) : (flagPwr flags die source s).phase = s.phase := by
  simp [flagPwr]
@[simp] theorem endpointReset_phase : (endpointReset s).phase = s.phase := by simp [endpointReset]
@[simp] theorem endHeadJobs_phase : (endHeadJobs h s).phase = s.phase := by
  simp only [endHeadJobs]
  repeat' split
  all_goals simp
@[simp] theorem endDieSweeps_phase : (endDieSweeps d s).phase = s.phase := by
  unfold endDieSweeps
  refine foldOver_keeps (g := State.phase) (fun g s => ?_) s
  split <;> simp
@[simp] theorem dieNotice_phase : (dieNotice d s).phase = s.phase := by
  simp only [dieNotice]
  refine (foldOver_keeps (g := State.phase) (fun n s => ?_) _).trans (by simp)
  split <;> simp
@[simp] theorem dieDown_phase : (dieDown d s).phase = s.phase := by simp [dieDown, resetDie]
@[simp] theorem finishDie_phase (of : FldJob → Bool) : (finishDie of d s).phase = s.phase := by simp [finishDie]
@[simp] theorem closeSwitches_phase : (closeSwitches d s).phase = s.phase := by simp [closeSwitches]
@[simp] theorem fldAdmit_phase (mask : BitVec 8) (on : Bool) : (fldAdmit mask on job s).phase = s.phase := by
  unfold fldAdmit
  split <;> simp [turnOff, turnOn]
@[simp] theorem dieReleased_phase : (dieReleased d s).phase = s.phase := by simp [dieReleased, releaseDie]
@[simp] theorem recovered_phase (dom : Domain) : (recovered dom s).phase = s.phase := by
  unfold recovered
  split <;> simp
@[simp] theorem clkStore_phase : (clkStore v job s).phase = s.phase := by simp [clkStore]
@[simp] theorem refclkLoss_phase : (refclkLoss s).phase = s.phase := by simp [refclkLoss]
end

/-! ### Host port -/

section
variable (s : State) (v : Word) (k : Fin 16) (off o : Nat) (r : RegView) (be : BitVec 4) (h : HeadId)
@[simp] theorem sealWrite_phase : (sealWrite v s).phase = s.phase := by simp [sealWrite]
@[simp] theorem errClr_phase : (errClr v s).phase = s.phase := by simp [errClr]
@[simp] theorem orbCfgWrite_phase : (orbCfgWrite k v s).phase = s.phase := by simp [orbCfgWrite]
@[simp] theorem skipShort_phase (bufs : List Buf) : (skipShort k bufs s).phase = s.phase := by
  induction bufs generalizing s with
  | nil => rfl
  | cons b rest ih => simp [skipShort, ih]
@[simp] theorem skipNow_phase : (skipNow k s).phase = s.phase := by simp [skipNow]
@[simp] theorem doorbell_phase (descs : List StreamDesc) : (doorbell k v be descs s).phase = s.phase := by
  simp [doorbell, takeDoorbell]
@[simp] theorem flushStream_phase : (flushStream k s).phase = s.phase := by
  simp only [flushStream]
  repeat' split
  all_goals simp
/-- A write that takes effect whether the device is sealed or not leaves the phase alone. -/
theorem devAct_phase {u : State} (e : devAct off v s = some u) : u.phase = s.phase := by
  unfold devAct at e
  repeat
    obtain rfl | e := eq_or_of_ite_eq_some e
    · simp
  cases e
@[simp] theorem devPreSeal_phase : (devPreSeal off v s).phase = s.phase := by
  simp [devPreSeal, xsDevPreSeal, secAuthWrite, tbPreSeal, zlPreSeal, vspPreSeal, eclPreSeal, recPreSeal, fldPreSeal,
    clkPreSeal]
@[simp] theorem sealedWrite_phase : (sealedWrite off v r s).phase = s.phase := by simp [sealedWrite]
@[simp] theorem headWrite_phase : (headWrite h o v r s).phase = s.phase := by
  simp only [headWrite]
  repeat' split
  all_goals simp [headPreSeal, xsPreSeal, cmpPreSeal, fePreSeal]
@[simp] theorem devWrite_phase : (devWrite off v r s).phase = s.phase := by
  unfold devWrite
  split
  next u e => exact devAct_phase _ _ _ e
  next => simp
@[simp] theorem writeReg_phase : (writeReg off v s).phase = s.phase := by
  unfold writeReg
  split <;> simp [secPreSeal, secWriteErr, orbWriteReg, irqWriteReg, maskWrite, stormClear, hpWriteReg, secWrite]
@[simp] theorem busWrite_phase (bar : Bar) (dwords : Nat) : (busWrite bar off v be dwords s).phase = s.phase := by
  unfold busWrite
  split <;> simp [writeBar2, writeBar4]
@[simp] theorem logAer_phase : (logAer s).phase = s.phase := by simp [logAer]
@[simp] theorem dmaError_phase (r : DmaRead) : (dmaError r s).phase = s.phase := by
  unfold dmaError
  split <;> simp [descriptorError, payloadError]
end

/-! ### Reads of the host -/

section
variable (s : State)
@[simp] theorem busRead_phase (r : BusRead) : (busRead r s).phase = s.phase := by
  simp [busRead, readCaptures, readTbNow, readTbEpoch, readSeq]
end

/-! ### Test access port -/

section
variable (s : State) (code : Byte)
@[simp] theorem whenTap_phase {f : State → State} (keep : ∀ s, (f s).phase = s.phase) :
    (whenTap f s).phase = s.phase := by
  simp [whenTap, keep]
@[simp] theorem selectTap_phase (dr : BitVec 40) : (selectTap code dr s).phase = s.phase := by simp [selectTap]
@[simp] theorem scanChain_phase (cells : List (ScanPin × Bool)) : (scanChain code cells s).phase = s.phase := by
  simp [scanChain]
@[simp] theorem eclRead_phase : (eclRead s).phase = s.phase := by simp [eclRead]
@[simp] theorem loadPath_phase (v : BitVec 48) : (loadPath v s).phase = s.phase := by simp [loadPath]
end

/-! ### Every command but those that reset, release, run or stall the core die -/

/-- The commands that can move the run phase: the resets, the release, the epoch boundary and the requests for eclipse. -/
def movesPhase : Instr → Bool
  | .eclEnter _ _ | .eclipseRequest _ | .recWrite _ | .startUp _ _ | .epochBoundary _ _ | .supplyMonitorTrip _ _
  | .aonPowerOnReset _ | .coreDieReset _ _ | .clkrefLoss _ | .epochWatchdog _ => true
  | _ => false

/-- What any other command runs keeps the phase, unit by unit. -/
theorem exec_phase {i : Instr} {s u : State} (still : movesPhase i = false) (e : exec i s = .next u) :
    u.phase = s.phase := by
  cases i
  case eclEnter | eclipseRequest | recWrite | startUp | epochBoundary | supplyMonitorTrip | aonPowerOnReset |
      coreDieReset | clkrefLoss | epochWatchdog =>
    cases still
  case feRoute | feRouteCtrlGo | feBiasSet | feImpSet | feImpRun | feImpSetref | feImpSweep | invalidRunStart |
      invalidRunLong | gapUnbridged | gapBridged | routeRampDownDone | routeBreakExpiry | routeDischargeExpiry |
      routeBreak2Expiry | leakFaultTimer | impCheckDue | impSlotStart | impSlotEnd | impSlotAbort | impOverdue |
      sweepTimeout | invalidRunEnd =>
    cases e; simp [feImpSet, feImpSweep, checkDue]
  case xsSet | xsAdjSet | xsBandsSet | xsUbandSet | xsPlanSet | xsListenReset | carrierSwitchPoint |
      regulatorRampUpDone | regulatorAcquireDone | regulatorAcquireTimeout | regulatorHoldBegin | regulatorHoldEnd |
      regulationFault | driverClipFault | listenLocked | thermWarn | thermOff | thermOffClear |
      regulatorRampDownDone =>
    cases e; simp [xsUbandSet, xsPlanSet, rampUpDone, acquireDone, acquireTimeout, holdBegin, holdEnd, regulationFault,
      clipFault, listenLocked, rampDownDone]
  case fltSet | fltNotchSet | fltSwap | fltBankLoad | fltBankFree | fltBankRead | trackSampleLate | fadeStart |
      fadeComplete =>
    cases e; simp [sampleLate, fadeStart]
  case cmpSet | cmpStatus | settleComplete | presenceAssert | presenceRelease | occultationExpiry |
      presenceEpisodeJudgement | healthTrip | healthReturn | railFault | brakeComparatorSet | brakeComparatorClear |
      brakeRecognitionEnd | envelopeHoldEnd | comparatorTestEnd =>
    cases e; simp [startEpisode, cmpSet, cmpStatus, settleComplete, presenceAssert, presenceRelease, occultationExpiry,
      judgeEpisodes, judgeOne, noTransit, healthTrip, healthReturn, railFault, brakeSet, markBrake, brakeClear]
  case trnSet | trnSetref | trnStatus | transitStep | passageValidation =>
    cases e; simp [trnStatus, transitStep, formDepths]
  case secBind | secSet | secService | secDisturb | secLedgerRead | secStatus | secKeyProgram | secResetSup |
      secResetDir =>
    cases e; simp [secService, secDisturb, keyProgram]
  case tbSet | tbStep | ppsEdge | tbFreqLock | ref10mLoss | ppsLoss | referenceReturn =>
    cases e; simp [tbStep, tbRefuse, ppsEdge, freqLock, refReturn]
  case epcCtrlClr | sectionGrant | sectionCommit | evaluationDeadline | trackTick =>
    cases e; simp [evaluationDeadline]
  case zlSet | zlStatus | zlPdbWrite | handoverMarkRaise | handoverMarkEnd | roleInputChange | depose | deposeRelease |
      interlockClaim | claimWaitExpiry | holdTimeout | statusSend | doorbellSend | statusMessage | ephMessage |
      coverMessage | ldeltaMessage | lfullMessage | doorbellMessage | linkTrained | linkLoss | statusTimeout |
      aligned | driveIntervalComplete | driveAgeHour | messageDiscarded =>
    cases e; simp [zlSet, zlStatus, markRaise, markEnd, roleInputChange, depose, deposeRelease, claimTry, claimEnd,
      statusSend, sendParts, statusMessage, countStatus, useStatus, putRx, ephMessage, coverMessage, ldeltaMessage,
      doorbellMessage, linkTrained, linkLoss, statusTimeout, driveComplete, driveHour]
  case vspTestCrcFail | vspRead | vspReadAbort =>
    cases e; simp
  case irqEoi | irqHdrain | irqMaskSet | irqMaskClr | irqPendDiscard | irqDoorbellWrite | msixUnmask |
      interruptMessage | interruptCommit =>
    cases e; simp
  case recSet | recSelect | recRead | recClear | recMarkWrite | recCursorWrite | recTrigger | recWriteBack |
      recSurveyPeriod =>
    cases e; simp [recSelect, recRead, surveyPeriod]
  case pwrFld | pwrStatus | clkSet | supplyRecovery | fldPowerDownDone | fldResetRelease | clkrefGlitch |
      sclkFrequencyCheck | zpllLoss | zclkPllLock | pcieRefclkLoss =>
    cases e; simp [pwrFld, pwrStatus, clkSet, powerDownDone, clkrefGlitch, freqCheck, zpllLoss, zclkLock]
  case hpNop | hpSeal | hpWrite | hpIdent | commandBadOpcode | hpSealWrite | hpCtrlErrClr | orbDoorbell | orbCfgWrite |
      registerWrite | functionLevelReset | d3hotToD0 | conventionalReset | dmaReadError | poisonedWrite | streamFlush |
      d0ToD3hot | busMasterEnableChange =>
    cases e; simp [hpSeal, hpWrite, hpIdent, badOpcode, functionReset, leaveD3, enterD3, setBme]
  case epcSeqLoRead | tbNowLoRead | tbEpochLoRead =>
    cases e; simp
  case tapReset | extest | idcode | samplePreload | highz | clamp | eclPath | eclRead | eclStatus | bypass =>
    cases e; simp

end Sys2Proof.Machine
end

section
/-! SUPPORT. A core die in reset and a device in eclipse (R12, R329, R345, R346): the commands that wait for the core die,
what the others reach in eclipse, and the reads that the entry cuts off. Settles O59. -/
namespace Sys2Proof.Machine

/-! ### The commands that wait for the core die (R12) -/

/-- The commands beyond `actsInReset` that do not wait for an awake core die: its resets and the TAP. -/
def resetOrTap : Instr → Bool
  | .coreDieReset _ _ | .epochWatchdog _ | .extest _ _ | .idcode _ | .samplePreload _ _ | .highz _ | .clamp _
  | .eclPath _ _ | .eclRead _ | .eclStatus _ | .bypass _ _ => true
  | _ => false

theorem asleep_iff {s : State} : awake s = false ↔ s.phase = .reset ∨ s.phase = .eclipse := by
  cases h : s.phase <;> simp [awake, h]

section
variable {s : State} (asleep : awake s = false)
include asleep

theorem not_running_of_asleep : s.phase ≠ .running := fun h => by simp [awake_of_running h] at asleep

theorem hostOk_of_asleep : hostOk s = false := by simp [hostOk, asleep]

theorem whenHostUp_shut (f : State → State) : whenHostUp f s = s := by simp [whenHostUp, asleep]

theorem orbitReady_of_asleep (k : Fin 4) : orbitReady k s = false := by
  simp [orbitReady, running, not_running_of_asleep asleep]

theorem admissible_of_asleep (op : BitVec 16) (c : Cmd) : admissible op c s = false := by
  simp [admissible, orbitReady_of_asleep asleep]

theorem holdBack_of_asleep (op : BitVec 16) (c : Cmd) : holdBack op c s = s := by
  simp [holdBack, orbitReady_of_asleep asleep]

/-- No descriptor is taken in while the core die does not run (R270). -/
theorem command_of_asleep (op : BitVec 16) (long : Bool) (need rneed : Nat) (c : Cmd) (body : Nat → State → State) :
    command op long need rneed c body s = s :=
  (command_waits (admissible_of_asleep asleep op c)).trans (holdBack_of_asleep asleep op c)

theorem badOpcode_of_asleep (op : BitVec 16) (c : Cmd) : badOpcode op c s = s := by
  simp [badOpcode, admissible_of_asleep asleep, holdBack_of_asleep asleep]

theorem dieReleased_of_asleep (d : DieId) : dieReleased d s = s := by simp [dieReleased, mayReleaseDie, asleep]

/-- A command that waits for the core die does nothing but let time pass where it is in reset or in eclipse. -/
theorem exec_of_asleep {i : Instr} (idle : actsInReset i = false) (waits : resetOrTap i = false) :
    exec i s = .next (s.advance (timeOf i)) := by
  rcases shape : commandShape i with - | ⟨op, long, need, rneed, c⟩
  case some =>
    obtain ⟨body, e⟩ := exec_of_commandShape s shape
    rw [e, command_of_asleep (s := s.advance (timeOf i)) asleep]
  have asleep : ∀ t, awake (s.advance t) = false := fun _ => asleep
  cases i <;> simp only [commandShape, actsInReset, resetOrTap, reduceCtorEq] at shape idle waits
  case commandBadOpcode => exact congrArg Host.Outcome.next (badOpcode_of_asleep (asleep _) ..)
  case fldResetRelease => exact congrArg Host.Outcome.next (dieReleased_of_asleep (asleep _) _)
  case functionLevelReset | d3hotToD0 | d0ToD3hot | busMasterEnableChange | msixUnmask =>
    exact congrArg Host.Outcome.next (whenHostUp_shut (asleep _) _)
  case feRouteCtrlGo | hpSealWrite | hpCtrlErrClr | epcCtrlClr | vspTestCrcFail | zlPdbWrite | recMarkWrite |
      recCursorWrite | irqEoi | irqHdrain | irqMaskSet | irqMaskClr | irqPendDiscard | irqDoorbellWrite | orbDoorbell |
      orbCfgWrite | epcSeqLoRead | tbNowLoRead | tbEpochLoRead | registerWrite | poisonedWrite =>
    exact congrArg Host.Outcome.next (whenHost_shut _ (hostOk_of_asleep (asleep _)))
  case streamFlush | sectionGrant | sectionCommit | evaluationDeadline | trackTick | statusSend | doorbellSend |
      statusMessage | ephMessage | coverMessage | ldeltaMessage | lfullMessage | doorbellMessage | statusTimeout |
      aligned | recSurveyPeriod | messageDiscarded =>
    exact congrArg Host.Outcome.next (whenRunning_shut _ (not_running_of_asleep (asleep _)))
  all_goals exact congrArg Host.Outcome.next (whenAwake_shut _ (asleep _))
end

/-- A core die in reset stays in it: no reset acts, and the TAP does not answer (R329, R348). -/
theorem exec_of_reset {i : Instr} {s : State} (r : s.phase = .reset) (idle : actsInReset i = false) :
    exec i s = .next (s.advance (timeOf i)) := by
  cases out : resetOrTap i
  case false => exact exec_of_asleep (asleep_iff.mpr (.inl r)) idle out
  cases i <;> simp only [resetOrTap, reduceCtorEq] at out
  case coreDieReset => exact congrArg Host.Outcome.next (if_pos (.inl r))
  case epochWatchdog => exact congrArg Host.Outcome.next (watchdog_of_not_due (.inl r))
  all_goals exact congrArg Host.Outcome.next (if_pos r)

/-! ### A reset acts and leaves the core die in reset, or changes nothing (R329, R337) -/

theorem coreReset_cases (cause : ResetCause) (s : State) :
    coreReset cause s = s ∨ (coreReset cause s).phase = .reset := by
  unfold coreReset
  split
  · exact .inl rfl
  · exact .inr rfl

theorem watchdog_cases (s : State) : watchdog s = s ∨ (watchdog s).phase = .reset := by
  unfold watchdog
  split
  · exact coreReset_cases .wdog s
  · exact .inl rfl

theorem clkrefLoss_of_eclipse {s : State} (dark : s.phase = .eclipse) :
    clkrefLoss s = s ∨ (clkrefLoss s).phase = .reset := by
  cases enters : entering s
  · exact .inl (clkrefLoss_of_dark dark enters)
  · rw [clkrefLoss_of_acts (.inr enters)]
    exact .inr rfl

/-! ### What eclipse does not stall (R345, R346) -/

/-- `s` with what eclipse does not stall taken from `u`. -/
def State.stalledAs (s u : State) : State :=
  { s with
    now := u.now, free := u.free, tap := u.tap, aon := u.aon, ecl := { s.ecl with pinLow := u.ecl.pinLow }
    pwr := { s.pwr with
      supplyOk := u.pwr.supplyOk, held := u.pwr.held, aonHeld := u.pwr.aonHeld, coreHeld := u.pwr.coreHeld,
      hostHeld := u.pwr.hostHeld, linkHeld := u.pwr.linkHeld }
    vsp := { s.vsp with
      a := { s.vsp.a with bits := u.vsp.a.bits }, b := { s.vsp.b with bits := u.vsp.b.bits },
      c := { s.vsp.c with bits := u.vsp.c.bits } }
    zl := { s.zl with
      pins := u.zl.pins, roleIn := u.zl.roleIn, deposed := u.zl.deposed, roleAt := u.zl.roleAt, claim := u.zl.claim,
      claimAt := u.zl.claimAt, wantSince := u.zl.wantSince, wonAt := u.zl.wonAt, holdIn := u.zl.holdIn,
      holdOut := u.zl.holdOut, driveFrom := u.zl.driveFrom } }

/-- `u` differs from `s` only in what eclipse does not stall. -/
structure Stalled (s u : State) : Prop where
  eq : u = s.stalledAs u

theorem Stalled.trans {s v u : State} (first : Stalled s v) (next : Stalled v u) : Stalled s u := by
  have patched : v.stalledAs u = (s.stalledAs v).stalledAs u := congrArg (·.stalledAs u) first.eq
  exact ⟨next.eq.trans patched⟩

section
variable {s : State} (dark : s.phase = .eclipse)
include dark

theorem asleep_of_eclipse : awake s = false := asleep_iff.mpr (.inr dark)

omit dark in
/-- What waits for the core die adds nothing in eclipse. -/
theorem whenAwake_stalled {f : State → State} {v : State} (kept : Stalled s v) (dark : v.phase = .eclipse) :
    Stalled s (whenAwake f v) := by
  rwa [whenAwake_shut f (asleep_of_eclipse dark)]

theorem newGapMax_of_eclipse : newGapMax s = s.zl.lastHo := by simp [newGapMax, asleep_of_eclipse dark]

/-- The role pins move what AON holds of the interlock: no claim starts, and ZL_LAST_HO stays (R345, R346). -/
theorem setRoleIn_stalled (r : BitVec 2) : Stalled s (setRoleIn r s) := by
  have kept : newGapMax { s with zl := { s.zl with roleIn := r } } = s.zl.lastHo := newGapMax_of_eclipse dark
  simp only [setRoleIn, kept, if_pos dark]
  split
  · exact whenAwake_stalled ⟨rfl⟩ dark
  · split
    · exact whenAwake_stalled ⟨rfl⟩ dark
    · exact ⟨rfl⟩

theorem roleInputChange_stalled (pins : BitVec 2) : Stalled s (roleInputChange pins s) := by
  have moved : Stalled s { s with zl := { s.zl with pins := pins } } := ⟨rfl⟩
  refine moved.trans (setRoleIn_stalled ?_ _)
  exact dark

theorem depose_stalled : Stalled s (depose s) := by
  have moved : Stalled s { s with zl := { s.zl with deposed := true } } := ⟨rfl⟩
  unfold depose
  split
  · exact ⟨rfl⟩
  · rw [whenAwake_shut]
    · refine moved.trans (setRoleIn_stalled ?_ 0)
      exact dark
    · exact asleep_of_eclipse dark

theorem deposeRelease_stalled : Stalled s (deposeRelease s) := by
  have moved : Stalled s { s with zl := { s.zl with deposed := false } } := ⟨rfl⟩
  refine moved.trans (setRoleIn_stalled ?_ _)
  exact dark

omit dark in
theorem claimTry_stalled : Stalled s (claimTry s) := by
  unfold claimTry
  split <;> exact ⟨rfl⟩

theorem claimEnd_stalled (released : Bool) : Stalled s (claimEnd released s) := by
  simp only [claimEnd]
  split
  · split
    · exact whenAwake_stalled ⟨rfl⟩ dark
    · exact ⟨rfl⟩
  · exact ⟨rfl⟩

theorem driveHour_stalled : Stalled s (driveHour s) := by
  simp only [driveHour]
  split
  · exact ⟨rfl⟩
  · split
    · exact whenAwake_stalled ⟨rfl⟩ dark
    · exact ⟨rfl⟩

theorem not_laneServes_of_eclipse (l : Lane) : laneServes s l = false := by simp [laneServes, running, dark]

/-- A lane starts no read in eclipse and is held low (R223). -/
theorem vspRead_of_eclipse (l : Lane) (i : ReadInput) : vspRead l i s = heldLow l (abortRead l s) := by
  have shut := not_laneServes_of_eclipse (s := abortRead l s) (by simpa using dark) l
  simp [vspRead, shut]

omit dark in
theorem heldLow_stalled (l : Lane) : Stalled s (heldLow l s) := by cases l <;> exact ⟨rfl⟩

/-- Of a monitor's trip only the hold is taken in, unless it resets the core die (R327). -/
theorem monitorTrip_of_eclipse (m : Monitor) : Stalled s (monitorTrip m s) ∨ (monitorTrip m s).phase = .reset := by
  have asleep : awake s ≠ true := Bool.eq_false_iff.mp (asleep_of_eclipse dark)
  cases m
  case vcoreUv => exact (coreReset_cases .vcoreUv s).imp (fun same => ⟨by rw [monitorTrip, same]; rfl⟩) id
  case vioUv => exact (coreReset_cases .vioUv s).imp (fun same => ⟨by rw [monitorTrip, same]; rfl⟩) id
  all_goals
    left
    simp only [monitorTrip]
    rw [if_neg]
    · exact ⟨rfl⟩
    · exact asleep

/-- Of a recovery only the end of the hold is taken in (R327). -/
theorem recovered_stalled (dom : Domain) : Stalled s (recovered dom s) := by
  have asleep := asleep_of_eclipse dark
  cases dom <;> simp only [recovered, asleep, Bool.or_false]
  case fld d =>
    rw [dieReleased_of_asleep]
    · exact ⟨rfl⟩
    · exact asleep
  case link => exact whenAwake_stalled ⟨rfl⟩ dark
  all_goals exact ⟨rfl⟩

/-- ECLIPSE_N is sampled, and a second request may be recorded in CAUSE (R344). -/
theorem eclipsePin_stalled : Stalled s (eclipsePin s) := by
  unfold eclipsePin requestEclipse
  split
  · exact ⟨rfl⟩
  · split <;> exact ⟨rfl⟩
  · rename_i lit
    exact absurd dark lit

theorem startUp_of_eclipse (i : StartInput) : startUp i s = s := if_neg (by simp [dark])
end

theorem whenTap_stalled {f : State → State} {s : State} (kept : Stalled s (f s)) : Stalled s (whenTap f s) := by
  unfold whenTap
  split
  · exact ⟨rfl⟩
  · exact kept

theorem Stalled.or_reset {s v u : State} (kept : Stalled s v) (h : u = v ∨ u.phase = .reset) :
    Stalled s u ∨ u.phase = .reset := h.imp_left fun same : u = v => same ▸ kept

/-- In eclipse a command reaches only what is not stalled, or it resets the core die. -/
theorem exec_of_eclipse {i : Instr} {s u : State} (dark : s.phase = .eclipse)
    (idle : ∀ l, (s.vsp.lane l).read = none) (e : exec i s = .next u) : Stalled s u ∨ u.phase = .reset := by
  have passed : ∀ t, Stalled s (s.advance t) := fun _ => ⟨rfl⟩
  cases acts : actsInReset i || resetOrTap i
  case false =>
    obtain ⟨inReset, beyond⟩ := Bool.or_eq_false_iff.mp acts
    rw [exec_of_asleep (asleep_of_eclipse dark) inReset beyond] at e
    cases e
    exact .inl (passed _)
  have dark : ∀ t, (s.advance t).phase = .eclipse := fun _ => dark
  have idle : ∀ t l, ((s.advance t).vsp.lane l).read = none := fun _ => idle
  cases i <;> simp only [actsInReset, resetOrTap, Bool.or_self, Bool.false_eq_true] at acts <;> cases e
  case roleInputChange.refl t pins => exact .inl ((passed t).trans (roleInputChange_stalled (dark t) pins))
  case depose.refl t => exact .inl ((passed t).trans (depose_stalled (dark t)))
  case deposeRelease.refl t => exact .inl ((passed t).trans (deposeRelease_stalled (dark t)))
  case interlockClaim.refl t => exact .inl ((passed t).trans claimTry_stalled)
  case claimWaitExpiry.refl t released => exact .inl ((passed t).trans (claimEnd_stalled (dark t) released))
  case driveAgeHour.refl t => exact .inl ((passed t).trans (driveHour_stalled (dark t)))
  case vspRead.refl t l i =>
    rw [vspRead_of_eclipse (dark t), abortRead_idle (idle t l)]
    exact .inl ((passed t).trans (heldLow_stalled l))
  case vspReadAbort.refl t l =>
    rw [abortRead_idle (idle t l)]
    exact .inl (passed t)
  case supplyMonitorTrip.refl t m => exact (monitorTrip_of_eclipse (dark t) m).imp_left (passed t).trans
  case supplyRecovery.refl t dom => exact .inl ((passed t).trans (recovered_stalled (dark t) dom))
  case aonPowerOnReset.refl => exact .inr rfl
  case coreDieReset.refl t cause => exact (passed t).or_reset (coreReset_cases cause _)
  case startUp.refl t i => exact (passed t).or_reset (.inl (startUp_of_eclipse (dark t) i))
  case clkrefLoss.refl t => exact (passed t).or_reset (clkrefLoss_of_eclipse (dark t))
  case epochWatchdog.refl t => exact (passed t).or_reset (watchdog_cases _)
  case eclipseRequest.refl t => exact .inl ((passed t).trans (eclipsePin_stalled (dark t)))
  case tapReset.refl => exact .inl ⟨rfl⟩
  case extest.refl t cells =>
    refine .inl ((passed t).trans (whenTap_stalled ?_))
    split <;> exact ⟨rfl⟩
  all_goals exact .inl ((passed _).trans (whenTap_stalled ⟨rfl⟩))

/-! ### The entry into eclipse cuts off every read (R345) -/

section
variable {s : State} {l m : Lane}

theorem endRead_lane_other (h : m ≠ l) : (endRead l s).vsp.lane m = s.vsp.lane m := by
  simp only [endRead]
  split
  · split
    · simp [setLane_other _ _ _ _ h]
    · rfl
  · rfl

theorem cutRead_lane_other (h : m ≠ l) : (cutRead l s).vsp.lane m = s.vsp.lane m := by
  simp only [cutRead]
  split
  · simp [setLane_other _ _ _ _ h, endRead_lane_other h]
  · exact endRead_lane_other h

theorem cutRead_read : ((cutRead l s).vsp.lane l).read = none := by
  simp only [cutRead]
  split
  · simp
  · assumption

theorem cutReads_read (s : State) (l : Lane) : ((cutReads s).vsp.lane l).read = none := by
  cases l
  · rw [cutReads, cutRead_lane_other (by decide), cutRead_lane_other (by decide), cutRead_read]
  · rw [cutReads, cutRead_lane_other (by decide), cutRead_read]
  · exact cutRead_read
end

/-- In eclipse no lane has a read in progress. -/
def DarkIdle (s : State) : Prop := s.phase = .eclipse → ∀ l, (s.vsp.lane l).read = none

theorem darkIdle_of_lit {s : State} (lit : s.phase ≠ .eclipse) : DarkIdle s := fun dark => absurd dark lit

section
variable {s : State} (lit : s.phase ≠ .eclipse)
include lit

theorem darkIdle_of_phase {u : State} (kept : u.phase = s.phase) : DarkIdle u := darkIdle_of_lit (kept ▸ lit)

theorem darkIdle_of_phase_or_reset {u : State} (h : u.phase = s.phase ∨ u.phase = .reset) : DarkIdle u :=
  h.elim (darkIdle_of_phase lit) (fun r => darkIdle_of_lit (by simp [r]))

theorem whenAwake_darkIdle {f : State → State} (h : DarkIdle (f s)) : DarkIdle (whenAwake f s) := by
  unfold whenAwake
  split
  · exact h
  · exact darkIdle_of_lit lit

theorem requestEclipse_darkIdle (cause cls : Nat) : DarkIdle (requestEclipse cause cls s) := by
  unfold requestEclipse
  split
  · exact darkIdle_of_lit lit
  · contradiction
  · exact fun _ => cutReads_read s

theorem command_darkIdle (op : BitVec 16) (long : Bool) (need rneed : Nat) (c : Cmd) {body : Nat → State → State}
    (h : ∀ seq v, v.phase ≠ .eclipse → DarkIdle (body seq v)) : DarkIdle (command op long need rneed c body s) := by
  rcases command_cases op long need rneed c body s with e | ⟨st, d, e⟩ | e
  · exact e ▸ darkIdle_of_phase lit (holdBack_phase ..)
  · exact e ▸ darkIdle_of_phase lit ((complete_phase ..).trans (admitCmd_phase ..))
  · exact e ▸ h _ _ (by simpa using lit)

theorem eclEnter_darkIdle (p : List Byte) (seq : Nat) : DarkIdle (eclEnter p seq s) := by
  unfold eclEnter
  split
  · exact darkIdle_of_phase lit (refuse_phase ..)
  · split
    · exact darkIdle_of_phase lit (refuse_phase ..)
    · exact requestEclipse_darkIdle lit 2 0

theorem afterWrite_darkIdle (r : RecEntry) (bytes : List Byte) : DarkIdle (afterWrite r bytes s) := by
  simp only [afterWrite]
  split
  · exact requestEclipse_darkIdle (by simpa using lit) _ _
  · exact darkIdle_of_phase lit (by simp)

theorem recWrite_darkIdle : DarkIdle (recWrite s) := by
  unfold recWrite
  split
  · exact darkIdle_of_lit lit
  · split
    · exact afterWrite_darkIdle (by simpa [stepRing, writeHeader] using lit) _ _
    · exact darkIdle_of_lit lit

omit lit in
/-- The release enters eclipse at once where ECLIPSE_N is low (R344). -/
theorem release_darkIdle (i : StartInput) : DarkIdle (release i s) := by
  simp only [release]
  split
  · exact requestEclipse_darkIdle (by simp [startRecord]) _ _
  · exact darkIdle_of_lit (by simp [startRecord])

theorem startUp_darkIdle (i : StartInput) : DarkIdle (startUp i s) := by
  unfold startUp
  split
  · exact release_darkIdle i
  · exact darkIdle_of_lit lit

theorem epochBoundary_darkIdle (i : BoundaryInput) : DarkIdle (epochBoundary i s) := by
  have runs : ∀ v, DarkIdle (boundary i v) := fun v => darkIdle_of_lit (by simp [boundary_phase])
  unfold epochBoundary
  split
  · exact runs _
  · split
    · exact runs _
    · exact darkIdle_of_lit lit
end

theorem coreReset_phase (cause : ResetCause) (s : State) :
    (coreReset cause s).phase = s.phase ∨ (coreReset cause s).phase = .reset :=
  (coreReset_cases cause s).imp_left (congrArg State.phase)

theorem watchdog_phase (s : State) : (watchdog s).phase = s.phase ∨ (watchdog s).phase = .reset :=
  (watchdog_cases s).imp_left (congrArg State.phase)

theorem monitorTrip_phase (m : Monitor) (s : State) :
    (monitorTrip m s).phase = s.phase ∨ (monitorTrip m s).phase = .reset := by
  cases m
  case vcoreUv => exact coreReset_phase .vcoreUv s
  case vioUv => exact coreReset_phase .vioUv s
  all_goals simp [monitorTrip, vserTrip, monitorDie]

theorem clkrefLoss_phase (s : State) : (clkrefLoss s).phase = s.phase ∨ (clkrefLoss s).phase = .reset := by
  unfold clkrefLoss
  split
  · exact .inl rfl
  · exact coreReset_phase .clock (s.modClk _)

/-- Of the commands that can move the phase, those that reach eclipse request it, and the others end elsewhere: whatever
command brings the device into eclipse, no lane is being read then (R345). -/
theorem exec_darkIdle {i : Instr} {s u : State} (lit : s.phase ≠ .eclipse) (e : exec i s = .next u) : DarkIdle u := by
  cases moves : movesPhase i
  case false => exact darkIdle_of_phase lit (exec_phase moves e)
  have lit : ∀ t, (s.advance t).phase ≠ .eclipse := fun _ => lit
  cases i <;> simp only [movesPhase, reduceCtorEq] at moves <;> cases e
  case eclEnter.refl t c => exact command_darkIdle (lit t) _ _ _ _ _ fun seq v h => eclEnter_darkIdle h c.payload seq
  case eclipseRequest.refl t =>
    have lit : ({ s.advance t with ecl := { s.ecl with pinLow := true } } : State).phase ≠ .eclipse := lit t
    exact requestEclipse_darkIdle lit 1 0
  case recWrite.refl t => exact whenAwake_darkIdle (lit t) (recWrite_darkIdle (lit t))
  case startUp.refl t i => exact startUp_darkIdle (lit t) i
  case epochBoundary.refl t i => exact whenAwake_darkIdle (lit t) (epochBoundary_darkIdle (lit t) i)
  case supplyMonitorTrip.refl t m => exact darkIdle_of_phase_or_reset (lit t) (monitorTrip_phase m _)
  case aonPowerOnReset.refl => exact darkIdle_of_lit (by simp [aonReset, clearCore, State.reset])
  case coreDieReset.refl t cause => exact darkIdle_of_phase_or_reset (lit t) (coreReset_phase cause _)
  case clkrefLoss.refl t => exact darkIdle_of_phase_or_reset (lit t) (clkrefLoss_phase _)
  case epochWatchdog.refl t => exact darkIdle_of_phase_or_reset (lit t) (watchdog_phase _)

/-! ### O59 -/

/-- Settles O59: by the gates that shut while the core die is not awake, by what each command that passes no gate reaches
in eclipse, and by the reads that every way into eclipse cuts off first. -/
theorem coreResetAndEclipseStopTheRest : Obligations.Core_reset_and_eclipse_stop_the_rest := by
  unfold Obligations.Core_reset_and_eclipse_stop_the_rest
  refine ⟨fun i s => exec_of_reset, fun i s u dark idle e stays => ?stalled, fun i s u => exec_darkIdle,
    fun t l r s dark => ?low⟩
  case stalled =>
    rcases exec_of_eclipse dark idle e with kept | reset
    · exact kept.eq
    · simp [reset] at stays
  case low =>
    refine ⟨_, congrArg Host.Outcome.next (vspRead_of_eclipse (s := s.advance t) dark l r), ?_⟩
    rw [heldLow, modLane_vsp, setLane_same]

end Sys2Proof.Machine
end

section
/-! SUPPORT. Parts of the state that what happens at a head leaves alone: a `Rest` is such a part, and every operation of
the head's families keeps every rest that allows it. -/
namespace Sys2Proof.Machine

/-- A section without what an item, a notice or a flag of a head can change. -/
def Section.steady (x : Section) : Section :=
  { x with core := { x.core with fault := 0 }, queue := [], overflow := false, localFail := none, quietEl := 0 }

/-- The set-up words of each family of a head. -/
@[simp] def FeHead.words (b : FeHead) : Word × Word × Word × Vector Byte 14 × Word × Word × Pair Word × Word :=
  (b.headCfg, b.gain, b.bias, b.xp, b.impCfg, b.impTol, b.impRef, b.kref)
@[simp] def XsHead.words (b : XsHead) : Pair Word × Word × Word × Word × Word × Word × Vector Word 4 :=
  (b.freq, b.amp, b.ilim, b.phase, b.reg, b.bands, b.adj)
@[simp] def FltHead.words (b : FltHead) : Word × Word := (b.cfg, b.fade)
@[simp] def TrnHead.words (b : TrnHead) : Word × Word × Word × Word × Word × Word × Word × Pair Word :=
  (b.geom, b.det, b.val, b.valb, b.len, b.lenb, b.cal, b.baseref)

/-- A part of the state that head operations leave alone. `own` are the heads that may change, `words` says whether their
set-up words may, and `lines` whether the trip latches of sections may be set. -/
structure Rest where
  Part : Type
  view : State → Part
  own : HeadId → Prop
  words : Prop
  lines : Prop
  of_device : ∀ s u : State, u.device = s.device → view u = view s
  of_blocks : ∀ (s : State) (dies : Vector Die 8) (dev : Dev) (epc : Epc) (zl : Zl),
    view { s with dies := dies, dev := dev, epc := epc, zl := zl } = view s
  of_survey : ∀ (s : State) (v : Survey), view { s with rcd := { s.rcd with survey := v } } = view s
  of_head : ∀ (s : State) (h : HeadId) (f : Head → Head), own h → (words ∨ ∀ x, (f x).setUp = x.setUp) →
    view (s.modHead h f) = view s
  of_sec : ∀ (s : State) (n : SecId) (f : Section → Section), (∀ x, (f x).steady = x.steady) →
    view (s.modSec n f) = view s
  of_trip : ∀ (s : State) (n : SecId) (t : Nat), lines → view (s.modSec n (Section.trip t)) = view s

/-! ### Branches and loops -/

variable (F : Rest)

@[simp] theorem rest_ite {p : Prop} [Decidable p] (a b : State) :
    F.view (if p then a else b) = if p then F.view a else F.view b := apply_ite F.view p a b

@[simp] theorem rest_foldOver {α : Type} {f : α → State → State} (l : List α)
    (keep : ∀ a s, F.view (f a s) = F.view s) (s : State) : F.view (foldOver l f s) = F.view s :=
  foldOver_keeps (g := F.view) keep s

/-! ### Updates of one block -/

section
variable (s : State) (h : HeadId) (x : Sys)
@[simp] theorem rest_dies (v : Vector Die 8) : F.view { s with dies := v } = F.view s := F.of_blocks s v _ _ _
@[simp] theorem rest_modDie (d : DieId) (f : Die → Die) : F.view (s.modDie d f) = F.view s := F.of_blocks s _ _ _ _
@[simp] theorem rest_dev (v : Dev) : F.view { s with dev := v } = F.view s := F.of_blocks s _ v _ _
@[simp] theorem rest_epc (v : Epc) : F.view { s with epc := v } = F.view s := F.of_blocks s _ _ v _
@[simp] theorem rest_zl (v : Zl) : F.view { s with zl := v } = F.view s := F.of_blocks s _ _ _ v
@[simp] theorem rest_advance (t : Nat) : F.view (s.advance t) = F.view s := F.of_device _ _ rfl
@[simp] theorem rest_raise (n : Nat) : F.view (raise n s) = F.view s := F.of_device _ _ rfl
@[simp] theorem rest_trig (cls source : Nat) (detail : Word) : F.view (trig cls source detail s) = F.view s :=
  F.of_device _ _ (trig_device ..)
@[simp] theorem rest_offer (k : Fin 16) (bytes : List Byte) : F.view (offer k bytes s).1 = F.view s :=
  F.of_device _ _ (offer_device ..)
@[simp] theorem rest_hpErr (cause : Nat) (bar2 : Bool) (off : Nat) (v : Word) :
    F.view (hpErr cause bar2 off v s) = F.view s := F.of_device _ _ (hpErr_device ..)
@[simp] theorem rest_complete (seq : Nat) (st : Status) (d : Nat) (resp : List Byte) :
    F.view (complete seq st d resp s) = F.view s := F.of_device _ _ (complete_device ..)
@[simp] theorem rest_completeJob (job : Option Nat) (st : Status) (d : Nat) :
    F.view (completeJob job st d s) = F.view s := F.of_device _ _ (completeJob_device ..)
@[simp] theorem rest_announce (src cls : Nat) (old new : Word) : F.view (announce src cls old new s) = F.view s :=
  F.of_device _ _ (announce_device ..)
@[simp] theorem rest_flagZl (n : Nat) : F.view (flagZl n s) = F.view s := by simp [flagZl]
@[simp] theorem rest_flagEpc (w : Word) : F.view (flagEpc w s) = F.view s := by simp [flagEpc]
@[simp] theorem rest_flagSec (n : SecId) (k : Nat) : F.view (flagSec n k s) = F.view s := F.of_sec _ _ _ fun _ => rfl
end

/-! ### What changes a head, and keeps its set-up words -/

section
variable {F} {h : HeadId} (own : F.own h) (s : State) (x : Sys)
include own
@[simp] theorem rest_modXsSlice (f : XsSlice → XsSlice) : F.view (s.modXsSlice h x f) = F.view s :=
  F.of_head _ _ _ own (.inr fun _ => rfl)
@[simp] theorem rest_modFltSlice (f : FltSlice → FltSlice) : F.view (s.modFltSlice h x f) = F.view s :=
  F.of_head _ _ _ own (.inr fun _ => rfl)
@[simp] theorem rest_modCmpSlice (f : CmpSlice → CmpSlice) : F.view (s.modCmpSlice h x f) = F.view s :=
  F.of_head _ _ _ own (.inr fun _ => rfl)
@[simp] theorem rest_modTrnSlice (f : TrnSlice → TrnSlice) : F.view (s.modTrnSlice h x f) = F.view s :=
  F.of_head _ _ _ own (.inr fun _ => rfl)
@[simp] theorem rest_modFe {f : FeHead → FeHead} (keep : F.words ∨ ∀ b, (f b).words = b.words) :
    F.view (s.modFe h f) = F.view s :=
  F.of_head _ _ _ own (keep.imp_right fun keep x => by
    have k := keep x.fe
    simp only [FeHead.words, Prod.mk.injEq] at k
    simp only [Head.setUp, k])
@[simp] theorem rest_modXs {f : XsHead → XsHead} (keep : F.words ∨ ∀ b, (f b).words = b.words) :
    F.view (s.modXs h f) = F.view s :=
  F.of_head _ _ _ own (keep.imp_right fun keep x => by
    have k := keep x.xs
    simp only [XsHead.words, Prod.mk.injEq] at k
    simp only [Head.setUp, k])
@[simp] theorem rest_modFlt {f : FltHead → FltHead} (keep : F.words ∨ ∀ b, (f b).words = b.words) :
    F.view (s.modFlt h f) = F.view s :=
  F.of_head _ _ _ own (keep.imp_right fun keep x => by
    have k := keep x.flt
    simp only [FltHead.words, Prod.mk.injEq] at k
    simp only [Head.setUp, k])
@[simp] theorem rest_modCmp {f : CmpHead → CmpHead} (keep : F.words ∨ ∀ b, (f b).staged = b.staged) :
    F.view (s.modCmp h f) = F.view s :=
  F.of_head _ _ _ own (keep.imp_right fun keep x => by simp only [Head.setUp, keep x.cmp])
@[simp] theorem rest_modTrn {f : TrnHead → TrnHead} (keep : F.words ∨ ∀ b, (f b).words = b.words) :
    F.view (s.modTrn h f) = F.view s :=
  F.of_head _ _ _ own (keep.imp_right fun keep x => by
    have k := keep x.trn
    simp only [TrnHead.words, Prod.mk.injEq] at k
    simp only [Head.setUp, k])
@[simp] theorem rest_flagHead (r : HeadReg) (flags : Word) : F.view (flagHead r h flags s) = F.view s := by
  have e := flagHead_device s r h flags
  rw [← modHead_device] at e
  refine (F.of_device _ _ e).trans (F.of_head _ _ _ own (.inr fun x => ?_))
  unfold Head.spoil
  split <;> cases r <;> rfl
@[simp] theorem rest_flagFe (n : Nat) : F.view (flagFe h n s) = F.view s := rest_flagHead own ..
@[simp] theorem rest_flagXs (n : Nat) : F.view (flagXs h n s) = F.view s := rest_flagHead own ..
@[simp] theorem rest_flagFlt (n : Nat) : F.view (flagFlt h n s) = F.view s := rest_flagHead own ..
@[simp] theorem rest_flagCmp (n : Nat) : F.view (flagCmp h n s) = F.view s := rest_flagHead own ..
@[simp] theorem rest_flagTrn (n : Nat) : F.view (flagTrn h n s) = F.view s := rest_flagHead own ..
end

/-! ### Items, notices and trip lines -/

section
variable {F : Rest} (s : State) (h : HeadId)
@[simp] theorem rest_activity : F.view (activity h s) = F.view s := by
  unfold activity
  refine rest_foldOver F _ (fun n s => ?_) s
  exact F.of_sec s n _ fun _ => rfl
@[simp] theorem rest_pushItem (it : Item) (n : SecId) : F.view (pushItem it n s) = F.view s := by
  have fail : ∀ (s : State) r, F.view (s.modSec n (fun x => { x with localFail := r })) = F.view s :=
    fun s _ => F.of_sec s n _ fun _ => rfl
  have overflow : ∀ s : State, F.view (s.modSec n (fun x => { x with overflow := true })) = F.view s :=
    fun s => F.of_sec s n _ fun _ => rfl
  have queue : ∀ s : State, F.view (s.modSec n (fun x => { x with queue := x.queue ++ [it] })) = F.view s :=
    fun s => F.of_sec s n _ fun _ => rfl
  unfold pushItem
  split <;> simp [fail, overflow, queue]
@[simp] theorem rest_headNotice (reason : Nat) : F.view (headNotice h reason s) = F.view s := by simp [headNotice]
@[simp] theorem rest_faultNotice : F.view (faultNotice h s) = F.view s := rest_headNotice ..
@[simp] theorem rest_changeNotice : F.view (changeNotice h s) = F.view s := rest_headNotice ..
@[simp] theorem rest_setLatches (lines : F.lines) : F.view (setLatches h s) = F.view s := by
  unfold setLatches
  exact rest_foldOver F _ (fun _ _ => F.of_trip _ _ _ lines) s
@[simp] theorem rest_withLines {f : State → State} (own : F.own h) (lines : F.lines) (keep : ∀ s, F.view (f s) = F.view s) :
    F.view (withLines h f s) = F.view s := by simp [withLines, keep, own, lines]
@[simp] theorem rest_onBoth {f : Sys → State → State} (keep : ∀ a s, F.view (f a s) = F.view s) :
    F.view (onBoth f s) = F.view s := by simp [onBoth, keep]
@[simp] theorem rest_deliverPassage (seq : Nat) (i : Issued) : F.view (deliverPassage h seq i s) = F.view s := by
  simp [deliverPassage]
@[simp] theorem rest_surveyPassage (i : Issued) : F.view (surveyPassage h i s) = F.view s := by
  have survey : ∀ v, F.view { s with rcd := { s.rcd with survey := v } } = F.view s := fun v => F.of_survey s v
  simp [surveyPassage, survey]
end

/-! ### What every head family shares -/

/-- Taking the targets of a swap keeps the words of the filter chain. -/
theorem takeTargets_words (w : Swap) (b : FltHead) : (takeTargets w b).words = b.words := by
  unfold takeTargets
  cases w.one <;> cases w.two <;> rfl

section
variable {F : Rest} {h : HeadId} (own : F.own h) (s : State) (x : Sys)
include own
@[simp] theorem rest_endEpisode : F.view (endEpisode h s) = F.view s := by unfold endEpisode; split <;> simp [own]
@[simp] theorem rest_anchorSlice : F.view (anchorSlice h x s) = F.view s := by simp [anchorSlice, own]
@[simp] theorem rest_loseLock : F.view (loseLock h x s) = F.view s := by simp [loseLock, own]
@[simp] theorem rest_holdSettle : F.view (holdSettle h x s) = F.view s := by simp [holdSettle, own]
@[simp] theorem rest_restartSettle : F.view (restartSettle h x s) = F.view s := by simp [restartSettle, own]
@[simp] theorem rest_releaseSettle : F.view (releaseSettle h x s) = F.view s := by simp [releaseSettle, own]
/-- A record of the head that is dropped is counted at the head. -/
theorem rest_countDrop {r : StreamRec} (head : r.head = some h) : F.view (countDrop r s) = F.view s := by
  simp only [countDrop, head]
  split <;> simp [own]
theorem rest_queueRec {r : StreamRec} (head : r.head = some h) : F.view (queueRec r s) = F.view s := by
  simp [queueRec, offerRec, rest_countDrop own _ head]
@[simp] theorem rest_countPassage (seq : Nat) (i : Issued) : F.view (countPassage h seq i s) = F.view s := by
  unfold countPassage
  extract_lets u _ v
  have counted : F.view u = F.view s := rest_modTrn own s (.inr fun _ => rfl)
  have rejected : F.view v = F.view u := rest_dev ..
  simp [own, counted, rejected]
@[simp] theorem rest_recordPassage (seq : Nat) (i : Issued) : F.view (recordPassage h seq i s) = F.view s := by
  simp only [recordPassage, rest_ite, ite_eq_right_iff]
  exact fun _ => rest_queueRec own _ rfl
@[simp] theorem rest_issue (i : Issued) : F.view (issue h i s) = F.view s := by simp [issue, own]
@[simp] theorem rest_abortHead (reason : Nat) : F.view (abortHead h reason s) = F.view s := by
  simp only [abortHead]; split <;> simp [own]
@[simp] theorem rest_wiringFault : F.view (wiringFault h x s) = F.view s := by simp [wiringFault, own]
@[simp] theorem rest_closeWindow : F.view (closeWindow h s) = F.view s := by simp [closeWindow, own]
@[simp] theorem rest_realign : F.view (realign h s) = F.view s := by simp [realign, own]
@[simp] theorem rest_restartHead : F.view (restartHead h s) = F.view s := by simp [restartHead, own]
@[simp] theorem rest_swapDone (w : Swap) : F.view (swapDone h w s) = F.view s := by simp [swapDone, own]
@[simp] theorem rest_takeTargets (w : Swap) : F.view (s.modFlt h (takeTargets w)) = F.view s :=
  rest_modFlt own s (.inr (takeTargets_words w))
@[simp] theorem rest_endSwaps : F.view (endSwaps h s) = F.view s := by
  simp only [endSwaps]
  repeat' split
  all_goals simp [own]
@[simp] theorem rest_completeRoute : F.view (completeRoute h s) = F.view s := by simp [completeRoute, own]
@[simp] theorem rest_completeChange : F.view (completeChange h s) = F.view s := by
  unfold completeChange; split <;> simp [own]
@[simp] theorem rest_afterRegulated : F.view (afterRegulated h x s) = F.view s := by
  simp only [afterRegulated]; split <;> simp [own]
end

/-! ### Front end: the stages of a route request, impedance checks, gaps -/

section
variable {F : Rest} {h : HeadId} (own : F.own h) (s : State) (x : Sys) (ovr cm : Bool)
include own
@[simp] theorem rest_forceSlice : F.view (forceSlice h x s) = F.view s := by simp [forceSlice, own]
@[simp] theorem rest_feRefuse (seq : Option Nat) (st : Status) (code : Nat) :
    F.view (feRefuse h seq st code s) = F.view s := by simp [feRefuse, own]
@[simp] theorem rest_rampOff : F.view (rampOff h x s) = F.view s := by simp [rampOff, own]
/-- What an admitted request does but for the trip lines. -/
@[simp] theorem rest_admitRoute (lines : F.lines) (r : RouteCfg) (job : Option Nat) :
    F.view (admitRoute h r job s) = F.view s := by
  unfold admitRoute
  refine rest_withLines _ _ own lines fun s => ?_
  simp [own]
@[simp] theorem rest_routeCtrlWrite (lines : F.lines) (v : Word) : F.view (routeCtrlWrite h v s) = F.view s := by
  simp only [routeCtrlWrite]
  repeat' split
  all_goals simp [own, lines]
@[simp] theorem rest_leakEval (was : Bool) : F.view (leakEval h was s) = F.view s := by simp [leakEval, own]
@[simp] theorem rest_routeBreak (lines : F.lines) : F.view (routeBreak h s) = F.view s := by
  have keep : ∀ f, (∀ s, F.view (f s) = F.view s) → F.view (withLines h f s) = F.view s := fun f =>
    rest_withLines s h own lines
  simp only [routeBreak]
  split
  · rw [rest_ite, keep _ fun s => ?_, ite_self]
    simp [own]
  · rfl
@[simp] theorem rest_lowerEnvbw : F.view (lowerEnvbw h x s) = F.view s := by simp [lowerEnvbw, own]
@[simp] theorem rest_bankFollow : F.view (bankFollow h x s) = F.view s := by simp [bankFollow, own]
@[simp] theorem rest_dropNotches : F.view (dropNotches h x s) = F.view s := by simp [dropNotches, own]
@[simp] theorem rest_retune : F.view (retune h x s) = F.view s := by simp [retune, own]
@[simp] theorem rest_makeSlice : F.view (makeSlice h x s) = F.view s := by simp [makeSlice, own]
@[simp] theorem rest_routeMake : F.view (routeMake h s) = F.view s := by unfold routeMake; split <;> simp [own]
@[simp] theorem rest_startTest : F.view (startTest h s) = F.view s := by simp [startTest, own, loadStaged]
@[simp] theorem rest_routeAfterBreak (lines : F.lines) : F.view (routeAfterBreak h s) = F.view s := by
  simp only [routeAfterBreak]
  split <;> simp [own, lines]
@[simp] theorem rest_routeDischargeEnd : F.view (routeDischargeEnd h s) = F.view s := by
  simp only [routeDischargeEnd]
  split <;> simp [own]
@[simp] theorem rest_routeAfterBreak2 (lines : F.lines) : F.view (routeAfterBreak2 h s) = F.view s := by
  simp [routeAfterBreak2, own, lines]
@[simp] theorem rest_makeDue : F.view (makeDue h x s) = F.view s := by simp [makeDue, own]
@[simp] theorem rest_checkDue : F.view (checkDue h x s) = F.view s := by simp [checkDue, own]
@[simp] theorem rest_checkOverdue : F.view (checkOverdue h x s) = F.view s := by
  simp only [checkOverdue]; split <;> simp [own]
@[simp] theorem rest_leakTimer : F.view (leakTimer h s) = F.view s := by unfold leakTimer; split <;> simp [own]
@[simp] theorem rest_unbridge : F.view (unbridge h x s) = F.view s := by unfold unbridge; split <;> simp [own]
@[simp] theorem rest_beginGap (from_ : Nat) : F.view (beginGap h x from_ s) = F.view s := by
  simp only [beginGap]
  split <;> simp [own]
@[simp] theorem rest_endGap : F.view (endGap h x s) = F.view s := by simp only [endGap]; split <;> simp [own]
@[simp] theorem rest_invalidStart : F.view (invalidStart h x ovr cm s) = F.view s := by
  simp only [invalidStart]
  repeat' split
  all_goals simp [own]
@[simp] theorem rest_invalidLong : F.view (invalidLong h x ovr cm s) = F.view s := by
  unfold invalidLong; split <;> simp [own]
@[simp] theorem rest_invalidEnd : F.view (invalidEnd h x s) = F.view s := by simp [invalidEnd, own]
@[simp] theorem rest_gapBridged : F.view (gapBridged h x s) = F.view s := by unfold gapBridged; split <;> simp [own]
end

/-! ### The impedance scheduler and sweeps, which may serve any head -/

section
variable {F : Rest} (all : ∀ h, F.own h) (s : State) (d : DieId) (g : Fin 4)
@[simp] theorem rest_modTone (f : Tone → Tone) : F.view (s.modTone d g f) = F.view s := rest_modDie ..
include all
@[simp] theorem rest_endSweep (w : Sweep) (code : Nat) : F.view (endSweep d g w code s) = F.view s := by
  unfold endSweep; split <;> simp [all]
@[simp] theorem rest_sweepPoint (w : Sweep) (r : Word × Word) : F.view (sweepPoint d g w r s) = F.view s := by
  simp [sweepPoint, all]
@[simp] theorem rest_slotStart : F.view (slotStart d g s) = F.view s := by
  simp only [slotStart]
  repeat' split
  all_goals simp [all]
@[simp] theorem rest_slotEnd (m : ImpMeasure) : F.view (slotEnd d g m s) = F.view s := by
  simp only [slotEnd]
  repeat' split
  all_goals simp [all, checkDone, impRecord, classEffects]
@[simp] theorem rest_slotAbort : F.view (slotAbort d g s) = F.view s := by
  simp only [slotAbort]
  repeat' split
  all_goals simp [all]
@[simp] theorem rest_sweepTimeout : F.view (sweepTimeout d g s) = F.view s := by
  unfold sweepTimeout; split <;> simp [all]
end

end Sys2Proof.Machine
end

section
/-! SUPPORT. The same frames for the excitation, the filter chain, the comparators, the transit logic and the hand-over
marks. -/
namespace Sys2Proof.Machine

section
variable (F : Rest) (s : State)
@[simp] theorem rest_free (n : Nat) : F.view { s with free := n } = F.view s := F.of_device _ _ rfl
@[simp] theorem rest_survey (v : Survey) : F.view { s with rcd := { s.rcd with survey := v } } = F.view s :=
  F.of_survey s v
end

/-! ### Excitation -/

section
variable {F : Rest} {h : HeadId} (own : F.own h) (s : State) (x : Sys)
include own
@[simp] theorem rest_rampUpDone : F.view (rampUpDone h x s) = F.view s := by simp [rampUpDone, own]
@[simp] theorem rest_acquireDone : F.view (acquireDone h x s) = F.view s := by simp [acquireDone, own]
@[simp] theorem rest_acquireTimeout : F.view (acquireTimeout h x s) = F.view s := by simp [acquireTimeout, own]
@[simp] theorem rest_holdBegin : F.view (holdBegin h x s) = F.view s := by simp [holdBegin, own]
@[simp] theorem rest_holdEnd : F.view (holdEnd h x s) = F.view s := by simp [holdEnd, own]
@[simp] theorem rest_regulationFault : F.view (regulationFault h x s) = F.view s := by simp [regulationFault, own]
@[simp] theorem rest_clipFault : F.view (clipFault h x s) = F.view s := by simp [clipFault, own]
@[simp] theorem rest_rampDownDone (lines : F.lines) : F.view (rampDownDone h x s) = F.view s := by
  simp [rampDownDone, own, lines]
@[simp] theorem rest_switchPoint : F.view (switchPoint h x s) = F.view s := by simp [switchPoint, own]
@[simp] theorem rest_carrierSwitch (lines : F.lines) : F.view (carrierSwitch h x s) = F.view s := by
  unfold carrierSwitch; split <;> simp [own, lines]
@[simp] theorem rest_listenLocked : F.view (listenLocked h x s) = F.view s := by simp [listenLocked, own]
end

/-! ### Filter chain -/

section
variable {F : Rest} {h : HeadId} (own : F.own h) (s : State) (x : Sys)
include own
@[simp] theorem rest_fadeStart : F.view (fadeStart h x s) = F.view s := by simp [fadeStart, own]
@[simp] theorem rest_fltRefuse (job : Option Nat) (st : Status) (code : Nat) :
    F.view (fltRefuse h job st code s) = F.view s := by simp [fltRefuse, own]
@[simp] theorem rest_startSwap (w : Swap) : F.view (startSwap h w s) = F.view s := by simp [startSwap, own]
@[simp] theorem rest_dequeueSwap : F.view (dequeueSwap h s) = F.view s := by
  simp only [dequeueSwap]
  repeat' split
  all_goals simp [own]
@[simp] theorem rest_fadeComplete : F.view (fadeComplete h x s) = F.view s := by
  simp only [fadeComplete]; split <;> simp [own]
@[simp] theorem rest_sampleLate : F.view (sampleLate h x s) = F.view s := by simp [sampleLate, own]
end

/-! ### Comparators -/

section
variable {F : Rest} {h : HeadId} (own : F.own h) (s : State) (x : Sys)
include own
@[simp] theorem rest_startEpisode : F.view (startEpisode h s) = F.view s := by simp [startEpisode, own]
@[simp] theorem rest_noTransit : F.view (noTransit h s) = F.view s := by
  unfold noTransit
  extract_lets u _ _ v
  have survey : F.view v = F.view u := by
    refine (rest_ite ..).trans (ite_eq_right_iff.mpr fun _ => rest_survey ..)
  simp [u, survey, own]
@[simp] theorem rest_judgeEpisodes : F.view (judgeEpisodes h s) = F.view s := by simp [judgeEpisodes, judgeOne, own]
@[simp] theorem rest_noteCheck (thr : Nat) : F.view (noteCheck h x thr s) = F.view s := by simp [noteCheck, own]
@[simp] theorem rest_presenceAssert (lines : F.lines) (e : Nat) : F.view (presenceAssert h x e s) = F.view s := by
  simp [presenceAssert, own, lines]
@[simp] theorem rest_releasePresence (lines : F.lines) : F.view (releasePresence h x s) = F.view s := by
  simp [releasePresence, own, lines]
@[simp] theorem rest_presenceRelease (lines : F.lines) (e : Nat) : F.view (presenceRelease h x e s) = F.view s := by
  simp [presenceRelease, own, lines]
@[simp] theorem rest_occultationExpiry (lines : F.lines) (e : Nat) :
    F.view (occultationExpiry h x e s) = F.view s := by simp [occultationExpiry, own, lines]
@[simp] theorem rest_healthTrip (lines : F.lines) (side : Side) (e : Nat) :
    F.view (healthTrip h x side e s) = F.view s := by simp [healthTrip, own, lines]
@[simp] theorem rest_healthReturn (lines : F.lines) (side : Side) (e : Nat) :
    F.view (healthReturn h x side e s) = F.view s := by simp [healthReturn, own, lines]
@[simp] theorem rest_settleComplete (lines : F.lines) (e : Nat) : F.view (settleComplete h x e s) = F.view s := by
  simp [settleComplete, own, lines]
@[simp] theorem rest_markBrake : F.view (markBrake h s) = F.view s := by simp [markBrake, own]
@[simp] theorem rest_brakeSet (level : Nat) : F.view (brakeSet h x level s) = F.view s := by simp [brakeSet, own]
@[simp] theorem rest_brakeClear (level : Nat) : F.view (brakeClear h x level s) = F.view s := by simp [brakeClear, own]
@[simp] theorem rest_brakeEnd : F.view (brakeEnd h s) = F.view s := by unfold brakeEnd; split <;> simp [own]
@[simp] theorem rest_testEnd (lines : F.lines) (r : TestResult) : F.view (testEnd h x r s) = F.view s := by
  simp [testEnd, own, lines]
@[simp] theorem rest_railFault (lines : F.lines) : F.view (railFault h x s) = F.view s := by
  unfold railFault
  rw [rest_ite, ite_eq_right_iff]
  refine fun _ => rest_withLines _ _ own lines fun s => ?_
  extract_lets u v full _ w y
  have counted : F.view w = F.view v := rest_dev ..
  simp [y, counted, u, v, own]
@[simp] theorem rest_envHoldEnd : F.view (envHoldEnd h x s) = F.view s := by unfold envHoldEnd; split <;> simp [own]
end

/-! ### Transits -/

section
variable {F : Rest} {h : HeadId} (own : F.own h) (s : State) (p : Passage) (tk : Nat) (x : Sys)
@[simp] theorem rest_signature (m : Measure) : F.view (signature h p m s).2 = F.view s := by
  unfold signature; split <;> simp
include own
@[simp] theorem rest_issuePassage (forced : Nat) : F.view (issuePassage h p forced s) = F.view s := by
  simp [issuePassage, own]
@[simp] theorem rest_endPassage : F.view (endPassage h p tk s) = F.view s := by simp [endPassage, own]
@[simp] theorem rest_formDepth (fromWait : Bool) : F.view (formDepth h x tk fromWait s).2 = F.view s :=
  rest_modTrnSlice own ..
@[simp] theorem rest_formDepths : F.view (formDepths h tk s) = F.view s := by simp [formDepths, own]
@[simp] theorem rest_moveBase : F.view (moveBase h x s) = F.view s := by simp [moveBase, own]
@[simp] theorem rest_machineStep : F.view (machineStep h tk s) = F.view s := by simp [machineStep, own]
@[simp] theorem rest_transitStep : F.view (transitStep h s) = F.view s := by simp [transitStep, own]
@[simp] theorem rest_passageValidation : F.view (passageValidation h s) = F.view s := by
  unfold passageValidation; split <;> simp [own]
end

/-! ### Hand-over marks -/

section
variable {F : Rest} {h : HeadId} (own : F.own h) (s : State) (x : Sys)
include own
@[simp] theorem rest_raiseMark : F.view (raiseMark h x s) = F.view s := by simp [raiseMark, own]
@[simp] theorem rest_markRaise (senseFall : Bool) : F.view (markRaise h x senseFall s) = F.view s := by
  simp [markRaise, own]
@[simp] theorem rest_markEnd : F.view (markEnd h x s) = F.view s := by simp [markEnd, own]
end

end Sys2Proof.Machine
end

section
/-! SUPPORT. O60: what the events of a head leave alone. -/
namespace Sys2Proof.Machine

@[simp] theorem rest_whenAwake (F : Rest) {f : State → State} (keep : ∀ s, F.view (f s) = F.view s) (s : State) :
    F.view (whenAwake f s) = F.view s := by simp [whenAwake, keep]
@[simp] theorem rest_whenHost (F : Rest) {f : State → State} (keep : ∀ s, F.view (f s) = F.view s) (s : State) :
    F.view (whenHost f s) = F.view s := by simp [whenHost, keep]

/-- The chassis, the heads other than `h`, and the set-up words of `h`. -/
def Rest.ofHead (h : HeadId) : Rest where
  Part := Chassis × ({ g : HeadId // g ≠ h } → Head) × Head
  view s := (s.chassis, fun g => s.head g.val, (s.head h).setUp)
  own g := g = h
  words := False
  lines := True
  of_device s u e := by simp [chassis_of_device e, head_of_device e]
  of_blocks _ _ _ _ _ := rfl
  of_survey _ _ := rfl
  of_head s g f own keep := by
    subst own
    have keep : ∀ x, (f x).setUp = x.setUp := keep.resolve_left id
    have other : (fun k : { k : HeadId // k ≠ g } => (s.modHead g f).head k.val) = fun k => s.head k.val :=
      funext fun k => modHead_head_other _ _ _ _ k.property
    simp only [other, modHead_head_same, keep]
    rfl
  of_sec _ _ _ _ := rfl
  of_trip _ _ _ _ := rfl

/-- A head's event keeps the chassis, the other heads and the set-up words of its head: each row runs one operation of the
head, behind a gate, and that operation keeps the rest of the head. -/
theorem exec_headRest {i : Instr} {h : HeadId} {s u : State} (event : headEvent i = some h) (e : exec i s = .next u) :
    (Rest.ofHead h).view u = (Rest.ofHead h).view s := by
  have own : (Rest.ofHead h).own h := rfl
  have lines : (Rest.ofHead h).lines := trivial
  cases i <;> simp only [headEvent, reduceCtorEq, Option.some.injEq] at event <;> subst event <;> cases e <;>
    simp [own, lines, apply_ite]

/-- Settles O60, by the rest of the head that every operation of a head's event keeps. -/
theorem headEventsStayOnTheirHead : Obligations.Head_events_stay_on_their_head := by
  unfold Obligations.Head_events_stay_on_their_head
  intro i h s u event e
  have kept := exec_headRest event e
  simp only [Rest.ofHead, Prod.mk.injEq] at kept
  obtain ⟨chassis, others, own⟩ := kept
  exact ⟨chassis, fun g other => congrFun others ⟨g, other⟩, own⟩

end Sys2Proof.Machine
end

section
/-! SUPPORT. The same frames for the commands of the head families and the register writes that stand for them before
sealing: for a rest in which every head may change, its set-up words and the trip lines too. -/
namespace Sys2Proof.Machine

/-! ### Operands, admission and completion -/

section
variable {F : Rest} (s : State) (seq : Nat) (p : List Byte)
@[simp] theorem rest_refuse (st : Status) (code : Nat) : F.view (refuse seq st code s) = F.view s := rest_complete ..
@[simp] theorem rest_done : F.view (done seq s) = F.view s := rest_complete ..
@[simp] theorem rest_withHead (i rangeCode : Nat) {f : HeadId → State → State}
    (keep : ∀ h s, F.view (f h s) = F.view s) : F.view (withHead p i rangeCode seq f s) = F.view s := by
  unfold withHead
  split <;> simp [keep]
/-- A command row keeps what its body keeps. -/
theorem rest_command {op : BitVec 16} {long : Bool} {need rneed : Nat} {c : Cmd} {body : Nat → State → State}
    (keep : ∀ seq s, F.view (body seq s) = F.view s) : F.view (command op long need rneed c body s) = F.view s := by
  have admits : F.view (admitCmd op long c s) = F.view s := F.of_device _ _ (admitCmd_device ..)
  rcases command_cases op long need rneed c body s with e | ⟨st, d, e⟩ | e
  · rw [e]
    exact F.of_device _ _ (holdBack_device ..)
  · rw [e, rest_complete, admits]
  · rw [e, keep, admits]
end

/-! ### Front end -/

section
variable {F : Rest} (all : ∀ h, F.own h) (words : F.words) (lines : F.lines) (s : State) (p : List Byte) (seq : Nat)
include all words lines
@[simp] theorem rest_feRoute : F.view (feRoute p seq s) = F.view s := by
  simp only [feRoute]
  repeat' split
  all_goals simp [all, words, lines]
@[simp] theorem rest_feBiasSet : F.view (feBiasSet p seq s) = F.view s := by
  unfold feBiasSet
  refine rest_withHead _ _ _ _ _ fun h s => ?_
  dsimp only
  repeat' split
  all_goals simp [all, words, lines]
omit lines
@[simp] theorem rest_feImpSet : F.view (feImpSet p seq s) = F.view s := by simp [feImpSet, all, words]
@[simp] theorem rest_feImpSetref : F.view (feImpSetref p seq s) = F.view s := by
  unfold feImpSetref
  refine rest_withHead _ _ _ _ _ fun h s => ?_
  simp [all, words]
omit words
@[simp] theorem rest_feImpRun : F.view (feImpRun p seq s) = F.view s := by
  unfold feImpRun
  refine rest_withHead _ _ _ _ _ fun h s => ?_
  simp [all]
@[simp] theorem rest_feImpSweep : F.view (feImpSweep p seq s) = F.view s := by simp [feImpSweep, all]
end

/-! ### Excitation -/

section
variable {F : Rest} {h : HeadId} (own : F.own h) (words : F.words) (s : State) (job : Option Nat) (r : XsReq)
include own words
@[simp] theorem rest_admitChange : F.view (admitChange h r job s) = F.view s := by simp [admitChange, own, words]
@[simp] theorem rest_xsAdmit : F.view (xsAdmit h r job s) = F.view s := by simp [xsAdmit, own, words]
omit words in
@[simp] theorem rest_xsRefuse (st : Status) (code : Nat) : F.view (xsRefuse h job st code s) = F.view s := by
  simp [xsRefuse, own]
@[simp] theorem rest_headPlan (f : XsHead → XsHead) : F.view (headPlan h f job s) = F.view s := by
  simp [headPlan, own, words]
@[simp] theorem rest_xsWrite (o : Nat) (v : Word) : F.view (xsWrite h o v r s) = F.view s := by
  unfold xsWrite; split <;> simp [own, words]
@[simp] theorem rest_xsPreSeal (o : Nat) (v : Word) : F.view (xsPreSeal h o v s) = F.view s := by
  simp [xsPreSeal, own, words]
end

section
variable {F : Rest} (s : State) (job : Option Nat)
@[simp] theorem rest_devPlan (f : Dev → Dev) : F.view (devPlan f job s) = F.view s := by
  simp only [devPlan]; split <;> simp
@[simp] theorem rest_devRange : F.view (devRange job s) = F.view s := by simp [devRange]
@[simp] theorem rest_ubandRequest (k : Fin 16) (w : Word) : F.view (ubandRequest k w job s) = F.view s := by
  simp [ubandRequest]
@[simp] theorem rest_xsDevPreSeal (off : Nat) (v : Word) : F.view (xsDevPreSeal off v s) = F.view s := by
  simp [xsDevPreSeal]
end

section
variable {F : Rest} (all : ∀ h, F.own h) (words : F.words) (s : State) (p : List Byte) (seq : Nat)
@[simp] theorem rest_xsUbandSet : F.view (xsUbandSet p seq s) = F.view s := by simp [xsUbandSet]
@[simp] theorem rest_xsPlanSet : F.view (xsPlanSet p seq s) = F.view s := by simp [xsPlanSet]
include all
@[simp] theorem rest_xsListenReset : F.view (xsListenReset p seq s) = F.view s := by
  unfold xsListenReset
  refine rest_withHead _ _ _ _ _ fun h s => ?_
  simp [all]
include words
@[simp] theorem rest_xsSet : F.view (xsSet p seq s) = F.view s := by
  simp only [xsSet]
  repeat' split
  all_goals simp [all, words]
@[simp] theorem rest_xsAdjSet : F.view (xsAdjSet p seq s) = F.view s := by
  unfold xsAdjSet; split <;> simp [all, words]
@[simp] theorem rest_xsBandsSet : F.view (xsBandsSet p seq s) = F.view s := by
  unfold xsBandsSet; split <;> simp [all, words]
end

/-! ### Filter chain -/

section
variable {F : Rest} {h : HeadId} (own : F.own h) (words : F.words) (s : State) (job : Option Nat)
include own
@[simp] theorem rest_admitSwap (w : Swap) : F.view (admitSwap h w s) = F.view s := by
  simp only [admitSwap]
  repeat' split
  all_goals simp [own, showQueued]
include words
@[simp] theorem rest_filterChange (f : FltHead → FltHead) : F.view (filterChange h f job s) = F.view s := by
  simp [filterChange, own, words]
@[simp] theorem rest_fltAdmit (r : FltReq) : F.view (fltAdmit h r job s) = F.view s := by simp [fltAdmit, own, words]
@[simp] theorem rest_fltPreSeal (o : Nat) (v : Word) : F.view (fltPreSeal h o v s) = F.view s := by
  simp only [fltPreSeal]
  repeat' split
  all_goals simp [own, words]
end

section
variable {F : Rest} (s : State) (p : List Byte) (seq : Nat)
@[simp] theorem rest_bankOutcome (d : DieId) (slot : Nat) (st : Status) (code : Nat) :
    F.view (bankOutcome d slot seq st code s) = F.view s := by simp [bankOutcome]
@[simp] theorem rest_fltBankLoad : F.view (fltBankLoad p seq s) = F.view s := by unfold fltBankLoad; split <;> simp
@[simp] theorem rest_fltBankFree : F.view (fltBankFree p seq s) = F.view s := by unfold fltBankFree; split <;> simp
@[simp] theorem rest_fltBankRead : F.view (fltBankRead p seq s) = F.view s := by unfold fltBankRead; split <;> simp
end

section
variable {F : Rest} (all : ∀ h, F.own h) (words : F.words) (s : State) (p : List Byte) (seq : Nat)
include all
@[simp] theorem rest_fltSwap : F.view (fltSwap p seq s) = F.view s := by
  unfold fltSwap
  refine rest_withHead _ _ _ _ _ fun h s => ?_
  dsimp only
  split <;> simp [all]
include words
@[simp] theorem rest_fltSet : F.view (fltSet p seq s) = F.view s := by
  unfold fltSet
  refine rest_withHead _ _ _ _ _ fun h s => ?_
  dsimp only
  split <;> simp [all, words]
@[simp] theorem rest_fltNotchSet : F.view (fltNotchSet p seq s) = F.view s := by
  unfold fltNotchSet
  refine rest_withHead _ _ _ _ _ fun h s => ?_
  dsimp only
  repeat' split
  all_goals simp [all, words]
end

/-! ### Comparators and transits -/

section
variable {F : Rest} {h : HeadId} (own : F.own h) (words : F.words) (s : State) (job : Option Nat)
include own
@[simp] theorem rest_cmpOutcome (code : Nat) : F.view (cmpOutcome h job code s) = F.view s := by simp [cmpOutcome, own]
@[simp] theorem rest_trnOutcome (st : Status) (code : Nat) : F.view (trnOutcome h job st code s) = F.view s := by
  simp [trnOutcome, own]
include words
@[simp] theorem rest_cmpStage (w : CmpWords) : F.view (cmpStage h w job s) = F.view s := by simp [cmpStage, own, words]
@[simp] theorem rest_cmpPreSeal (o : Nat) (v : Word) : F.view (cmpPreSeal h o v s) = F.view s := by
  simp [cmpPreSeal, own, words]
@[simp] theorem rest_trnAdmit (w : TrnWords) : F.view (trnAdmit h w job s) = F.view s := by simp [trnAdmit, own, words]
@[simp] theorem rest_trnPreSeal (o : Nat) (v : Word) : F.view (trnPreSeal h o v s) = F.view s := by
  unfold trnPreSeal
  extract_lets old w
  split <;> simp [own, words]
end

section
variable {F : Rest} (all : ∀ h, F.own h) (words : F.words) (s : State) (p : List Byte) (seq : Nat)
@[simp] theorem rest_cmpStatus : F.view (cmpStatus p seq s) = F.view s := by simp [cmpStatus]
@[simp] theorem rest_trnStatus : F.view (trnStatus p seq s) = F.view s := by simp [trnStatus]
include all words
@[simp] theorem rest_cmpSet : F.view (cmpSet p seq s) = F.view s := by simp [cmpSet, all, words]
@[simp] theorem rest_trnSet : F.view (trnSet p seq s) = F.view s := by
  unfold trnSet
  refine rest_withHead _ _ _ _ _ fun h s => ?_
  dsimp only
  split <;> simp [all, words]
@[simp] theorem rest_trnSetref : F.view (trnSetref p seq s) = F.view s := by
  unfold trnSetref
  refine rest_withHead _ _ _ _ _ fun h s => ?_
  dsimp only
  repeat' split
  all_goals simp [all, words]
end

/-! ### Register writes of a head -/

section
variable {F : Rest} {h : HeadId} (own : F.own h) (words : F.words) (lines : F.lines) (s : State) (o : Nat) (v : Word)
  (r : RegView)
include own words
@[simp] theorem rest_fePreSeal : F.view (fePreSeal h o v s) = F.view s := by simp [fePreSeal, own, words]
@[simp] theorem rest_headPreSeal : F.view (headPreSeal h o v s) = F.view s := by simp [headPreSeal, own, words]
omit own words in
@[simp] theorem rest_sealedWrite (off : Nat) : F.view (sealedWrite off v r s) = F.view s := by simp [sealedWrite]
include lines
@[simp] theorem rest_headWrite : F.view (headWrite h o v r s) = F.view s := by
  have clear : ∀ f : Head → Head, F.view (s.modHead h f) = F.view s := fun f => F.of_head _ _ _ own (.inl words)
  unfold headWrite
  split
  · simp [own, lines]
  · split
    · simp
    · split <;> simp [own, words, clear]
end

end Sys2Proof.Machine
end

section
/-! SUPPORT. Frames of the whole device: parts of the state that rest on the sections and on the recorder's ring alone, and
what each unit's operations leave of them. -/
namespace Sys2Proof.Machine

/-- The recorder's memory, its header, and the ring's pointers. -/
def ringOf (s : State) : Memory × Pair RecHeader × Nat × Nat := (s.rcd.mem, s.rcd.header, s.aon.next, s.aon.oldest)

/-- What only an evaluation, an adoption or a change of role changes of a section; its trip latch; its waiting commands. -/
@[simp] def Section.verdict (x : Section) : SecState × Int × Bool × BitVec 2 × Bool × List SecCmd :=
  (x.core.state, x.core.count, x.core.service, x.code, x.latch, x.cmds)

/-- A part of the state that rests on the sections and the ring. `secs` says whether sections may change in it, `cmds`
whether a reset command may join those that wait for a section, and `ring` whether the ring may change. -/
structure Scope extends Rest where
  all : ∀ h, own h
  free : words
  secs : Prop
  cmds : Prop
  ring : Prop
  of_parts : ∀ s u : State, u.sections = s.sections → (ring ∨ ringOf u = ringOf s) → view u = view s
  of_sections : ∀ (s : State) (v : Vector Section 256), (secs ∨ ∀ n, (tget v n).verdict = (s.sec n).verdict) →
    view { s with sections := v } = view s
  of_queue : ∀ (s : State) (n : SecId) (op : SecOp) (job : Option Nat) (wr : Option Word),
    (cmds ∨ ∀ direct, op ≠ .reset direct) → view (queueCmd n op job wr s) = view s

variable (F : Scope)

@[simp] theorem scope_own (h : HeadId) : F.own h := F.all h
@[simp] theorem scope_words : F.words := F.free

/-- A state with the sections and the ring of `u` looks like whatever `u` looks like. -/
theorem Scope.same {s u v : State} (e : F.view u = F.view s) (sections : v.sections = u.sections := by rfl)
    (ring : ringOf v = ringOf u := by rfl) : F.view v = F.view s := (F.of_parts _ _ sections (.inr ring)).trans e

/-! ### Updates of one block -/

section
variable (s : State)
@[simp] theorem scope_phase (v : Phase) : F.view { s with phase := v } = F.view s := F.of_parts _ _ rfl (.inr rfl)
@[simp] theorem scope_key (v : Option (List Byte)) : F.view { s with key := v } = F.view s :=
  F.of_parts _ _ rfl (.inr rfl)
@[simp] theorem scope_hp (v : Hp) : F.view { s with hp := v } = F.view s := F.of_parts _ _ rfl (.inr rfl)
@[simp] theorem scope_irq (v : Irq) : F.view { s with irq := v } = F.view s := F.of_parts _ _ rfl (.inr rfl)
@[simp] theorem scope_out (v : List Out) : F.view { s with out := v } = F.view s := F.of_parts _ _ rfl (.inr rfl)
@[simp] theorem scope_vsp (v : Vsp) : F.view { s with vsp := v } = F.view s := F.of_parts _ _ rfl (.inr rfl)
@[simp] theorem scope_tb (v : Tb) : F.view { s with tb := v } = F.view s := F.of_parts _ _ rfl (.inr rfl)
@[simp] theorem scope_ecl (v : Ecl) : F.view { s with ecl := v } = F.view s := F.of_parts _ _ rfl (.inr rfl)
@[simp] theorem scope_pwr (v : Pwr) : F.view { s with pwr := v } = F.view s := F.of_parts _ _ rfl (.inr rfl)
@[simp] theorem scope_clk (v : Clk) : F.view { s with clk := v } = F.view s := F.of_parts _ _ rfl (.inr rfl)
@[simp] theorem scope_tap (v : Tap) : F.view { s with tap := v } = F.view s := F.of_parts _ _ rfl (.inr rfl)
@[simp] theorem scope_heads (v : Vector Head 256) : F.view { s with heads := v } = F.view s :=
  F.of_parts _ _ rfl (.inr rfl)
@[simp] theorem scope_modOrbit (k : Fin 16) (f : Orbit → Orbit) : F.view (s.modOrbit k f) = F.view s :=
  F.of_parts _ _ rfl (.inr rfl)
@[simp] theorem scope_modLane (l : Lane) (f : LaneSt → LaneSt) : F.view (s.modLane l f) = F.view s := by
  cases l <;> exact F.of_parts _ _ rfl (.inr rfl)
@[simp] theorem scope_modIrq (f : Irq → Irq) : F.view (s.modIrq f) = F.view s := F.of_parts _ _ rfl (.inr rfl)
@[simp] theorem scope_modHp (f : Hp → Hp) : F.view (s.modHp f) = F.view s := F.of_parts _ _ rfl (.inr rfl)
@[simp] theorem scope_modPwr (f : Pwr → Pwr) : F.view (s.modPwr f) = F.view s := F.of_parts _ _ rfl (.inr rfl)
@[simp] theorem scope_modClk (f : Clk → Clk) : F.view (s.modClk f) = F.view s := F.of_parts _ _ rfl (.inr rfl)
/-- A change of the recorder that leaves its memory and its header. -/
@[simp] theorem scope_modRec {f : Rec → Rec} (keep : F.ring ∨ ∀ r, (f r).mem = r.mem ∧ (f r).header = r.header) :
    F.view (s.modRec f) = F.view s :=
  F.of_parts _ _ rfl (keep.imp_right fun keep => by
    obtain ⟨mem, header⟩ := keep s.rcd
    simp only [ringOf, State.modRec, mem, header])
@[simp] theorem scope_rcd {v : Rec} (keep : F.ring ∨ v.mem = s.rcd.mem ∧ v.header = s.rcd.header) :
    F.view { s with rcd := v } = F.view s :=
  F.of_parts _ _ rfl (keep.imp_right fun keep => by simp only [ringOf, keep])
/-- A change of the AON cells that leaves the ring's pointers. -/
@[simp] theorem scope_aon {v : Aon} (keep : F.ring ∨ v.next = s.aon.next ∧ v.oldest = s.aon.oldest) :
    F.view { s with aon := v } = F.view s :=
  F.of_parts _ _ rfl (keep.imp_right fun keep => by simp only [ringOf, keep])
@[simp] theorem scope_modSec {n : SecId} {f : Section → Section} (keep : F.secs ∨ ∀ x, (f x).verdict = x.verdict) :
    F.view (s.modSec n f) = F.view s :=
  F.of_sections _ _ (keep.imp_right fun keep m => by
    rw [tget_tmod]
    split
    · exact keep _
    · rfl)
@[simp] theorem scope_sections {v : Vector Section 256} (keep : F.secs ∨ ∀ n, (tget v n).verdict = (s.sec n).verdict) :
    F.view { s with sections := v } = F.view s := F.of_sections _ _ keep
@[simp] theorem scope_draw : F.view s.draw.2 = F.view s := rest_free ..
@[simp] theorem scope_whenRunning {f : State → State} (keep : ∀ s, F.view (f s) = F.view s) :
    F.view (whenRunning f s) = F.view s := by simp [whenRunning, keep]
end

/-! ### The shared operations and flags -/

section
variable (s : State) (k : Fin 16) (c : Cmd)
@[simp] theorem scope_orbFault (flags : Word) : F.view (orbFault k flags s) = F.view s :=
  F.of_device _ _ (orbFault_device ..)
@[simp] theorem scope_handBack (b : Buf) (flags : Nat) : F.view (handBack k b flags s) = F.view s :=
  F.of_device _ _ (handBack_device ..)
@[simp] theorem scope_dma (a : BitVec 64) (l : List Byte) : F.view (dma a l s) = F.view s := F.of_device _ _ rfl
@[simp] theorem scope_admitCmd (op : BitVec 16) (long : Bool) : F.view (admitCmd op long c s) = F.view s :=
  F.of_device _ _ (admitCmd_device ..)
@[simp] theorem scope_holdBack (op : BitVec 16) : F.view (holdBack op c s) = F.view s :=
  F.of_device _ _ (holdBack_device ..)
@[simp] theorem scope_flagVsp (flags : Word) : F.view (flagVsp flags s) = F.view s := by simp [flagVsp]
@[simp] theorem scope_flagClk (flags : Word) : F.view (flagClk flags s) = F.view s := by simp [flagClk]
@[simp] theorem scope_flagTb (n : Nat) : F.view (flagTb n s) = F.view s := by simp [flagTb]
@[simp] theorem scope_flagRec (n : Nat) : F.view (flagRec n s) = F.view s := by
  simp only [flagRec]
  split <;> simp
@[simp] theorem scope_countDrop (r : StreamRec) : F.view (countDrop r s) = F.view s := by
  simp only [countDrop]
  repeat' split
  all_goals simp
@[simp] theorem scope_offerRec (r : StreamRec) : F.view (offerRec r s) = F.view s := by simp [offerRec]
@[simp] theorem scope_queueRec (r : StreamRec) : F.view (queueRec r s) = F.view s := by simp [queueRec]
end

/-! ### Sections -/

section
variable {F} (s : State) (n : SecId) (job : Option Nat) (seq : Nat)
@[simp] theorem scope_trip (lines : F.lines) (t : Nat) : F.view (s.modSec n (Section.trip t)) = F.view s :=
  F.of_trip _ _ _ lines
@[simp] theorem scope_queueSecRec (b : List Byte) : F.view (queueSecRec n b s) = F.view s := by simp [queueSecRec]
@[simp] theorem scope_secOutcome (code : Nat) : F.view (secOutcome n job code s) = F.view s := by simp [secOutcome]
/-- New bindings, but for the latch that an added head sets. -/
@[simp] theorem scope_storeBind (lines : F.lines) (words : List Word) : F.view (storeBind n words s) = F.view s := by
  unfold storeBind
  extract_lets old u
  have bound : F.view u = F.view s := scope_modSec F s (.inr fun _ => rfl)
  simp [bound, lines]
@[simp] theorem scope_secBind (lines : F.lines) (entries words : List Word) :
    F.view (secBind n entries words job s) = F.view s := by simp [secBind, lines]
@[simp] theorem scope_secSet (cfg m : Word) : F.view (secSet n cfg m job s) = F.view s := by
  unfold secSet
  extract_lets code u
  have stored : F.view u = F.view s := scope_modSec F s (.inr fun x => by dsimp only; split <;> rfl)
  simp [stored]
@[simp] theorem scope_queueService (on : Bool) (wr : Option Word) :
    F.view (queueCmd n (.service on) job wr s) = F.view s := F.of_queue _ _ _ _ _ (.inr fun _ => nofun)
@[simp] theorem scope_queueDisturb (wr : Option Word) : F.view (queueCmd n .disturb job wr s) = F.view s :=
  F.of_queue _ _ _ _ _ (.inr fun _ => nofun)
@[simp] theorem scope_queueReset (cmds : F.cmds) (direct : Bool) (wr : Option Word) :
    F.view (queueCmd n (.reset direct) job wr s) = F.view s := F.of_queue _ _ _ _ _ (.inl cmds)
@[simp] theorem scope_secService (v : Nat) : F.view (secService n v job s) = F.view s := by simp [secService]
@[simp] theorem scope_secDisturb : F.view (secDisturb n job s) = F.view s := by simp [secDisturb]
@[simp] theorem scope_resetEnd (direct : Bool) (st : Status) (code : Nat) :
    F.view (resetEnd n direct seq st code s) = F.view s := by simp [resetEnd]
@[simp] theorem scope_secReset (cmds : F.cmds) (direct : Bool) (etok : Nat) (toks : List (Nat × List Byte)) :
    F.view (secReset n direct etok toks seq s) = F.view s := by
  simp only [secReset]
  repeat' split
  all_goals simp [cmds]
@[simp] theorem scope_askSnap (w : Snap) : F.view (askSnap w s) = F.view s := by simp [askSnap]
@[simp] theorem scope_secWriteErr (code off : Nat) (v : Word) : F.view (secWriteErr code off v s) = F.view s := by
  simp [secWriteErr]
@[simp] theorem scope_secPreSeal (lines : F.lines) (o : Nat) (v : Word) :
    F.view (secPreSeal n o v s) = F.view s := by simp [secPreSeal, lines]
@[simp] theorem scope_withSec (p : List Byte) {f : SecId → State → State} (keep : ∀ n s, F.view (f n s) = F.view s) :
    F.view (withSec p seq f s) = F.view s := by
  unfold withSec
  split <;> simp [keep]
end

end Sys2Proof.Machine
end

section
/-! SUPPORT. What the partner's set, the lanes, the time base, the reading of the ring, and the epochs leave of a scope. -/
namespace Sys2Proof.Machine

/-! ### The partner's set -/

section
variable {F : Scope} (s : State) (n : SecId)
@[simp] theorem scope_sendLink (b : List Byte) : F.view (sendLink b s) = F.view s := by simp [sendLink]
@[simp] theorem scope_judge (m : LinkMsg) (status : Bool) : F.view (judge m status s).2 = F.view s := by
  simp only [judge]
  repeat' split
  all_goals simp
@[simp] theorem scope_dropCovered : F.view (dropCovered s) = F.view s := by
  simp only [dropCovered]
  repeat' split
  all_goals simp
@[simp] theorem scope_setMismatch : F.view (setMismatch n s) = F.view s := by simp [setMismatch]
@[simp] theorem scope_staleCmd (c : SecCmd) : F.view (staleCmd n c s) = F.view s := by unfold staleCmd; split <;> simp
end

/-! ### Lanes -/

section
variable {F : Scope} (s : State) (l : Lane)
@[simp] theorem scope_endRead : F.view (endRead l s) = F.view s := by unfold endRead; split <;> simp
@[simp] theorem scope_endReads : F.view (endReads s) = F.view s := by simp [endReads]
@[simp] theorem scope_abortRead : F.view (abortRead l s) = F.view s := by simp only [abortRead]; split <;> simp
@[simp] theorem scope_cutRead : F.view (cutRead l s) = F.view s := by simp only [cutRead]; split <;> simp
@[simp] theorem scope_cutReads : F.view (cutReads s) = F.view s := by simp [cutReads]
end

/-! ### Time base -/

section
variable {F : Scope} (s : State)
@[simp] theorem scope_tbAnchor : F.view (tbAnchor s) = F.view s := by simp [tbAnchor]
@[simp] theorem scope_setRate (base adj : Int) : F.view (setRate base adj s) = F.view s := by
  unfold setRate
  exact (scope_tb F _ _).trans (scope_tbAnchor s)
@[simp] theorem scope_measureRef : F.view (measureRef s) = F.view s := by
  unfold measureRef
  exact (rest_free ..).trans (scope_setRate ..)
@[simp] theorem scope_tbEnter (st : TbState) : F.view (tbEnter st s) = F.view s := by unfold tbEnter; split <;> simp
@[simp] theorem scope_refLost (flag : Nat) : F.view (refLost flag s) = F.view s := by simp [refLost]
@[simp] theorem scope_tenMhzLoss : F.view (tenMhzLoss s) = F.view s := by
  unfold tenMhzLoss
  extract_lets _ _ u
  have lost : F.view u = F.view s := F.same rfl
  simp [lost]
@[simp] theorem scope_ppsLoss : F.view (ppsLoss s) = F.view s := by unfold ppsLoss; split <;> simp
@[simp] theorem scope_applyStep (st : TbStep) : F.view (applyStep st s) = F.view s := by
  unfold applyStep
  extract_lets u
  exact F.same (scope_tbAnchor s)
@[simp] theorem scope_tbMode : F.view (tbMode s) = F.view s := by
  unfold tbMode
  extract_lets m old _ u v w
  have moded : F.view u = F.view s := scope_tb ..
  have measured : F.view v = F.view u := by simp [v]
  simp [moded, measured]
@[simp] theorem scope_pushLatch (seq : Nat) : F.view (pushLatch seq s) = F.view s := by simp [pushLatch]
@[simp] theorem scope_stepEffects (st : TbStep) : F.view (stepEffects st s) = F.view s := by simp [stepEffects]
@[simp] theorem scope_tbBoundary (seq : Nat) : F.view (tbBoundary seq s) = F.view s := by
  simp only [tbBoundary]
  split <;> simp
@[simp] theorem scope_tbSet (cfg disc : Word) : F.view (tbSet cfg disc s) = F.view s := by simp [tbSet]
end

/-! ### Ring reads -/

section
variable {F : Scope} (s : State)
@[simp] theorem scope_readSome (n : Nat) (j : ReadJob) : F.view (readSome n j s).2 = F.view s := by
  induction n generalizing j s with
  | zero => rfl
  | succ n ih =>
    simp only [readSome]
    split <;> simp [ih]
@[simp] theorem scope_finishRead (j : ReadJob) : F.view (finishRead j s) = F.view s := by simp [finishRead]
@[simp] theorem scope_readChunk (j : ReadJob) : F.view (readChunk j s) = F.view s := by simp [readChunk]
@[simp] theorem scope_readMore : F.view (readMore s) = F.view s := by simp [readMore]
end

/-! ### Epochs -/

section
variable {F : Scope} (s : State) (n : SecId) (p : Priv)
@[simp] theorem scope_lateCmd (c : SecCmd) : F.view (lateCmd n c s) = F.view s := by unfold lateCmd; split <;> simp
@[simp] theorem scope_finishCmd (d : CmdDone) : F.view (finishCmd n d s) = F.view s := by unfold finishCmd; split <;> simp
@[simp] theorem scope_writeSnaps : F.view (writeSnaps s) = F.view s := by simp [writeSnaps, takeSnap]
@[simp] theorem scope_epcCtrl (v : Word) : F.view (epcCtrl v s) = F.view s := by simp [epcCtrl]
@[simp] theorem scope_missAdoption : F.view (missAdoption n s) = F.view s := by
  unfold missAdoption
  extract_lets u
  have cleared : F.view u = F.view s := by simp [u]
  split
  · exact F.same cleared
  · exact cleared
@[simp] theorem scope_dropSec : F.view (dropSec n s) = F.view s := by
  unfold dropSec
  extract_lets x u _ v
  have dropped : F.view u = F.view s := by simp [u]
  have counted : F.view v = F.view s := F.same dropped
  simp [counted]
@[simp] theorem scope_serve : F.view (serve n p s) = F.view s := by
  unfold serve
  extract_lets k e q u
  have served : F.view u = F.view s := by simp [u]
  exact F.same served
@[simp] theorem scope_grantPriv : F.view (grantPriv n p s) = F.view s := by simp [grantPriv]
@[simp] theorem scope_serveAdoption : F.view (serveAdoption n s) = F.view s := by
  unfold serveAdoption
  split <;> simp
@[simp] theorem scope_grant : F.view (grant n s) = F.view s := by
  simp only [grant]
  repeat' split
  all_goals simp
end

end Sys2Proof.Machine
end

section
/-! SUPPORT. What the commit, the deadline, the boundary and the track tick leave of a scope. -/
namespace Sys2Proof.Machine

/-! ### Excitation: temperature, drive and listening at a boundary -/

section
variable {F : Scope} (s : State) (d : DieId) (tj : Int) (h : HeadId)
@[simp] theorem scope_thermStore (off : Bool) : F.view (thermStore d off tj s) = F.view s := by simp [thermStore]
@[simp] theorem scope_thermTell (was : Die) : F.view (thermTell d was s) = F.view s := by simp [thermTell, thermRaise]
@[simp] theorem scope_thermSet (off : Bool) : F.view (thermSet d off tj s) = F.view s := by simp [thermSet]
@[simp] theorem scope_thermWarn : F.view (thermWarn d tj s) = F.view s := by simp [thermWarn]
@[simp] theorem scope_thermHead (lines : F.lines) : F.view (thermHead h s) = F.view s := by
  unfold thermHead
  refine rest_withLines _ _ (F.all h) lines fun s => ?_
  simp
@[simp] theorem scope_thermOff (lines : F.lines) : F.view (thermOff d tj s) = F.view s := by simp [thermOff, lines]
@[simp] theorem scope_thermBack (lines : F.lines) : F.view (thermBack h s) = F.view s := by
  unfold thermBack
  split
  · refine rest_withLines _ _ (F.all h) lines fun s => ?_
    simp
  · simp
@[simp] theorem scope_thermOffClear (lines : F.lines) : F.view (thermOffClear d tj s) = F.view s := by
  simp [thermOffClear, lines]
@[simp] theorem scope_driveEpoch (a : DriveSample) : F.view (driveEpoch a s) = F.view s := by simp [driveEpoch]
@[simp] theorem scope_listenEpoch (l : ListenSample) : F.view (listenEpoch l s) = F.view s := by simp [listenEpoch]
@[simp] theorem scope_dieReport (lines : F.lines) (a : DieSample) : F.view (dieReport a s) = F.view s := by
  simp [dieReport, lines]
end

/-! ### The commit and the deadline -/

section
variable {F : Scope} (secs : F.secs) (s : State) (n : SecId) (p : Priv)
include secs
@[simp] theorem scope_adoptCommit (e : Eph) : F.view (adoptCommit n e s) = F.view s := by simp [adoptCommit, secs]
@[simp] theorem scope_commitPriv : F.view (commitPriv n p s) = F.view s := by
  unfold commitPriv
  extract_lets e _ u _ _ v w x y
  have core : F.view u = F.view s := by simp [u, secs]
  have committed : F.view v = F.view s := F.same core
  have adopted : F.view w = F.view s := by
    unfold w
    clear_value e
    split <;> simp [committed, secs]
  simp [y, x, adopted]
@[simp] theorem scope_commitSec : F.view (commitSec n s) = F.view s := by 
  unfold commitSec
  split
  · simp only [rest_ite, scope_dropSec, scope_commitPriv secs, ite_self]
  · rfl
omit secs
@[simp] theorem scope_deadlineSec : F.view (deadlineSec n s) = F.view s := by unfold deadlineSec; split <;> simp
@[simp] theorem scope_epochRecord (flags : Word) : F.view (epochRecord flags s) = F.view s := by simp [epochRecord]
@[simp] theorem scope_surveyEpoch : F.view (surveyEpoch s) = F.view s := by simp [surveyEpoch]
@[simp] theorem scope_epochReport : F.view (epochReport s) = F.view s := by
  unfold epochReport
  extract_lets run slack flags u _ v w
  have survey : F.view u = F.view s := scope_surveyEpoch s
  have counted : F.view v = F.view s := (rest_epc ..).trans survey
  have recorded : F.view w = F.view s := by simp [w, counted]
  exact (rest_epc ..).trans recorded
@[simp] theorem scope_openQuiet : F.view (openQuiet s) = F.view s := by simp [openQuiet]
@[simp] theorem scope_deadline : F.view (deadline s) = F.view s := by simp [deadline]
end

/-! ### The boundary and the track tick -/

section
variable {F : Scope} (secs : F.secs) (lines : F.lines) (s : State) (n : SecId) (seq : Nat)
@[simp] theorem scope_latchSet (was : BitVec 2) : F.view (latchSet seq was s) = F.view s := by simp [latchSet]
@[simp] theorem scope_decayTrims : F.view (decayTrims s) = F.view s := by simp [decayTrims]
@[simp] theorem scope_leakUpdate (l : LeakSample) : F.view (leakUpdate l s) = F.view s := by simp [leakUpdate]
@[simp] theorem scope_stormWindow : F.view (stormWindow seq s) = F.view s := by simp [stormWindow]
@[simp] theorem scope_linkBoundary : F.view (linkBoundary seq s) = F.view s := by simp [linkBoundary]
@[simp] theorem scope_senseStages (i : BoundaryInput) : F.view (senseStages i s) = F.view s := F.same rfl
@[simp] theorem scope_vspBoundary (i : BoundaryInput) (f : Frame) : F.view (vspBoundary i f s) = F.view s := by
  simp [vspBoundary]
@[simp] theorem scope_surveyPace (p : Nat) : F.view (surveyPace p s) = F.view s := by simp [surveyPace]
@[simp] theorem scope_paceSample (i : TickInput) : F.view (paceSample i s) = F.view s := by simp [paceSample]
@[simp] theorem scope_takeSample (tm : Nat) (a : SliceSample) : F.view (takeSample tm a s) = F.view s := by
  unfold takeSample
  split
  · extract_lets sp ok p v r dsp mag u
    have taken : F.view u = F.view s := (rest_modFltSlice (F.all _) ..).trans (rest_free ..)
    simp [taken]
  · rfl
@[simp] theorem scope_plausTick (tm : Nat) (h : HeadId) (x : Sys) : F.view (plausTick tm h x s) = F.view s := by
  simp [plausTick]
@[simp] theorem scope_trackTick (i : TickInput) : F.view (trackTick i s) = F.view s := by
  unfold trackTick
  extract_lets tm _ u v
  have paced : F.view u = F.view s := by simp [u]
  have counted : F.view v = F.view s := F.same paced
  simp [counted]
include secs
@[simp] theorem scope_takeOverSec : F.view (takeOverSec seq n s) = F.view s := by
  unfold takeOverSec
  extract_lets x u commit
  have queued : F.view u = F.view s := by simp [u]
  have commits : ∀ p v, F.view (commit p v) = F.view v := fun p v => by
    unfold commit
    extract_lets _ a b _ c
    have taken : F.view a = F.view v := by simp [a, secs]
    have recorded : F.view b = F.view v := by simp [b, taken]
    have sent : F.view c = F.view v := F.same recorded
    simp [sent]
  split
  · rfl
  · repeat' split
    all_goals simp [commits, queued]
@[simp] theorem scope_handDownSec : F.view (handDownSec n s) = F.view s := by simp [handDownSec, secs]
@[simp] theorem scope_changeRole (role was : BitVec 2) : F.view (changeRole role was seq s) = F.view s := by
  have risen : ∀ g w, F.view { s with aon := { s.aon with gen := g }, zl := { s.zl with lastHo := w } } = F.view s :=
    fun _ _ => F.same rfl
  simp [changeRole, secs, risen]
include lines
@[simp] theorem scope_boundary (i : BoundaryInput) : F.view (boundary i s) = F.view s := by
  unfold boundary
  extract_lets u seq role was frame ready _ _ _ v a b c d e
  have ended : F.view u = F.view s := scope_endReads s
  have opened : F.view v = F.view s := by
    refine F.same (u := { u with sections := v.sections }) ?_
    simp [ended, secs]
  have latched : F.view b = F.view s := by simp [b, a, opened, secs]
  have taken : F.view c = F.view s := by simp [c, latched, secs]
  have cut : F.view d = F.view s := by
    refine (scope_linkBoundary ..).trans ((scope_sections F c ?_).trans taken)
    exact .inl secs
  simp [e, cut, lines]
@[simp] theorem scope_epochBoundary (i : BoundaryInput) : F.view (epochBoundary i s) = F.view s := by
  simp [epochBoundary, secs, lines]
end

end Sys2Proof.Machine
end

section
/-! SUPPORT. The commands of the front end (R42 to R65): where a named head takes them, what they answer and store; route
requests and their stages. Settles O54, O55, O1, O5. -/
namespace Sys2Proof.Machine

/-- Settles O54: an empty queue is the one case in which no command runs. -/
theorem stepRunsTheFrontCommand : Obligations.Step_runs_the_front_command := by
  unfold Obligations.Step_runs_the_front_command
  exact fun _ _ _ => ⟨rfl, rfl⟩

/-- Settles O55, by evaluating the reset state; its memory is empty. -/
theorem resetValues : Obligations.Reset_values := by
  unfold Obligations.Reset_values
  refine ⟨rfl, rfl, fun n => ?_, fun h => ?_, rfl, rfl, rfl, rfl, rfl, rfl, ?_⟩
  · simp [State.reset, State.sec, Section.reset, SecCore.reset]
  · simp [State.reset, State.head, Head.reset, FeHead.reset, CmpHead.reset, XsHead.reset]
    exact ⟨rfl, rfl⟩
  · refine ⟨?_, ?_, ?_⟩ <;> exact ⟨by decide, by decide, by decide⟩

/-! ### Commands of a named head -/

/-- A command that names a head of a die that is on acts on it. -/
theorem withHead_named {p : List Byte} {i k seq : Nat} {f : HeadId → State → State} {s : State} {h : HeadId}
    (ha : headArg p i = some h) (hu : headUp s h = true) : withHead p i k seq f s = f h s := by
  simp [withHead, ha, hu]

/-- An outcome of the front end is stored in RESULT and completed with the same code (R64). -/
theorem feRefuse_some (h : HeadId) (seq : Nat) (st : Status) (code : Nat) (s : State) :
    feRefuse h (some seq) st code s = complete seq st code [] (s.modFe h (fun b => { b with result := code })) := rfl

/-- A loop over the slices of a mask takes SYS1 first. -/
theorem foldOver_slices {σ : Type} (m : Nat) (f : Sys → σ → σ) (s : σ) :
    foldOver (slices m) f s =
      if m.testBit 1 then f .sys2 (if m.testBit 0 then f .sys1 s else s) else if m.testBit 0 then f .sys1 s else s := by
  unfold slices foldOver
  cases m.testBit 0 <;> cases m.testBit 1 <;> rfl

theorem modFe_modFe (h : HeadId) (f g : FeHead → FeHead) (s : State) :
    (s.modFe h f).modFe h g = s.modFe h (fun b => g (f b)) := modHead_modHead s h _ _

/-! ### The impedance commands -/

section
variable {p : List Byte} {seq : Nat} {s : State} {h : HeadId} (ha : headArg p 0 = some h) (hu : headUp s h = true)
include ha hu

theorem feImpSet_tone_out (out : field p 4 2 < 2000 ∨ 12000 < field p 4 2) :
    feImpSet p seq s = complete seq .conflict 6 [] (s.modFe h (fun b => { b with result := 6 })) := by
  rw [feImpSet, withHead_named ha hu, if_pos out, feRefuse_some]

theorem feImpSet_tone_in (within : 2000 ≤ field p 4 2 ∧ field p 4 2 ≤ 12000) :
    feImpSet p seq s = complete seq .ok 0 [] (s.modFe h (fun b => { b with
      impCfg := put 16 14 (field p 4 2) ||| put 0 16 (field p 2 2)
      impTol := impTolOf (field p 6 1) (field p 7 1) (field p 8 1), result := 0 })) := by
  rw [feImpSet, withHead_named ha hu, if_neg (by omega)]; rfl

theorem feImpRun_eq : feImpRun p seq s = complete seq .ok 0 [] (s.modFe h (fun b => { b with
    imp := ⟨if (field p 2 1).testBit 0 then
              { b.imp.one with dueSince := some (b.imp.one.dueSince.getD s.now) } else b.imp.one,
            if (field p 2 1).testBit 1 then
              { b.imp.two with dueSince := some (b.imp.two.dueSince.getD s.now) } else b.imp.two⟩
    result := 0 })) := by
  rw [feImpRun, withHead_named ha hu, maskArg, foldOver_slices, done]
  congr 1
  cases (field p 2 1).testBit 0 <;> cases (field p 2 1).testBit 1 <;>
    simp only [makeDue, modFe_modFe, modFe_now, Bool.false_eq_true, if_true, if_false] <;> rfl

theorem feImpSetref_may (may : ∀ x ∈ slices (field p 2 1), mayRef s h x = true) :
    feImpSetref p seq s = complete seq .ok 0 [] (s.modFe h (fun b => { b with
      impRef := ⟨if (field p 2 1).testBit 0 then b.impRes.one else b.impRef.one,
                 if (field p 2 1).testBit 1 then b.impRes.two else b.impRef.two⟩
      kref := if b.route.cur.type = 1 then
          (fun k => if (field p 2 1).testBit 1 then setFld k 16 16 (fld b.kres 16 16) else k)
            (if (field p 2 1).testBit 0 then setFld b.kref 0 16 (fld b.kres 0 16) else b.kref)
        else b.kref
      result := 0 })) := by
  have all : (maskArg p 2).all (mayRef s h) = true := List.all_eq_true.mpr may
  rw [feImpSetref, withHead_named ha hu, if_pos all, maskArg]
  dsimp only
  rw [foldOver_slices, done]
  congr 1
  by_cases ty : (s.head h).fe.route.cur.type = 1#2 <;>
  cases (field p 2 1).testBit 0 <;> cases (field p 2 1).testBit 1 <;>
    simp only [modFe_modFe, Bool.false_eq_true, if_true, if_false] <;>
    exact modHead_congr _ _ _ _ (by simp [ty, Sys.idx, Pair.set])

theorem feImpSetref_may_not {x : Sys} (hx : x ∈ slices (field p 2 1)) (no : mayRef s h x = false) :
    feImpSetref p seq s = complete seq .conflict 7 [] (s.modFe h (fun b => { b with result := 7 })) := by
  have some_not : ¬ (maskArg p 2).all (mayRef s h) = true := fun all => by
    simp [List.all_eq_true.mp all x hx] at no
  rw [feImpSetref, withHead_named ha hu, if_neg some_not, feRefuse_some]

end

/-- Settles O1: each command is admitted and its body answers as its own lemma says. -/
theorem impedanceCommands : Obligations.Impedance_commands := by
  unfold Obligations.Impedance_commands
  intro t c s h ha hu
  refine ⟨fun A => ⟨fun out => ?_, fun within => ?_⟩, fun A => ?_, fun A => ⟨fun may => ?_, fun ⟨x, hx, no⟩ => ?_⟩⟩ <;>
    refine answers_of A rfl fun e ob ir ou => ?_
  · exact ⟨_, feImpSet_tone_out ha hu out, rfl, rfl⟩
  · exact ⟨_, feImpSet_tone_in ha hu within, rfl, rfl⟩
  · exact ⟨_, feImpRun_eq ha hu, rfl, rfl⟩
  · exact ⟨_, feImpSetref_may ha hu may, rfl, rfl⟩
  · exact ⟨_, feImpSetref_may_not ha hu hx no, rfl, rfl⟩

/-- Where the operands of a sweep are in range its generator alone decides (R62). -/
theorem feImpSweep_ready {p : List Byte} {seq : Nat} {s : State} {h : HeadId} (ha : headArg p 2 = some h)
    (hu : headUp s h = true) (die : field p 0 1 = (dieOf h).val) (gen : field p 1 1 ≤ 3)
    (sl : field p 4 1 = 1 ∨ field p 4 1 = 2) (least : 1 ≤ field p 5 1) (most : field p 5 1 ≤ 16) :
    feImpSweep p seq s =
      if (s.tone (dieOf h) (Fin.ofNat 4 (field p 1 1))).sweep.isSome then
        complete seq .conflict 8 [] (s.modFe h (fun b => { b with result := 8 }))
      else s.modTone (dieOf h) (Fin.ofNat 4 (field p 1 1)) (fun v => { v with
        sweep := some { head := h, sys := if field p 4 1 = 1 then .sys1 else .sys2, points := field p 5 1,
                        freq0 := field p 6 4, step := field p 10 2, done := [], since := s.now, job := some seq } }) := by
  rw [feImpSweep, withHead_named ha hu, if_neg (by omega)]; rfl

/-- Settles O5: the operands pass their tests, so the generator alone decides. -/
theorem impedanceSweepTakesItsGenerator : Obligations.Impedance_sweep_takes_its_generator := by
  unfold Obligations.Impedance_sweep_takes_its_generator
  intro t c s h A ha hu die gen sl least most
  refine ⟨fun free => waits_of A rfl fun e ob ir ou => ?_, fun held => answers_of A rfl fun e ob ir ou => ?_⟩
  · have idle : ((s.admitted t e ob ir ou).tone (dieOf h) (Fin.ofNat 4 (field c.payload 1 1))).sweep = none := free
    have hu' : headUp (s.admitted t e ob ir ou) h = true := hu
    rw [feImpSweep_ready ha hu' die gen sl least most, idle, if_neg (by decide)]
    exact ⟨rfl, rfl⟩
  · have hu' : headUp (s.admitted t e ob ir ou) h = true := hu
    exact ⟨_, (feImpSweep_ready ha hu' die gen sl least most).trans (if_pos held), rfl, rfl⟩

end Sys2Proof.Machine
end

section
/-! SUPPORT. What the shared operations of a head do to the head itself, family by family, and that they leave every other
head as it was. -/
namespace Sys2Proof.Machine

/-! ### The other heads -/

/-- The heads other than `h`. -/
def Rest.others (h : HeadId) : Rest where
  Part := { g : HeadId // g ≠ h } → Head
  view s := fun g => s.head g.val
  own g := g = h
  words := True
  lines := True
  of_device s u e := by simp [head_of_device e]
  of_blocks _ _ _ _ _ := rfl
  of_survey _ _ := rfl
  of_head s g f own _ := by
    subst own
    exact funext fun k => modHead_head_other _ _ _ _ k.property
  of_sec _ _ _ _ := rfl
  of_trip _ _ _ _ := rfl

@[simp] theorem others_own (h : HeadId) : (Rest.others h).own h := rfl
@[simp] theorem others_words (h : HeadId) : (Rest.others h).words := trivial
@[simp] theorem others_lines (h : HeadId) : (Rest.others h).lines := trivial

/-- What keeps the view of the other heads keeps the other heads. -/
theorem otherHeads_of {h : HeadId} {s u : State} (e : (Rest.others h).view u = (Rest.others h).view s) :
    OtherHeadsKept h s u := fun g other => (congrFun e ⟨g, other⟩ :)

/-! ### Operations that change no head -/

section
variable (s : State) (g h : HeadId)
theorem head_of_heads {s u : State} (e : u.heads = s.heads) (g : HeadId) : u.head g = s.head g :=
  congrArg (fun v => tget v g) e
@[simp] theorem complete_head (seq : Nat) (st : Status) (d : Nat) (resp : List Byte) :
    (complete seq st d resp s).head g = s.head g := (head_of_device (complete_device ..) g :)
@[simp] theorem completeJob_head (job : Option Nat) (st : Status) (d : Nat) :
    (completeJob job st d s).head g = s.head g := (head_of_device (completeJob_device ..) g :)
@[simp] theorem trig_head (cls source : Nat) (detail : Word) : (trig cls source detail s).head g = s.head g :=
  (head_of_device (trig_device ..) g :)
@[simp] theorem offer_head (k : Fin 16) (bytes : List Byte) : (offer k bytes s).1.head g = s.head g :=
  (head_of_device (offer_device ..) g :)
@[simp] theorem hpErr_head (cause : Nat) (bar2 : Bool) (off : Nat) (v : Word) :
    (hpErr cause bar2 off v s).head g = s.head g := (head_of_device (hpErr_device ..) g :)
@[simp] theorem activity_head : (activity h s).head g = s.head g := head_of_heads (activity_heads ..) g
@[simp] theorem setLatches_head : (setLatches h s).head g = s.head g := head_of_heads (setLatches_heads ..) g
@[simp] theorem flagZl_head (n : Nat) : (flagZl n s).head g = s.head g := (head_of_device (flagZl_device ..) g :)
@[simp] theorem pushItem_head (it : Item) (n : SecId) : (pushItem it n s).head g = s.head g := by
  have kept : ∀ (p : Prop) [Decidable p] (a b : State), a.head g = s.head g → b.head g = s.head g →
      (if p then a else b).head g = s.head g := fun _ _ _ _ ha hb => ite_proj (·.head g) ha hb
  unfold pushItem
  split <;> simp [apply_ite (fun u : State => u.head g), flagSec]
@[simp] theorem headNotice_head (reason : Nat) : (headNotice h reason s).head g = s.head g :=
  (foldOver_keeps (g := fun u => u.head g) (fun _ _ => pushItem_head ..) _).trans (activity_head ..)
@[simp] theorem faultNotice_head : (faultNotice h s).head g = s.head g := headNotice_head ..
@[simp] theorem changeNotice_head : (changeNotice h s).head g = s.head g := headNotice_head ..
@[simp] theorem deliverPassage_head (seq : Nat) (i : Issued) : (deliverPassage h seq i s).head g = s.head g := by
  have pushed : ∀ (l : List SecId) (it : Item) (u : State), (foldOver l (pushItem it) u).head g = u.head g :=
    fun l it u => foldOver_keeps (g := fun u => u.head g) (fun _ _ => pushItem_head ..) u
  unfold deliverPassage
  dsimp only
  repeat' split
  all_goals simp [pushed]
  all_goals rfl
@[simp] theorem surveyPassage_head (i : Issued) : (surveyPassage h i s).head g = s.head g := by
  unfold surveyPassage; split <;> rfl
end

/-! ### Flags and the drive interval they spoil -/

section
variable (r : HeadReg) (w : Word) (t : Nat) (x : Head)
@[simp] theorem spoil_fe : (Head.spoil r w t x).fe = x.fe := by unfold Head.spoil; split <;> rfl
@[simp] theorem spoil_flt_family : (Head.spoil r w t x).flt = x.flt := by unfold Head.spoil; split <;> rfl
@[simp] theorem spoil_cmp_family : (Head.spoil r w t x).cmp = x.cmp := by unfold Head.spoil; split <;> rfl
@[simp] theorem spoil_trn_family : (Head.spoil r w t x).trn = x.trn := by unfold Head.spoil; split <;> rfl
@[simp] theorem spoil_slice : (Head.spoil r w t x).xs.slice = x.xs.slice := by unfold Head.spoil; split <;> rfl
@[simp] theorem spoil_chg : (Head.spoil r w t x).xs.chg = x.xs.chg := by unfold Head.spoil; split <;> rfl
end

theorem head_ite {β : Type} {V : Head → β} {h : HeadId} {p : Prop} [Decidable p] (a b : State) :
    V ((if p then a else b).head h) = if p then V (a.head h) else V (b.head h) := apply_ite (fun u : State => V (u.head h)) ..

/-! ### Issue and abort of passages change the transit family alone -/

section
variable {β : Type} {V : Head → β} {h : HeadId}
  (hide : ∀ (x : Head) (t : TrnHead), t.st = x.trn.st → V { x with trn := t } = V x) (s : State)
include hide
theorem modTrn_hidden {f : TrnHead → TrnHead} (st : ∀ t, (f t).st = t.st) :
    V ((s.modTrn h f).head h) = V (s.head h) := by
  rw [modTrn_head_same]; exact hide _ _ (st _)
theorem flagTrn_hidden (n : Nat) : V ((flagTrn h n s).head h) = V (s.head h) := by
  rw [flagTrn_head]; exact hide _ _ rfl
theorem countPassage_hidden (seq : Nat) (i : Issued) : V ((countPassage h seq i s).head h) = V (s.head h) := by
  have flagged : ∀ n u, V ((flagTrn h n u).head h) = V (u.head h) := fun n u => flagTrn_hidden hide u n
  unfold countPassage
  extract_lets u _ v
  have counted : V (u.head h) = V (s.head h) := modTrn_hidden hide s fun _ => rfl
  have same : v.head h = u.head h := rfl
  clear_value v u
  simp only [head_ite (V := V), flagged, trig_head, same, counted, ite_self]
theorem countDrop_hidden {r : StreamRec} (own : r.head = some h) (none_ : r.sec = none) :
    V ((countDrop r s).head h) = V (s.head h) := by
  simp only [countDrop, own, none_]
  exact flagTrn_hidden hide _ 5
theorem recordPassage_hidden (seq : Nat) (i : Issued) : V ((recordPassage h seq i s).head h) = V (s.head h) := by
  unfold recordPassage queueRec offerRec
  dsimp only
  rw [head_ite (V := V), head_ite (V := V), head_ite (V := V), countDrop_hidden hide _ rfl rfl, offer_head, ite_self]
  exact (congrArg (ite _ · _) (ite_self _)).trans (ite_self _)
theorem issue_hidden (i : Issued) : V ((issue h i s).head h) = V (s.head h) := by
  simp only [issue, recordPassage_hidden hide, surveyPassage_head, deliverPassage_head, activity_head,
    countPassage_hidden hide]
end

section
variable (h : HeadId) (reason : Nat) (s : State)
/-- After an abort no passage is in progress: the head waits (R158). -/
@[simp] theorem abortHead_st : ((abortHead h reason s).head h).trn.st = .wait := by
  simp only [abortHead]
  split
  · rw [issue_hidden (V := fun x => x.trn.st) fun _ _ e => e]; simp
  · simp
theorem abortHead_hidden {β : Type} {V : Head → β} (hide : ∀ (x : Head) (t : TrnHead), V { x with trn := t } = V x) :
    V ((abortHead h reason s).head h) = V (s.head h) := by
  simp only [abortHead]
  split
  · rw [issue_hidden fun x t _ => hide x t]; simp [hide]
  · simp [hide]
@[simp] theorem abortHead_fe : ((abortHead h reason s).head h).fe = (s.head h).fe :=
  abortHead_hidden (V := Head.fe) _ _ _ fun _ _ => rfl
@[simp] theorem abortHead_xs : ((abortHead h reason s).head h).xs = (s.head h).xs :=
  abortHead_hidden (V := Head.xs) _ _ _ fun _ _ => rfl
@[simp] theorem abortHead_flt : ((abortHead h reason s).head h).flt = (s.head h).flt :=
  abortHead_hidden (V := Head.flt) _ _ _ fun _ _ => rfl
@[simp] theorem abortHead_cmp : ((abortHead h reason s).head h).cmp = (s.head h).cmp :=
  abortHead_hidden (V := Head.cmp) _ _ _ fun _ _ => rfl
end

/-! ### Settle counters, alignment and swaps change the filter family alone, but for an abort -/

section
variable {β : Type} {V : Head → β} (flt : ∀ (x : Head) (b : FltHead), V { x with flt := b } = V x)
  (h : HeadId) (x : Sys) (s : State)
include flt
theorem modFlt_hidden (f : FltHead → FltHead) : V ((s.modFlt h f).head h) = V (s.head h) := by
  rw [modFlt_head_same]; exact flt ..
theorem modFltSlice_hidden (f : FltSlice → FltSlice) : V ((s.modFltSlice h x f).head h) = V (s.head h) := by
  rw [modFltSlice_head_same]; exact flt ..
theorem flagFlt_hidden (n : Nat) : V ((flagFlt h n s).head h) = V (s.head h) := by rw [flagFlt_head]; exact flt ..
theorem restartSettle_hidden : V ((restartSettle h x s).head h) = V (s.head h) := by
  unfold restartSettle; split <;> exact modFltSlice_hidden flt ..
theorem releaseSettle_hidden : V ((releaseSettle h x s).head h) = V (s.head h) := by
  unfold releaseSettle; split
  · exact restartSettle_hidden flt ..
  · rfl
theorem swapDone_hidden (w : Swap) : V ((swapDone h w s).head h) = V (s.head h) := by
  simp only [swapDone, completeJob_head, flagFlt_hidden flt, modFlt_hidden flt]
theorem endSwaps_hidden : V ((endSwaps h s).head h) = V (s.head h) := by
  simp only [endSwaps]
  repeat' split
  all_goals simp only [swapDone_hidden flt, modFlt_hidden flt]
theorem realign_hidden (trn : ∀ (x : Head) (t : TrnHead), V { x with trn := t } = V x) :
    V ((realign h s).head h) = V (s.head h) := by
  unfold realign
  extract_lets l1 l2 d n u d' err was v
  have delay : V (u.head h) = V (s.head h) := by
    simp only [u, head_ite (V := V), modFlt_hidden flt, ite_self]
  have placed : V (v.head h) = V (s.head h) := (modFlt_hidden flt ..).trans delay
  clear_value v
  simp only [head_ite (V := V), onBoth, holdSettle, modFltSlice_hidden flt, abortHead_hidden _ _ _ trn, flagFlt_hidden flt,
    placed, ite_self]
theorem restartHead_hidden (trn : ∀ (x : Head) (t : TrnHead), V { x with trn := t } = V x) :
    V ((restartHead h s).head h) = V (s.head h) := by
  simp only [restartHead, onBoth, restartSettle_hidden flt, realign_hidden flt _ _ trn]
end

end Sys2Proof.Machine
end

section
/-! SUPPORT. Route requests (R42 to R52): what admission and each stage do to their head. Settles O2, O3. -/
namespace Sys2Proof.Machine

/-! ### The instant of what happens at a head -/

section
variable (s : State) (h : HeadId)
@[simp] theorem activity_now : (activity h s).now = s.now := foldOver_keeps (g := State.now) (fun _ _ => by rfl) s
@[simp] theorem setLatches_now : (setLatches h s).now = s.now := foldOver_keeps (g := State.now) (fun _ _ => by rfl) s
@[simp] theorem flagZl_now (n : Nat) : (flagZl n s).now = s.now := by simp [flagZl]
@[simp] theorem pushItem_now (it : Item) (n : SecId) : (pushItem it n s).now = s.now := by
  unfold pushItem
  split <;> simp [apply_ite State.now, flagSec]
@[simp] theorem pushItems_now (it : Item) (l : List SecId) : (foldOver l (pushItem it) s).now = s.now :=
  foldOver_keeps (g := State.now) (fun _ _ => pushItem_now ..) s
@[simp] theorem headNotice_now (reason : Nat) : (headNotice h reason s).now = s.now := by simp [headNotice]
@[simp] theorem changeNotice_now : (changeNotice h s).now = s.now := headNotice_now ..
@[simp] theorem faultNotice_now : (faultNotice h s).now = s.now := headNotice_now ..
@[simp] theorem flagTrn_now (n : Nat) : (flagTrn h n s).now = s.now := flagHead_now ..
@[simp] theorem flagFlt_now (n : Nat) : (flagFlt h n s).now = s.now := flagHead_now ..
@[simp] theorem countPassage_now (seq : Nat) (i : Issued) : (countPassage h seq i s).now = s.now := by
  unfold countPassage
  extract_lets u _ v
  have counted : u.now = s.now := rfl
  have same : v.now = u.now := rfl
  clear_value v u
  simp [apply_ite State.now, same, counted]
@[simp] theorem deliverPassage_now (seq : Nat) (i : Issued) : (deliverPassage h seq i s).now = s.now := by
  simp [deliverPassage, apply_ite State.now]
@[simp] theorem surveyPassage_now (i : Issued) : (surveyPassage h i s).now = s.now := by
  unfold surveyPassage; split <;> rfl
@[simp] theorem countDrop_now (r : StreamRec) : (countDrop r s).now = s.now := by
  simp only [countDrop]
  split <;> split <;> simp [flagSec]
@[simp] theorem recordPassage_now (seq : Nat) (i : Issued) : (recordPassage h seq i s).now = s.now := by
  simp [recordPassage, queueRec, offerRec, apply_ite State.now]
@[simp] theorem issue_now (i : Issued) : (issue h i s).now = s.now := by simp [issue]
@[simp] theorem abortHead_now (reason : Nat) : (abortHead h reason s).now = s.now := by
  simp only [abortHead]; split <;> simp
@[simp] theorem swapDone_now (w : Swap) : (swapDone h w s).now = s.now := by simp [swapDone]
@[simp] theorem endSwaps_now : (endSwaps h s).now = s.now := by
  simp only [endSwaps]
  repeat' split
  all_goals simp
end

/-! ### Trip lines note their release in the comparators alone -/

theorem withLines_hidden {β : Type} {V : Head → β}
    (hide : ∀ (x : Head) (y : Sys) (n : Nat),
      V { x with cmp := { x.cmp with slice := x.cmp.slice.mod y (fun c => { c with releasedAt := n }) } } = V x)
    (h : HeadId) (f : State → State) (s : State) : V ((withLines h f s).head h) = V ((f s).head h) := by
  have note : ∀ (u : State) (y : Sys) (n : Nat),
      V ((u.modCmpSlice h y (fun c => { c with releasedAt := n })).head h) = V (u.head h) := fun u y n => by
    rw [modCmpSlice_head_same]; exact hide ..
  simp only [withLines, head_ite (V := V), setLatches_head, note, ite_self]

section
variable (h : HeadId) (f : State → State) (s : State)
@[simp] theorem withLines_fe : ((withLines h f s).head h).fe = ((f s).head h).fe :=
  withLines_hidden (V := Head.fe) (fun _ _ _ => rfl) h f s
@[simp] theorem withLines_xs : ((withLines h f s).head h).xs = ((f s).head h).xs :=
  withLines_hidden (V := Head.xs) (fun _ _ _ => rfl) h f s
@[simp] theorem withLines_flt : ((withLines h f s).head h).flt = ((f s).head h).flt :=
  withLines_hidden (V := Head.flt) (fun _ _ _ => rfl) h f s
@[simp] theorem withLines_trn : ((withLines h f s).head h).trn = ((f s).head h).trn :=
  withLines_hidden (V := Head.trn) (fun _ _ _ => rfl) h f s
end

/-! ### The excitation family alone -/

section
variable {β : Type} {V : Head → β} (xs : ∀ (x : Head) (b : XsHead), V { x with xs := b } = V x)
  (h : HeadId) (x : Sys) (s : State)
include xs
theorem modXsSlice_hidden (f : XsSlice → XsSlice) : V ((s.modXsSlice h x f).head h) = V (s.head h) := by
  rw [modXsSlice_head_same]; exact xs ..
theorem flagXsHead_hidden (w : Word) : V ((flagHead .xs h w s).head h) = V (s.head h) := by
  rw [flagHead_head]
  unfold Head.spoil
  split <;> exact xs (s.head h) _
theorem loseLock_hidden : V ((loseLock h x s).head h) = V (s.head h) := by
  simp only [loseLock, head_ite (V := V), flagXsHead_hidden xs, modXsSlice_hidden xs, ite_self]
theorem anchorSlice_hidden : V ((anchorSlice h x s).head h) = V (s.head h) := modXsSlice_hidden xs ..
theorem rampOff_hidden : V ((rampOff h x s).head h) = V (s.head h) := by
  simp only [rampOff, head_ite (V := V), anchorSlice_hidden xs, modXsSlice_hidden xs, loseLock_hidden xs, ite_self]
end

/-! ### Admission (R42, R47, R139) -/

section
variable (h : HeadId) (r : RouteCfg) (job : Option Nat) (s : State)

/-- An admitted request of a head: it ramps down with what it asks for, under an open window, and the references that
could be captured no longer can. -/
theorem admitRoute_fe : ((admitRoute h r job s).head h).fe =
    { (s.head h).fe with
      imp := (s.head h).fe.imp.both (fun i => { i with fresh := false }),
      route := { (s.head h).fe.route with
        phase := .ramp, req := some r, job := job, oldMode := (s.head h).fe.route.cur.mode, admAt := s.now,
        window := true } } := by
  have swaps : ((endSwaps h s).head h).fe = (s.head h).fe := endSwaps_hidden (V := Head.fe) (fun _ _ => rfl) h s
  simp only [admitRoute, withLines_fe, onBoth, forceSlice, modCmpSlice_head_same, rampOff_hidden (V := Head.fe) (fun _ _ => rfl),
    holdSettle, modFltSlice_head_same, modFlt_head_same, modCmp_head_same, modFe_head_same, abortHead_fe,
    changeNotice_head, swaps, abortHead_now, changeNotice_now, endSwaps_now]

/-- Admission forces both slices. -/
theorem admitRoute_forced (x : Sys) : (((admitRoute h r job s).head h).cmp.slice.get x).forced = true := by
  have forced : ∀ (u : State) (y : Sys), (((forceSlice h y u).head h).cmp.slice.get x).forced =
      (decide (x = y) || ((u.head h).cmp.slice.get x).forced) := fun u y => by
    rw [forceSlice, modCmpSlice_head_same]; cases x <;> cases y <;> rfl
  have noted : ∀ (b : Head) (y : Sys) (n : Nat),
      ((b.cmp.slice.mod y (fun c => { c with releasedAt := n })).get x).forced = (b.cmp.slice.get x).forced :=
    fun b y n => by cases x <;> cases y <;> rfl
  rw [admitRoute, withLines_hidden (V := fun b => (b.cmp.slice.get x).forced) noted]
  simp only [onBoth, forced]
  cases x <;> rfl

theorem admitRoute_forced_both : ((admitRoute h r job s).head h).cmp.slice.one.forced = true ∧
    ((admitRoute h r job s).head h).cmp.slice.two.forced = true := by
  have one := admitRoute_forced h r job s .sys1
  have two := admitRoute_forced h r job s .sys2
  rw [pair_get_one] at one
  rw [pair_get_two] at two
  exact ⟨one, two⟩

theorem admitRoute_others : OtherHeadsKept h s (admitRoute h r job s) := otherHeads_of (by simp)
end

/-! ### The ways a request comes -/

@[simp] theorem rest_admitted (F : Rest) (s : State) (t : Nat) (e : InFlight) (ob : Vector Orbit 16) (ir : Irq)
    (ou : List Out) : F.view (s.admitted t e ob ir ou) = F.view s := F.of_device _ _ rfl

section
variable {p : List Byte} {seq : Nat} {s : State} {h : HeadId} (ha : headArg p 0 = some h) (hu : headUp s h = true)
include ha hu

theorem feRoute_admits (ok : routeTest h (routeCfgOf h p s) s = none) :
    feRoute p seq s = admitRoute h (routeCfgOf h p s) (some seq) (s.modFe h (storeRoute p (routeCfgOf h p s))) := by
  simp [feRoute, ha, hu, ok]

theorem feRoute_refuses {st : Status} {code : Nat} (bad : routeTest h (routeCfgOf h p s) s = some (st, code)) :
    feRoute p seq s = complete seq st code [] (s.modFe h (fun b => { b with result := code })) := by
  simp [feRoute, ha, hu, bad, feRefuse_some]

/-- A change of LEVEL that passes the tests runs as a request with what else is in force (R52). -/
theorem feBiasSet_admits (warn : field p 4 2 ≤ 4095) (fault : field p 6 2 ≤ 4095)
    (level : field p 2 1 ≠ (s.head h).fe.route.cur.level.toNat)
    (ok : routeTest h { (s.head h).fe.route.cur with
      level := BitVec.ofNat 8 (field p 2 1), disch := dischOf (fld (s.head h).fe.headCfg 8 8) } s = none) :
    feBiasSet p seq s = admitRoute h { (s.head h).fe.route.cur with
        level := BitVec.ofNat 8 (field p 2 1), disch := dischOf (fld (s.head h).fe.headCfg 8 8) } (some seq)
      (leakEval h (decide (leakWarnOf (s.head h).fe.bias ≤ (s.head h).fe.leak)) (s.modFe h (fun b =>
        { b with bias := put 20 12 (field p 6 2) ||| put 8 12 (field p 4 2) ||| put 0 8 (field p 2 1) }))) := by
  rw [feBiasSet, withHead_named ha hu, if_neg (by omega)]
  dsimp only
  rw [if_neg level, ok]

end

/-- Evaluating the leakage leaves the thresholds and the route as they are. -/
theorem leakEval_bias (h : HeadId) (was : Bool) (s : State) :
    ((leakEval h was s).head h).fe.bias = (s.head h).fe.bias := by
  simp only [leakEval]
  repeat' split
  all_goals simp

/-- GO before sealing admits what the registers ask for (R51). -/
theorem routeCtrlWrite_admits {s : State} {h : HeadId} {v : Word} (hu : headUp s h = true)
    (open_ : s.hp.isSealed = false) (go : bit v 31 = true)
    (ok : routeTest h (routeCfgRegs h (s.modFe h (fun b => { b with routeCtrl := put 0 2 (fld v 0 2) })))
      (s.modFe h (fun b => { b with routeCtrl := put 0 2 (fld v 0 2) })) = none) :
    routeCtrlWrite h v s =
      admitRoute h (routeCfgRegs h (s.modFe h (fun b => { b with routeCtrl := put 0 2 (fld v 0 2) }))) none
        (s.modFe h (fun b => { b with routeCtrl := put 0 2 (fld v 0 2) })) := by
  simp [routeCtrlWrite, open_, hu, go, ok]

/-- Settles O2: whichever way a request comes, it is admitted by the same operation. -/
theorem routeRequestAdmission : Obligations.Route_request_admission := by
  unfold Obligations.Route_request_admission
  intro t s h hu
  refine ⟨fun c A ha => ⟨fun ok => ?_, fun st code bad => ?_⟩, fun c A ha warn fault level ok => ?_,
    fun v host open_ go ok => ?_⟩
  · obtain ⟨e, ob, ir, ou, -, run⟩ := command_runs 0x0210 (feRoute c.payload) A
    have hu' : headUp (s.admitted t e ob ir ou) h = true := hu
    rw [feRoute_admits ha hu' ok] at run
    have others : ∀ r job f, (Rest.others h).view (admitRoute h r job ((s.admitted t e ob ir ou).modFe h f)) =
        (Rest.others h).view s := fun r job f => by simp
    refine ⟨_, congrArg Host.Outcome.next run, ?_, ?_, ?_, ?_, ?_, (admitRoute_forced_both ..).1, (admitRoute_forced_both ..).2,
      otherHeads_of (others ..)⟩ <;> rw [admitRoute_fe]
    · rfl
    · rfl
  · have hu' : ∀ e ob ir ou, headUp (s.admitted t e ob ir ou) h = true := fun _ _ _ _ => hu
    exact answers_of A rfl fun e ob ir ou => ⟨_, feRoute_refuses ha (hu' e ob ir ou) bad, rfl, rfl⟩
  · obtain ⟨e, ob, ir, ou, -, run⟩ := command_runs 0x0211 (feBiasSet c.payload) A
    have hu' : headUp (s.admitted t e ob ir ou) h = true := hu
    rw [feBiasSet_admits ha hu' warn fault level ok] at run
    refine ⟨_, congrArg Host.Outcome.next run, ?_, ?_, ?_, ?_, otherHeads_of (by simp)⟩ <;> rw [admitRoute_fe]
    · rfl
    · dsimp only
      rw [leakEval_bias, modFe_head_same]
  · have admitted := routeCtrlWrite_admits (s := s.advance t) hu open_ go ok
    refine ⟨routeCtrlWrite h v (s.advance t), congrArg Host.Outcome.next (whenHost_advance host), ?_⟩
    rw [admitted]
    refine ⟨?_, ?_, ?_, otherHeads_of (by simp)⟩ <;> rw [admitRoute_fe]
    rw [modFe_head_same]

/-! ### Closing the window and completing a request -/

/-- A view of a head that shows none of what closing its expected-trip window, or a wiring fault, can change. -/
structure Quiet {β : Type} (V : Head → β) : Prop where
  flt : ∀ (x : Head) (b : FltHead), V { x with flt := b } = V x
  trn : ∀ (x : Head) (b : TrnHead), V { x with trn := b } = V x
  flag : ∀ (x : Head) (w : Word), V { x with fe := { x.fe with fault := w } } = V x
  spoil : ∀ (x : Head) (n : Nat), V { x with xs := { x.xs with spoilAt := n } } = V x
  imp : ∀ (x : Head) (i : Pair ImpSlice), V { x with fe := { x.fe with imp := i } } = V x
  window : ∀ (x : Head) (b : Bool), V { x with fe := { x.fe with route := { x.fe.route with window := b } } } = V x

section
variable {β : Type} {V : Head → β} (quiet : Quiet V) (h : HeadId) (x : Sys) (s : State)
include quiet
theorem flagFeHead_hidden (w : Word) : V ((flagHead .fe h w s).head h) = V (s.head h) := by
  rw [flagHead_head, setHeadFault, quiet.flag]
  unfold Head.spoil
  split
  · exact quiet.spoil ..
  · rfl
theorem wiringFault_hidden : V ((wiringFault h x s).head h) = V (s.head h) := by
  have imp : ∀ (u : State) (f : FeHead → Pair ImpSlice), V ((u.modFe h (fun b => { b with imp := f b })).head h) = V (u.head h) := fun u f => by
    rw [modFe_head_same]; exact quiet.imp ..
  simp only [wiringFault, faultNotice_head, imp, abortHead_hidden _ _ _ quiet.trn, holdSettle,
    modFltSlice_hidden quiet.flt, flagFeHead_hidden quiet]
theorem closeWindow_hidden : V ((closeWindow h s).head h) = V (s.head h) := by
  have window : V ((s.modFe h (fun b => { b with route := { b.route with window := false } })).head h) = V (s.head h) := by
    rw [modFe_head_same]; exact quiet.window ..
  have faults : ∀ (l : List Sys) (u : State),
      V ((foldOver l (fun x s => if healthOut s h x then wiringFault h x s else s) u).head h) = V (u.head h) := fun l u =>
    foldOver_keeps (g := fun u => V (u.head h)) (fun y u => by
      simp only [head_ite (V := V), wiringFault_hidden quiet, ite_self]) u
  simp only [closeWindow, head_ite (V := V), faults, window, ite_self]
end

/-- The front end of a head without what a quiet view does not show. -/
def FeHead.calm (b : FeHead) : FeHead :=
  { b with imp := ⟨ImpSlice.reset, ImpSlice.reset⟩, fault := 0, route := { b.route with window := false } }

section
variable (b : FeHead)
@[simp] theorem calm_cur : b.calm.route.cur = b.route.cur := rfl
@[simp] theorem calm_phase : b.calm.route.phase = b.route.phase := rfl
@[simp] theorem calm_seq : b.calm.seq = b.seq := rfl
@[simp] theorem calm_result : b.calm.result = b.result := rfl
end

theorem calm_quiet : Quiet (fun x : Head => x.fe.calm) where
  flt _ _ := rfl
  trn _ _ := rfl
  flag _ _ := rfl
  spoil _ _ := rfl
  imp _ _ := rfl
  window _ _ := rfl

/-- A request that completes leaves the head steady, with result 0 and the next sequence number (R42). -/
theorem completeRoute_calm (h : HeadId) (s : State) : ((completeRoute h s).head h).fe.calm =
    { (s.head h).fe with
      result := 0, seq := ((s.head h).fe.seq + 1) % 256
      route := { (s.head h).fe.route with phase := .steady, req := none, job := none } }.calm := by
  have restarted : ∀ u : State, ((restartHead h u).head h).fe.calm = (u.head h).fe.calm := fun u =>
    restartHead_hidden (V := fun x => x.fe.calm) (fun _ _ => rfl) h u fun _ _ => rfl
  have flagged : ∀ u : State, ((flagFe h 10 u).head h).fe.calm = (u.head h).fe.calm := fun u =>
    flagFeHead_hidden calm_quiet h u _
  simp only [completeRoute, closeWindow_hidden calm_quiet, restarted, completeJob_head, flagged, modFe_head_same]

/-! ### The make (R42) -/

section
variable (h : HeadId) (x : Sys) (s : State)
theorem lowerEnvbw_fe : ((lowerEnvbw h x s).head h).fe = (s.head h).fe := by
  unfold lowerEnvbw; split <;> simp
theorem bankFollow_fe : ((bankFollow h x s).head h).fe = (s.head h).fe := by
  have flagged : ∀ w u, ((flagHead .flt h w u).head h).fe = (u.head h).fe := fun w u => by
    rw [flagHead_head]; simp [setHeadFault]
  simp only [bankFollow]
  repeat' split
  all_goals simp [flagged]
theorem dropNotches_fe : ((dropNotches h x s).head h).fe = (s.head h).fe := by
  simp only [dropNotches]; split <;> simp
theorem makeSlice_fe : ((makeSlice h x s).head h).fe = (s.head h).fe := by
  simp only [makeSlice, modXsSlice_head_same, loseLock_hidden (V := Head.fe) (fun _ _ => rfl), retune, lowerEnvbw_fe,
    dropNotches_fe, bankFollow_fe]
end

theorem completeRoute_route (h : HeadId) (s : State) :
    ((completeRoute h s).head h).fe.route.cur = (s.head h).fe.route.cur ∧
      ((completeRoute h s).head h).fe.route.phase = .steady ∧
      ((completeRoute h s).head h).fe.seq = ((s.head h).fe.seq + 1) % 256 ∧
      ((completeRoute h s).head h).fe.result = 0 := by
  have calm := completeRoute_calm h s
  have cur := congrArg (fun b : FeHead => b.route.cur) calm
  have phase := congrArg (fun b : FeHead => b.route.phase) calm
  have seq := congrArg FeHead.seq calm
  have result := congrArg FeHead.result calm
  simp only [calm_cur, calm_phase, calm_seq, calm_result] at cur phase seq result
  exact ⟨cur, phase, seq, result⟩

/-- The make puts the request in force; one that does not end in RUN completes with it (R42). -/
theorem routeMake_route {h : HeadId} {s : State} {q : RouteCfg} (req : (s.head h).fe.route.req = some q) :
    ((routeMake h s).head h).fe.route.cur = q ∧ (q.mode ≠ 1 → ((routeMake h s).head h).fe.route.phase = .steady ∧
      ((routeMake h s).head h).fe.seq = ((s.head h).fe.seq + 1) % 256 ∧ ((routeMake h s).head h).fe.result = 0) := by
  have made : ∀ (l : List Sys) (u : State), ((foldOver l (makeSlice h) u).head h).fe = (u.head h).fe := fun l u =>
    foldOver_keeps (g := fun u => (u.head h).fe) (fun y u => makeSlice_fe h y u) u
  simp only [routeMake, req]
  split
  case isTrue run =>
    refine ⟨?_, fun other => absurd run other⟩
    split
    · rw [(completeRoute_route ..).1, made, modFe_head_same]
    · rw [made, modFe_head_same]
  case isFalse run =>
    have steady := fun u => completeRoute_route h u
    refine ⟨(steady _).1.trans ?_, fun _ => ⟨(steady _).2.1, (steady _).2.2.1.trans ?_, (steady _).2.2.2⟩⟩ <;>
      rw [modFe_head_same]

/-! ### The stages (R42, R48, R128) -/

/-- The test starts on the slices in use: each takes its staged values and is under test (R127, R128). -/
theorem startTest_head (h : HeadId) (s : State) (x : Sys) :
    let c := ((startTest h s).head h).cmp
    ((startTest h s).head h).fe = { (s.head h).fe with route := { (s.head h).fe.route with testEnd := s.now + us 120 } } ∧
    (inUse s h x = true → c.force.pres.get x = (s.head h).cmp.staged.pres.get x ∧
      c.force.health.get x = (s.head h).cmp.staged.health.get x ∧ c.force.brake = (s.head h).cmp.staged.brake ∧
      (c.slice.get x).testing = true) ∧
    (inUse s h x = false → c.force.pres.get x = (s.head h).cmp.force.pres.get x ∧
      c.force.health.get x = (s.head h).cmp.force.health.get x) := by
  have used : ∀ (f : FeHead → Nat) y, inUse (s.modFe h (fun b => { b with route := { b.route with testEnd := f b } })) h y = inUse s h y :=
    fun f y => by simp [inUse]
  cases one : inUse s h .sys1 <;> cases two : inUse s h .sys2 <;> cases x <;>
    simp [startTest, usedSlices, used, one, two, foldOver, loadStaged, Pair.set, Pair.get, Pair.mod]


section
variable {h : HeadId} {s : State} {q : RouteCfg} (req : (s.head h).fe.route.req = some q)
include req

/-- At the drivers' zero the switches open: the head is ISOLATED with the new TYPE and map (R42). -/
theorem routeBreak_opens (phase : (s.head h).fe.route.phase = .ramp)
    (zero : (s.head h).fe.route.admAt + 100000000 ≤ s.now) :
    ((routeBreak h s).head h).fe = { (s.head h).fe with route := { (s.head h).fe.route with
      phase := .break1, breakAt := s.now, cur := { q with mode := 0 } } } := by
  have zero : (s.head h).fe.route.admAt + us 100 ≤ s.now := zero
  have episode : ∀ u : State, ((endEpisode h u).head h).fe = (u.head h).fe := fun u => by
    unfold endEpisode
    split
    · split <;> simp
    · rfl
  simp only [routeBreak, req, phase, zero, beq_self_eq_true, decide_true, Bool.and_self, if_true, withLines_fe, episode,
    modFe_head_same, onBoth, modXsSlice_head_same, modXsSlice_now]

/-- On the way to RUN the discharge closes and the comparator test begins (R42, R48). -/
theorem routeAfterBreak_closes (phase : (s.head h).fe.route.phase = .break1)
    (apart : (s.head h).fe.route.breakAt + 2000000 ≤ s.now) (run : q.mode = 1) :
    routeAfterBreak h s = withLines h (fun s =>
      (startTest h s).modFe h (fun b => { b with route := { b.route with
        phase := .disch, dischAt := (startTest h s).now } })) s := by
  have apart : (s.head h).fe.route.breakAt + us 2 ≤ s.now := apart
  simp [routeAfterBreak, req, phase, apart, run]

theorem routeDischargeEnd_opens (phase : (s.head h).fe.route.phase = .disch)
    (discharged : (s.head h).fe.route.dischAt + 10000000 * q.disch ≤ s.now) :
    routeDischargeEnd h s =
      s.modFe h (fun b => { b with route := { b.route with phase := .break2, dischAt := s.now } }) := by
  have discharged : (s.head h).fe.route.dischAt + us 10 * q.disch ≤ s.now := discharged
  simp [routeDischargeEnd, req, phase, discharged]

end

theorem routeAfterBreak2_makes {h : HeadId} {s : State} (phase : (s.head h).fe.route.phase = .break2)
    (apart : (s.head h).fe.route.dischAt + 2000000 ≤ s.now) (tested : testRunning s h = false) :
    routeAfterBreak2 h s = withLines h (routeMake h) s := by
  have apart : (s.head h).fe.route.dischAt + us 2 ≤ s.now := apart
  simp [routeAfterBreak2, phase, apart, tested]

theorem startTest_now (h : HeadId) (s : State) : (startTest h s).now = s.now :=
  foldOver_keeps (g := State.now) (fun _ _ => by rfl) _

/-- Settles O3, stage by stage. -/
theorem routeRequestSequence : Obligations.Route_request_sequence := by
  unfold Obligations.Route_request_sequence
  intro t s h q up req
  refine ⟨fun phase zero => ?_, fun phase apart run => ?_, fun phase discharged => ?_, fun phase apart tested => ?_⟩
  · refine ⟨_, congrArg Host.Outcome.next (whenAwake_advance up), ?_, ?_, ?_, otherHeads_of (by simp)⟩ <;>
      rw [routeBreak_opens (s := s.advance t) req phase zero] <;> rfl
  · refine ⟨_, congrArg Host.Outcome.next (whenAwake_advance up), ?_⟩
    rw [routeAfterBreak_closes (s := s.advance t) req phase apart run]
    have test := startTest_head h (s.advance t)
    have force := withLines_hidden (V := fun x => x.cmp.force) (fun _ _ _ => rfl) h
    have testing : ∀ x, _ := fun x => withLines_hidden (V := fun b => (b.cmp.slice.get x).testing)
      (fun b y n => by cases x <;> cases y <;> rfl) h
    simp only [withLines_fe, force, testing, modFe_head_same, startTest_now, advance_now, true_and]
    obtain ⟨fe, -⟩ := test .sys1
    refine ⟨by rw [fe]; rfl, fun x used => ?_, fun x unused => (test x).2.2 unused, fun x used => ?_,
      otherHeads_of (by simp)⟩ <;> obtain ⟨pres, health, brake, tested⟩ := (test x).2.1 used
    · exact ⟨pres, health, brake⟩
    · exact tested
  · exact ⟨_, congrArg Host.Outcome.next (whenAwake_advance up), routeDischargeEnd_opens req phase discharged⟩
  · refine ⟨_, congrArg Host.Outcome.next (whenAwake_advance up), ?_⟩
    obtain ⟨cur, steady⟩ := routeMake_route (s := s.advance t) req
    rw [routeAfterBreak2_makes (s := s.advance t) phase apart tested]
    simp only [withLines_fe]
    exact ⟨cur, steady, otherHeads_of (by simp)⟩

end Sys2Proof.Machine
end

section
/-! SUPPORT. The impedance scheduler (R54 to R62): what is due, what a slot does, what a sweep does. Settles O4. -/
namespace Sys2Proof.Machine

/-! ### Field dies and sections through a head's flags and notices -/

section
variable (s : State) (h : HeadId)
@[simp] theorem flagHead_dies (r : HeadReg) (w : Word) : (flagHead r h w s).dies = s.dies :=
  (congrArg State.dies (flagHead_device s r h w) :)
@[simp] theorem flagHead_sections (r : HeadReg) (w : Word) : (flagHead r h w s).sections = s.sections :=
  (congrArg State.sections (flagHead_device s r h w) :)
@[simp] theorem trig_dies (cls source : Nat) (detail : Word) : (trig cls source detail s).dies = s.dies :=
  dies_of_device (trig_device ..)
@[simp] theorem offer_dies (k : Fin 16) (bytes : List Byte) : (offer k bytes s).1.dies = s.dies :=
  dies_of_device (offer_device ..)
@[simp] theorem complete_dies (seq : Nat) (st : Status) (d : Nat) (resp : List Byte) :
    (complete seq st d resp s).dies = s.dies := dies_of_device (complete_device ..)
@[simp] theorem activity_dies : (activity h s).dies = s.dies := foldOver_keeps (g := State.dies) (fun _ _ => by rfl) s
@[simp] theorem flagZl_dies (n : Nat) : (flagZl n s).dies = s.dies :=
  (dies_of_device (flagZl_device ..) :)
@[simp] theorem pushItem_dies (it : Item) (n : SecId) : (pushItem it n s).dies = s.dies := by
  unfold pushItem
  split <;> simp [apply_ite State.dies, flagSec]
@[simp] theorem headNotice_dies (reason : Nat) : (headNotice h reason s).dies = s.dies :=
  (foldOver_keeps (g := State.dies) (fun _ _ => pushItem_dies ..) _).trans (activity_dies ..)
end

/-! ### The generators of a die -/

section
variable (s : State) (d : DieId) (g : Fin 4) (f : Tone → Tone)
@[simp] theorem modTone_tone : (s.modTone d g f).tone d g = f (s.tone d g) := by
  simp [State.tone, State.modTone]
@[simp] theorem modTone_head (k : HeadId) : (s.modTone d g f).head k = s.head k := rfl
@[simp] theorem modTone_now : (s.modTone d g f).now = s.now := rfl
theorem modTone_checks : ((s.modTone d g f).die d).checks = (s.die d).checks := by simp [State.modTone]
theorem modDie_tone {f : Die → Die} (keep : ∀ v, (f v).tg = v.tg) : (s.modDie d f).tone d g = s.tone d g := by
  simp [State.tone, keep]
@[simp] theorem modFe_tone (h : HeadId) (f : FeHead → FeHead) : (s.modFe h f).tone d g = s.tone d g := rfl
theorem modTone_otherDies : OtherDiesKept d s (s.modTone d g f) := fun _ other => modDie_die_other _ _ _ _ other
end

/-- What changes only the heads and sections after a change of one die leaves the other dies. -/
theorem otherDies_of {d : DieId} {s u v : State} (kept : OtherDiesKept d s v) (e : u.dies = v.dies) :
    OtherDiesKept d s u := fun k other =>
  (congrArg (fun ds => tget ds k) e).trans (kept k other)

theorem tone_of_dies {s u : State} (e : u.dies = s.dies) (d : DieId) (g : Fin 4) : u.tone d g = s.tone d g :=
  congrArg (fun ds : Vector Die 8 => tget (tget ds d).tg g) e
theorem die_of_dies {s u : State} (e : u.dies = s.dies) (d : DieId) : u.die d = s.die d :=
  congrArg (fun ds => tget ds d) e

/-! ### Due and overdue (R56, R58) -/

theorem checkDue_due {h : HeadId} {x : Sys} {s : State} (used : inUse s h x = true)
    (idle : ((s.head h).fe.imp.get x).dueSince = none) (periodic : 0 < impInterval s h)
    (late : ((s.head h).fe.imp.get x).lastDone + impInterval s h ≤ s.now) :
    checkDue h x s = s.modFe h (fun b =>
      { b with imp := b.imp.set x { b.imp.get x with dueSince := some s.now } }) := by
  have due : checkDue h x s = makeDue h x s := by simp [checkDue, used, idle, periodic, late]
  rw [due]
  refine modHead_congr _ _ _ _ ?_
  simp only [Pair.mod, idle, Option.getD_none]

theorem checkOverdue_flags {h : HeadId} {x : Sys} {s : State} {d : Nat}
    (due : ((s.head h).fe.imp.get x).dueSince = some d) (fresh : ((s.head h).fe.imp.get x).overdue = false)
    (periodic : 0 < impInterval s h) (late : d + impInterval s h ≤ s.now) :
    checkOverdue h x s =
      flagFe h 11 (s.modFe h (fun b => { b with imp := b.imp.mod x (fun i => { i with overdue := true }) })) := by
  simp [checkOverdue, due, fresh, periodic, late]

/-! ### Slots (R54, R56, R57, R59) -/

section
variable {d : DieId} {g : Fin 4} {s : State}

theorem satNat_byte (v : Nat) : satNat 8 v = min 255 v := Nat.min_comm ..

theorem slotStart_due {a : HeadId × Sys} (free : (s.tone d g).slot = none) (noSweep : (s.tone d g).sweep = none)
    (next : nextDue s d = some a) :
    slotStart d g s = s.modTone d g (fun v => { v with
      slot := some { head := a.1, sys := a.2, start := s.now, sweep := false } }) := by
  simp [slotStart, free, noSweep, next]

theorem slotAbort_check {w : ToneSlot} (slot : (s.tone d g).slot = some w) (check : w.sweep = false)
    (deferred : deferral s w.head = true) (subject_ : impExempt s w.head w.sys = false) :
    slotAbort d g s = (s.modTone d g (fun v => { v with slot := none })).modFe w.head
      (fun b => { b with aborts := min 255 (b.aborts + 1) }) := by
  simp [slotAbort, slot, check, deferred, subject_, satNat_byte]

theorem slotEnd_check {w : ToneSlot} (slot : (s.tone d g).slot = some w) (check : w.sweep = false)
    (ended : w.start + 2200000000 ≤ s.now) (m : ImpMeasure) :
    slotEnd d g m s =
      if 50 < m.residual then
        (s.modTone d g (fun v => { v with slot := none })).modFe w.head
          (fun b => { b with interf := min 255 (b.interf + 1) })
      else checkDone d w.head w.sys m (s.modTone d g (fun v => { v with slot := none })) := by
  have ended : ¬ s.now < w.start + us 2200 := Nat.not_lt.mpr ended
  by_cases bad : 50 < m.residual <;> simp [slotEnd, slot, check, ended, bad, satNat_byte]

end

/-! ### A completed check (R54, R59, R60) -/

section
variable (h : HeadId) (x : Sys) (old cls : ImpClass) (s : State)
theorem classEffects_dies : (classEffects h x old cls s).dies = s.dies := by
  simp only [classEffects, apply_ite State.dies, faultNotice, headNotice_dies, flagFe, flagHead_dies, trig_dies, ite_self]
theorem impRecord_dies (type01 : Bool) : (impRecord h x old cls type01 s).dies = s.dies := by
  simp only [impRecord, apply_ite State.dies, offer_dies, ite_self]
/-- The effects of a class set flags of the head and nothing else in its front end. -/
theorem classEffects_fe {β : Type} {W : FeHead → β} (fault : ∀ b w, W { b with fault := w } = W b) :
    W ((classEffects h x old cls s).head h).fe = W (s.head h).fe := by
  have flagged : ∀ n u, W ((flagFe h n u).head h).fe = W (u.head h).fe := fun n u => by
    rw [flagFe_head, spoil_fe]; exact fault ..
  simp only [classEffects, head_ite (V := fun y => W y.fe), faultNotice_head, flagged, trig_head, ite_self]
theorem impRecord_head (type01 : Bool) (k : HeadId) : (impRecord h x old cls type01 s).head k = s.head k := by
  simp only [impRecord, apply_ite (fun u : State => u.head k), offer_head, ite_self]
end

section
variable (d : DieId) (h : HeadId) (x : Sys) (m : ImpMeasure) (s : State)

/-- The front end of a head after a completed check, but for the flags that its class sets. -/
theorem checkDone_fe {β : Type} {W : FeHead → β} (fault : ∀ b w, W { b with fault := w } = W b) :
    W ((checkDone d h x m s).head h).fe = W { (s.head h).fe with
      impRes := (s.head h).fe.impRes.set x (impWord m)
      kres := if (s.head h).fe.route.cur.type == 1 then
        setFld (s.head h).fe.kres (16 * x.idx) 16 (satNat 16 m.k) else (s.head h).fe.kres
      imp := (s.head h).fe.imp.set x { lastDone := s.now, dueSince := none, urgent := false, overdue := false,
                                       cls := classify (s.head h).fe x ((s.head h).fe.route.cur.type == 1) m,
                                       fresh := true } } := by
  simp only [checkDone, impRecord_head, classEffects_fe _ _ _ _ _ fault, modDie_head, modFe_head_same]

theorem checkDone_dies : (checkDone d h x m s).dies = (s.modDie d (fun v => { v with checks := (v.checks + 1) % 65536 })).dies := by
  simp only [checkDone, impRecord_dies, classEffects_dies]
  rfl
end

@[simp] theorem rest_checkDone {F : Rest} {h : HeadId} (own : F.own h) (d : DieId) (x : Sys) (m : ImpMeasure) (s : State) :
    F.view (checkDone d h x m s) = F.view s := by simp [checkDone, impRecord, classEffects, own]

/-! ### Sweeps (R62) -/

theorem sweepTimeout_partial {d : DieId} {g : Fin 4} {s : State} {w : Sweep} (sweep : (s.tone d g).sweep = some w)
    (late : w.since + 45000000000 ≤ s.now) : sweepTimeout d g s = endSweep d g w 9 s := by
  have late : w.since + ms 45 ≤ s.now := late
  simp [sweepTimeout, sweep, late]

section
variable (d : DieId) (g : Fin 4) (w : Sweep) (code : Nat) (s : State)
theorem endSweep_dies : (endSweep d g w code s).dies = (s.modTone d g (fun v => { v with
    sweep := none, slot := v.slot.bind (fun t => if t.sweep then none else some t) })).dies := by
  unfold endSweep
  split
  · exact complete_dies ..
  · rfl
theorem endSweep_result : ((endSweep d g w code s).head w.head).fe.result = code := by
  unfold endSweep
  split <;> simp
@[simp] theorem rest_endSweep_own {F : Rest} (own : F.own w.head) : F.view (endSweep d g w code s) = F.view s := by
  unfold endSweep; split <;> simp [own]
end

/-- Settles O4, clause by clause. -/
theorem impedanceScheduler : Obligations.Impedance_scheduler := by
  unfold Obligations.Impedance_scheduler
  intro t s up
  have run : ∀ f, (Host.Outcome.next (whenAwake f (s.advance t)) : Host.Outcome State Fault Refusal) =
      .next (f (s.advance t)) := fun f => congrArg Host.Outcome.next (whenAwake_advance up)
  refine ⟨fun h x used idle periodic late => ?_, fun h x d due fresh periodic late => ?_, fun d g a free noSweep next => ?_,
    fun d g w m slot check ended => ⟨fun good => ?_, fun bad => ?_⟩, fun d g w slot check deferred subject_ => ?_,
    fun d g w sweep late => ?_⟩
  · exact (run _).trans (congrArg _ (checkDue_due (s := s.advance t) used idle periodic late))
  · refine ⟨_, (run _).trans (congrArg _ (checkOverdue_flags (s := s.advance t) due fresh periodic late)), ?_, ?_,
      otherHeads_of (by simp), ?_⟩
    · simp
    · simp [bit_bits_one]
    · exact flagHead_sections ..
  · exact (run _).trans (congrArg _ (slotStart_due (s := s.advance t) free noSweep next))
  · have body := (slotEnd_check (s := s.advance t) slot check ended m).trans (if_neg (Nat.not_lt.mpr good))
    have dies := checkDone_dies d w.head w.sys m ((s.advance t).modTone d g (fun v => { v with slot := none }))
    have others : OtherDiesKept d s (((s.advance t).modTone d g (fun v => { v with slot := none })).modDie d
        (fun v => { v with checks := (v.checks + 1) % 65536 })) := fun k other =>
      (modDie_die_other _ _ _ _ other).trans (modTone_otherDies _ _ _ _ k other)
    refine ⟨_, (run _).trans (congrArg _ body), ?_, ?_, ?_, ?_, ?_, otherHeads_of (by simp), otherDies_of others dies⟩
    · rw [tone_of_dies dies, modDie_tone _ _ _ (by exact fun _ => rfl), modTone_tone]
    · exact (checkDone_fe _ _ _ _ _ (W := fun b => b.impRes.get w.sys) fun _ _ => rfl).trans (pair_get_set_same ..)
    · refine (checkDone_fe _ _ _ _ _ (W := fun b => (b.imp.get w.sys).cls) fun _ _ => rfl).trans ?_
      rw [pair_get_set_same]; rfl
    · refine (checkDone_fe _ _ _ _ _ (W := fun b => (b.imp.get w.sys).dueSince) fun _ _ => rfl).trans ?_
      rw [pair_get_set_same]
    · rw [die_of_dies dies, modDie_die_same, modTone_checks]; rfl
  · have body := (slotEnd_check (s := s.advance t) slot check ended m).trans (if_pos bad)
    refine ⟨_, (run _).trans (congrArg _ body), ?_, ?_, ?_, ?_, otherHeads_of (by simp),
      modTone_otherDies _ _ _ _⟩ <;> simp
  · exact (run _).trans (congrArg _ (slotAbort_check (s := s.advance t) slot check deferred subject_))
  · have dies := endSweep_dies d g w 9 (s.advance t)
    refine ⟨_, (run _).trans (congrArg _ (sweepTimeout_partial (s := s.advance t) sweep late)), ?_, endSweep_result ..,
      otherHeads_of (by simp), otherDies_of (modTone_otherDies _ d g _) dies⟩
    rw [tone_of_dies dies, modTone_tone]

end Sys2Proof.Machine
end

section
/-! SUPPORT. Invalid runs, gaps and leakage of the receive input (R41, R53, R113, R114). Settles O6. -/
namespace Sys2Proof.Machine

theorem modFltSlice_modFltSlice (h : HeadId) (x : Sys) (f g : FltSlice → FltSlice) (s : State) :
    (s.modFltSlice h x f).modFltSlice h x g = s.modFltSlice h x (fun v => g (f v)) := by
  refine (modHead_modHead s h _ _).trans (modHead_congr _ _ _ _ ?_)
  cases x <;> rfl

@[simp] theorem bit_sliceFlag (n : Nat) (x : Sys) (small : n < 31) : bit (sliceFlag n x) (n + x.idx) = true :=
  bit_bits_one (by cases x <;> simp [Sys.idx] <;> omega)

/-- What a slice's settling is judged by does not include its invalid run. -/
theorem settled_inv (s : State) (h : HeadId) (x : Sys) (r : Option InvRun) :
    settled (s.modFltSlice h x (fun f => { f with inv := r })) h x = settled s h x := by
  have target : targetOf (s.modFltSlice h x (fun f => { f with inv := r })) h x = targetOf s h x := by
    simp only [targetOf, State.firOf, State.freqOf, modFltSlice_head_same, pair_get_mod_same]
  simp only [settled, target, modFltSlice_head_same, pair_get_mod_same]

/-- A gap that began within 8.000 us, has ended, or is unbridged already, stays as it is (R113). -/
theorem unbridge_not_yet {h : HeadId} {x : Sys} {s : State} {g : Gap} (gap : ((s.head h).flt.slice.get x).gap = some g)
    (short : s.now ≤ g.start + 8000000) : unbridge h x s = s := by
  have short : ¬ g.start + us 8 < s.now := Nat.not_lt.mpr short
  simp [unbridge, gap, short]

/-- A first invalid run of a slice without a gap begins both (R41, R113). -/
theorem invalidStart_first {h : HeadId} {x : Sys} {s : State} {ovr cm : Bool} (run : inRun s h = true)
    (used : inUse s h x = true) (cond : ovr = true ∨ cm = true) (noInv : ((s.head h).flt.slice.get x).inv = none)
    (noGap : ((s.head h).flt.slice.get x).gap = none) :
    invalidStart h x ovr cm s = s.modFltSlice h x (fun f => { f with
      inv := some { start := s.now, ovr := ovr, cm := cm, ovrNow := ovr, cmNow := cm, long := false }
      gap := some { start := s.now, stop := none, unbridged := false, settled := settled s h x } }) := by
  have alarm : (ovr || cm) = true := by simpa using cond
  have opened : ((s.modFltSlice h x (fun f => { f with
      inv := some { start := s.now, ovr := ovr, cm := cm, ovrNow := ovr, cmNow := cm, long := false } })).modFltSlice h x
        (openGap s.now (settled s h x))) = s.modFltSlice h x (fun f => { f with
      inv := some { start := s.now, ovr := ovr, cm := cm, ovrNow := ovr, cmNow := cm, long := false }
      gap := some { start := s.now, stop := none, unbridged := false, settled := settled s h x } }) := by
    rw [modFltSlice_modFltSlice]
    refine modHead_congr _ _ _ _ ?_
    simp only [Pair.mod, openGap, noGap]
  simp only [invalidStart, run, used, alarm, noInv, beginGap, settled_inv, opened, Bool.and_self, Bool.not_true,
    Bool.false_eq_true, if_false]
  simp only [modFltSlice_head_same, pair_get_mod_same, Bool.false_and, Bool.false_eq_true, if_false]
  refine unbridge_not_yet (g := { start := s.now, stop := none, unbridged := false, settled := settled s h x }) (by simp) ?_
  simp

section
variable {h : HeadId} {x : Sys} {s : State}

/-- At 10 us the run is long: it keeps every condition it has seen, and sets their flags (R41). -/
theorem invalidLong_flags {r : InvRun} (run : ((s.head h).flt.slice.get x).inv = some r) (short : r.long = false)
    (late : r.start + 10000000 ≤ s.now) (ovr cm : Bool) :
    invalidLong h x ovr cm s = faultNotice h (flagHead .fe h (invFlags x (r.ovr || ovr) (r.cm || cm))
      (s.modFltSlice h x (fun f => { f with inv := some { r with
        ovr := r.ovr || ovr, cm := r.cm || cm, ovrNow := ovr, cmNow := cm, long := true } }))) := by
  have late : r.start + us 10 ≤ s.now := late
  simp [invalidLong, run, short, late]

theorem bit_invFlags (ovr cm : Bool) : (ovr = true → bit (invFlags x ovr cm) (2 + x.idx) = true) ∧
    (cm = true → bit (invFlags x ovr cm) (4 + x.idx) = true) := by
  constructor <;> rintro rfl <;> simp [invFlags]

@[simp] theorem flagHead_fe_fault (w : Word) :
    ((flagHead .fe h w s).head h).fe.fault = (s.head h).fe.fault ||| w := by
  simp [flagHead_head, setHeadFault, headFault]
@[simp] theorem flagHead_flt_fault (w : Word) :
    ((flagHead .flt h w s).head h).flt.fault = (s.head h).flt.fault ||| w := by
  simp [flagHead_head, setHeadFault, headFault]
@[simp] theorem flagHead_fe_slices (w : Word) : ((flagHead .fe h w s).head h).flt.slice = (s.head h).flt.slice := by
  simp [flagHead_head, setHeadFault]
@[simp] theorem flagHead_flt_slices (w : Word) : ((flagHead .flt h w s).head h).flt.slice = (s.head h).flt.slice := by
  simp [flagHead_head, setHeadFault]

/-- A gap longer than 8.000 us is unbridged: the slice's counter is held, and the head's transit logic waits (R113). -/
theorem unbridge_long {g : Gap} (gap : ((s.head h).flt.slice.get x).gap = some g) (fresh : g.unbridged = false)
    (running : g.stop = none) (long : g.start + 8000000 < s.now) :
    ((unbridge h x s).head h).flt.slice.get x = { (s.head h).flt.slice.get x with
        gap := some { g with unbridged := true }, settleHeld := true, settleCount := 0 } ∧
      bit ((unbridge h x s).head h).flt.fault (2 + x.idx) = true ∧ ((unbridge h x s).head h).trn.st = .wait := by
  have long : g.start + us 8 < s.now := long
  have noticed : ∀ (b : Bool) (u : State), (if b = true then faultNotice h u else u).head h = u.head h := fun b u => by
    split <;> simp
  simp only [unbridge, gap, fresh, running, long, Bool.not_false, Option.isNone_none, decide_true, Bool.and_self, if_true,
    noticed, abortHead_st, abortHead_flt, holdSettle, modFltSlice_head_same, pair_get_mod_same, flagHead_flt_slices,
    flagHead_flt_fault, bit_or, bit_sliceFlag 2 x (by decide), Bool.or_true, and_self]

/-- A gap that ends within 8.000 us is bridged and counted (R114). -/
theorem endGap_bridges {g : Gap} (gap : ((s.head h).flt.slice.get x).gap = some g) (fresh : g.unbridged = false)
    (running : g.stop = none) (short : s.now ≤ g.start + 8000000) :
    endGap h x s = flagHead .flt h (sliceFlag 0 x) (s.modFltSlice h x (fun f => { f with
      gap := some { g with stop := some s.now }, gapLast := satNat 8 ((s.now - g.start) / 100000)
      bridgeSpans := (g.start, s.now) :: f.bridgeSpans, gapBridged := (f.gapBridged + 1) % 65536 })) := by
  simp only [endGap, unbridge_not_yet gap short, gap, running, fresh, Option.isSome_none, Bool.false_eq_true, if_false,
    modFltSlice_modFltSlice, modFltSlice_now]

theorem invalidEnd_bridges {g : Gap} {r : InvRun} (gap : ((s.head h).flt.slice.get x).gap = some g)
    (fresh : g.unbridged = false) (running : g.stop = none) (short : s.now ≤ g.start + 8000000)
    (inv : ((s.head h).flt.slice.get x).inv = some r) (noMark : ((s.head h).flt.slice.get x).mark = none) :
    invalidEnd h x s = flagHead .flt h (sliceFlag 0 x) (s.modFltSlice h x (fun f => { f with
      inv := none, gap := some { g with stop := some s.now }, gapLast := satNat 8 ((s.now - g.start) / 100000)
      bridgeSpans := (g.start, s.now) :: f.bridgeSpans, gapBridged := (f.gapBridged + 1) % 65536 })) := by
  have kept : ((s.modFltSlice h x (fun f => { f with inv := none })).head h).flt.slice.get x =
      { (s.head h).flt.slice.get x with inv := none } := by simp
  simp only [invalidEnd, inv, Option.isSome_some, if_true, noMark, Option.isSome_none, Bool.false_eq_true, if_false]
  rw [endGap_bridges (s := s.modFltSlice h x (fun f => { f with inv := none })) (by rw [kept]; exact gap) fresh running
    short, modFltSlice_modFltSlice]
  rfl

theorem gapBridged_ends {g : Gap} (gap : ((s.head h).flt.slice.get x).gap = some g) (fresh : g.unbridged = false)
    (running : g.stop = none) (short : s.now ≤ g.start + 8000000) : gapBridged h x s = invalidEnd h x s := by
  have short : s.now ≤ g.start + us 8 := short
  simp [gapBridged, gap, fresh, running, short]

theorem leakTimer_faults {t : Nat} (since : (s.head h).fe.leakSince = some t) (late : t + 200000000000 ≤ s.now)
    (fresh : (s.head h).fe.leakFault = false) :
    leakTimer h s = faultNotice h (flagFe h 6 (s.modFe h (fun b => { b with leakFault := true }))) := by
  have late : t + ms 200 ≤ s.now := late
  simp [leakTimer, since, late, fresh]

end

/-- Settles O6, clause by clause. -/
theorem invalidRunsGapsAndLeakage : Obligations.Invalid_runs_gaps_and_leakage := by
  unfold Obligations.Invalid_runs_gaps_and_leakage
  intro t s h x up
  have run : ∀ f, (Host.Outcome.next (whenAwake f (s.advance t)) : Host.Outcome State Fault Refusal) =
      .next (f (s.advance t)) := fun f => congrArg Host.Outcome.next (whenAwake_advance up)
  refine ⟨fun ovr cm inRun_ used cond noInv noGap => ?_, fun ovr cm r inv short late => ?_,
    fun g gap fresh running long => ?_, fun g r gap fresh running short inv noMark => ?_, fun t0 since late fresh => ?_⟩
  · exact (run _).trans (congrArg _ (invalidStart_first (s := s.advance t) inRun_ used cond noInv noGap))
  · obtain ⟨ovrBit, cmBit⟩ := bit_invFlags (x := x) (r.ovr || ovr) (r.cm || cm)
    refine ⟨_, (run _).trans (congrArg _ (invalidLong_flags (s := s.advance t) inv short late ovr cm)), ?_, fun o => ?_,
      fun c => ?_, otherHeads_of (by simp)⟩
    · simp only [faultNotice_head, flagHead_fe_slices, modFltSlice_head_same, pair_get_mod_same]
    · simp only [faultNotice_head, flagHead_fe_fault, bit_or, ovrBit o, Bool.or_true]
    · simp only [faultNotice_head, flagHead_fe_fault, bit_or, cmBit c, Bool.or_true]
  · obtain ⟨slice_, flag, wait⟩ := unbridge_long (s := s.advance t) gap fresh running long
    exact ⟨_, run _, by rw [slice_], by rw [slice_], by rw [slice_], flag, wait, otherHeads_of (by simp)⟩
  · have ended := invalidEnd_bridges (s := s.advance t) gap fresh running short inv noMark
    constructor
    · refine ⟨_, (run _).trans (congrArg _ ((gapBridged_ends (s := s.advance t) gap fresh running short).trans ended)),
        ?_, ?_, ?_, ?_, otherHeads_of (by simp)⟩
      · simp
      · simp
      · simp
      · have b := bit_sliceFlag 0 x (by decide)
        rw [Nat.zero_add] at b
        rw [flagHead_flt_fault, bit_or, b, Bool.or_true]
    · refine ⟨_, (run _).trans (congrArg _ ended), ?_, ?_, otherHeads_of (by simp)⟩
      · simp
      · simp
  · refine ⟨_, (run _).trans (congrArg _ (leakTimer_faults (s := s.advance t) since late fresh)), ?_, ?_,
      otherHeads_of (by simp)⟩
    · simp
    · simp [bit_bits_one]

end Sys2Proof.Machine
end

section
/-! SUPPORT. The station frequency plan, carrier requests and the regulator (R67 to R83). Settles O7, O8. -/
namespace Sys2Proof.Machine

theorem modXs_modXs (h : HeadId) (f g : XsHead → XsHead) (s : State) :
    (s.modXs h f).modXs h g = s.modXs h (fun b => g (f b)) := modHead_modHead s h _ _

/-! ### Plan requests (R75, R77, R83) -/

theorem xsRefuse_some (h : HeadId) (seq : Nat) (st : Status) (code : Nat) (s : State) :
    xsRefuse h (some seq) st code s =
      complete seq st code [] (s.modXs h (fun b => { b with planResult := code })) := rfl

section
variable {h : HeadId} {f : XsHead → XsHead} {seq : Nat} {s : State}
theorem headPlan_ok (ok : planBreach (s.modXs h f) h = 0) :
    headPlan h f (some seq) s = complete seq .ok 0 [] (s.modXs h (fun b => { f b with planResult := 0 })) := by
  simp [headPlan, ok, completeJob]
theorem headPlan_breach (bad : planBreach (s.modXs h f) h ≠ 0) :
    headPlan h f (some seq) s = complete seq .conflict (planBreach (s.modXs h f) h) []
      (s.modXs h (fun b => { b with planResult := planBreach (s.modXs h f) h })) := by
  simp [headPlan, bad, xsRefuse_some]
end

section
variable {f : Dev → Dev} {seq : Nat} {s : State}
theorem devPlan_ok (ok : planFirst { s with dev := f s.dev } = none) :
    devPlan f (some seq) s = complete seq .ok 0 []
      { s with dev := { f s.dev with planStat := setFld (f s.dev).planStat 0 4 0 } } := by
  simp [devPlan, ok, completeJob]
theorem devPlan_breach {h : HeadId} {code : Nat} (bad : planFirst { s with dev := f s.dev } = some (h, code)) :
    devPlan f (some seq) s = complete seq .conflict code []
      { s with dev := { s.dev with planStat := put 16 8 h.val ||| put 0 4 code } } := by
  simp [devPlan, bad, completeJob]
end

section
variable {p : List Byte} {seq : Nat} {s : State}
theorem xsAdjSet_named {h : HeadId} (ha : headArg p 0 = some h) : xsAdjSet p seq s =
    headPlan h (fun b => { b with adj := tabulate 4 (fun k => wordArg p (2 + 4 * k) &&& adjMask) }) (some seq) s := by
  simp [xsAdjSet, ha]
theorem xsBandsSet_named {h : HeadId} (ha : headArg p 0 = some h) : xsBandsSet p seq s =
    headPlan h (fun b => { b with bands := put 0 8 (field p 2 1) }) (some seq) s := by
  simp [xsBandsSet, ha]
theorem xsUbandSet_ordered (k : field p 0 1 < 16) (order : fld (wordArg p 4) 0 13 ≤ fld (wordArg p 4) 16 13) :
    xsUbandSet p seq s = devPlan (fun d =>
      { d with uband := tset d.uband (Fin.ofNat 16 (field p 0 1)) (wordArg p 4 &&& ubandMask) }) (some seq) s := by
  rw [xsUbandSet, if_pos k, ubandRequest, if_neg (Nat.not_lt.mpr order)]
end

section
variable (s : State) (t : Nat) (e : InFlight) (ob : Vector Orbit 16) (ir : Irq) (ou : List Out)
/-- The plan is that of the heads and the device: an admission does not touch it. -/
theorem planBreach_admitted (h g : HeadId) (f : XsHead → XsHead) :
    planBreach ((s.admitted t e ob ir ou).modXs h f) g = planBreach (s.modXs h f) g := rfl
theorem planFirst_admitted (d : Dev) :
    planFirst { s.admitted t e ob ir ou with dev := d } = planFirst { s with dev := d } := rfl
theorem xsTest_admitted (h : HeadId) (r : XsReq) : xsTest h r (s.admitted t e ob ir ou) = xsTest h r s := rfl
end

/-! ### XS_SET (R79, R83) -/

theorem slices_both {m : Nat} (both : m % 4 = 3) : slices m = [.sys1, .sys2] := by
  have b0 : m.testBit 0 = true := by simp [Nat.testBit]; omega
  have b1 : m.testBit 1 = true := by simp [Nat.testBit, Nat.shiftRight_eq_div_pow]; omega
  simp [slices, b0, b1]

/-- What an XS_SET of both slices asks for. -/
def xsReqOf (p : List Byte) : XsReq :=
  { freq := ⟨field p 4 4, field p 8 4⟩, amp := ⟨field p 12 2, field p 14 2⟩, phase := ⟨field p 16 2, field p 18 2⟩,
    ilim := ⟨field p 20 1, field p 21 1⟩, tau := field p 22 1 }

theorem xsSet_admits {p : List Byte} {seq : Nat} {s : State} {h : HeadId} (ha : headArg p 0 = some h)
    (both : field p 2 1 % 4 = 3) (ok : xsTest h (xsReqOf p) s = none) :
    xsSet p seq s = xsAdmit h (xsReqOf p) (some seq) s := by
  simp only [xsReqOf] at ok
  simp [xsSet, ha, maskArg, slices_both both, ok, xsReqOf]

/-- An admitted request leaves its values in the carrier words of the head: nothing else that it brings about touches the
set-up words. -/
theorem xsAdmit_words (h : HeadId) (r : XsReq) (job : Option Nat) (s : State) :
    ((xsAdmit h r job s).head h).xs.freq = (xsStore r (s.head h).xs).freq ∧
    ((xsAdmit h r job s).head h).xs.amp = (xsStore r (s.head h).xs).amp ∧
    ((xsAdmit h r job s).head h).xs.phase = (xsStore r (s.head h).xs).phase ∧
    ((xsAdmit h r job s).head h).xs.ilim = (xsStore r (s.head h).xs).ilim ∧
    ((xsAdmit h r job s).head h).xs.reg = (xsStore r (s.head h).xs).reg := by
  have stored : ((xsAdmit h r job s).head h).setUp.xs = (({ s.head h with xs := xsStore r (s.head h).xs } : Head)).setUp.xs := by
    have own : (Rest.ofHead h).own h := rfl
    have brought : (Rest.ofHead h).view (xsAdmit h r job s) = (Rest.ofHead h).view (s.modXs h (xsStore r)) := by
      have split_ : s.modXs h (fun b => { xsStore r b with planResult := 0 }) =
          (s.modXs h (xsStore r)).modXs h (fun b => { b with planResult := 0 }) := by rw [modXs_modXs]
      simp [xsAdmit, admitChange, split_, own]
    have words := congrArg (fun v => v.2.2.xs) brought
    simpa only [Rest.ofHead, modXs_head_same] using words
  simp only [Head.setUp, XsHead.mk.injEq] at stored
  obtain ⟨freq, amp, ilim, phase, reg, -⟩ := stored
  exact ⟨freq, amp, phase, ilim, reg⟩

/-! ### XS_LISTEN_RESET (R83) -/

/-- TRIM of a slice in LISTEN goes to 0, and acquisition starts anew. -/
def listenAnew (h : HeadId) (x : Sys) (s : State) : State :=
  if ((s.head h).xs.slice.get x).reg == .listen then
    anchorSlice h x ((loseLock h x s).modXsSlice h x (fun v => { v with trim := 0 }))
  else s

theorem xsListenReset_eq {p : List Byte} {seq : Nat} {s : State} {h : HeadId} (ha : headArg p 0 = some h)
    (hu : headUp s h = true) :
    xsListenReset p seq s = complete seq .ok 0 [] (foldOver (slices (field p 2 1)) (listenAnew h) s) := by
  rw [xsListenReset, withHead_named ha hu]
  rfl

section
variable (h : HeadId) (x y : Sys) (s : State)
@[simp] theorem flagHead_slices (r : HeadReg) (w : Word) :
    ((flagHead r h w s).head h).xs.slice = (s.head h).xs.slice := by
  rw [flagHead_head]
  cases r <;> simp [setHeadFault]

theorem loseLock_slices : ((loseLock h x s).head h).xs.slice =
    (s.head h).xs.slice.mod x (fun v => { v with locked := false, lockRun := 0 }) := by
  simp only [loseLock]
  split <;> simp

theorem loseLock_hp : (loseLock h x s).hp = s.hp := by
  simp only [loseLock]
  split <;> simp

theorem listenAnew_hp : (listenAnew h x s).hp = s.hp := by
  unfold listenAnew
  split
  · simp [anchorSlice, loseLock_hp]
  · rfl

/-- A slice in LISTEN that is reset listens on, without trim or lock. -/
theorem listenAnew_same (listens : ((s.head h).xs.slice.get x).reg = .listen) :
    let v := ((listenAnew h x s).head h).xs.slice.get x
    v.trim = 0 ∧ v.locked = false ∧ v.lockRun = 0 ∧ v.reg = .listen := by
  simp [listenAnew, listens, anchorSlice, loseLock_slices, XsSlice.anchor]

theorem listenAnew_other (other : x ≠ y) :
    ((listenAnew h y s).head h).xs.slice.get x = (s.head h).xs.slice.get x := by
  unfold listenAnew
  split
  · simp [anchorSlice, loseLock_slices, pair_get_mod, other]
  · rfl
end

theorem listenReset_slice {h : HeadId} {x : Sys} {m : Nat} (named : x ∈ slices m) (s : State)
    (listens : ((s.head h).xs.slice.get x).reg = .listen) :
    let v := ((foldOver (slices m) (listenAnew h) s).head h).xs.slice.get x
    v.trim = 0 ∧ v.locked = false ∧ v.lockRun = 0 ∧ v.reg = .listen := by
  cases x
  case sys1 =>
    have first : m.testBit 0 = true := by simpa [slices] using named
    have reset := listenAnew_same h .sys1 s listens
    cases second : m.testBit 1 <;>
      simpa [foldOver_slices, first, second, listenAnew_other h .sys1 .sys2 _ (by decide)] using reset
  case sys2 =>
    have second : m.testBit 1 = true := by simpa [slices] using named
    simp only [foldOver_slices, second, if_true]
    refine listenAnew_same h .sys2 _ ?_
    split
    · rw [listenAnew_other h .sys2 .sys1 _ (by decide)]; exact listens
    · exact listens

theorem put_within {n v : Nat} (fits : v < 2 ^ n) : put 0 n v = word v := by
  simp [put, word, Nat.mod_eq_of_lt fits]

/-- Settles O7, command by command. -/
theorem frequencyPlanCommands : Obligations.Frequency_plan_commands := by
  unfold Obligations.Frequency_plan_commands
  intro t c s
  refine ⟨fun h ha A => ⟨fun ok => ?_, fun bad => ?_⟩, fun h ha A ok => ?_, fun A k order ok => ?_,
    fun A => ⟨fun ok => ?_, fun h code bad => ?_⟩, fun h ha A both f1 f2 a1 a2 ok => ?_, fun h x ha hu A named listens => ?_⟩
  · exact answers_of A rfl fun e ob ir ou => ⟨_, (xsAdjSet_named ha).trans
      (headPlan_ok ((planBreach_admitted ..).trans ok)), rfl, rfl⟩
  · exact answers_of A rfl fun e ob ir ou => ⟨_, (xsAdjSet_named ha).trans
      (headPlan_breach fun no => bad ((planBreach_admitted ..).symm.trans no)), rfl, rfl⟩
  · exact answers_of A rfl fun e ob ir ou => ⟨_, (xsBandsSet_named ha).trans
      (headPlan_ok ((planBreach_admitted ..).trans ok)), rfl, rfl⟩
  · exact answers_of A rfl fun e ob ir ou => ⟨_, (xsUbandSet_ordered k order).trans
      (devPlan_ok ((planFirst_admitted ..).trans ok)), rfl, rfl⟩
  · exact answers_of A rfl fun e ob ir ou => ⟨_, devPlan_ok ((planFirst_admitted ..).trans ok), rfl, rfl⟩
  · exact answers_of A rfl fun e ob ir ou => ⟨_, devPlan_breach ((planFirst_admitted ..).trans bad), rfl, rfl⟩
  · obtain ⟨e, ob, ir, ou, -, run⟩ := command_runs 0x0220 (xsSet c.payload) A
    obtain ⟨freq, amp, phase, ilim, reg⟩ := xsAdmit_words h (xsReqOf c.payload) (some s.hp.admSeq) (s.admitted t e ob ir ou)
    rw [xsSet_admits ha both ((xsTest_admitted ..).trans ok)] at run
    refine ⟨_, congrArg Host.Outcome.next run, freq.trans ?_, amp, phase, ilim, reg, otherHeads_of ?_⟩
    · simp only [xsStore, Pair.both, xsReqOf, put_within (n := 17) f1, put_within (n := 17) f2]
    · simp [xsAdmit, admitChange]
  · obtain ⟨e, ob, ir, ou, ad, run⟩ := command_runs 0x0225 (xsListenReset c.payload) A
    have hu' : headUp (s.admitted t e ob ir ou) h = true := hu
    rw [xsListenReset_eq ha hu'] at run
    obtain ⟨trim, locked, lockRun, reg⟩ := listenReset_slice named (s.admitted t e ob ir ou) listens
    exact ⟨_, congrArg Host.Outcome.next run, ad.congr (foldOver_keeps (listenAnew_hp h) _), trim, locked, lockRun, reg,
      otherHeads_of (by simp [listenAnew])⟩

end Sys2Proof.Machine
end

section
/-! SUPPORT. The regulator of a slice (R67 to R81): what its events do to the slice. Settles O8. -/
namespace Sys2Proof.Machine

@[simp] theorem flagHead_xs_fault (h : HeadId) (w : Word) (s : State) :
    ((flagHead .xs h w s).head h).xs.fault = (s.head h).xs.fault ||| w := by
  rw [flagHead_head]
  unfold Head.spoil
  split <;> rfl

/-! ### What completes with a slice's regulation -/

/-- A view of a head that shows none of what a request or a carrier change can change when it completes. -/
structure Steady {β : Type} (V : Head → β) : Prop extends Quiet V where
  fe : ∀ (x : Head) (b : FeHead), V { x with fe := b } = V x
  plan : ∀ (x : Head) (p n : Nat) (c : Option CarrierChange), V { x with xs := { x.xs with planResult := p, chgSeq := n, chg := c } } = V x
  therm : ∀ (x : Head) (b : Bool), V { x with xs := { x.xs with thermHeld := b } } = V x
  done_ : ∀ (x : Head), V { x with xs := { x.xs with fault := x.xs.fault ||| bits 7 1 } } = V x

section
variable {β : Type} {V : Head → β} (steady : Steady V) (h : HeadId) (x : Sys) (s : State)
include steady
theorem completeRoute_hidden : V ((completeRoute h s).head h) = V (s.head h) := by
  have fe : ∀ (f : FeHead → FeHead) (u : State), V ((u.modFe h f).head h) = V (u.head h) := fun f u => by
    rw [modFe_head_same]; exact steady.fe ..
  simp only [completeRoute, closeWindow_hidden steady.toQuiet, restartHead_hidden steady.flt _ _ steady.trn,
    completeJob_head, flagFe, flagFeHead_hidden steady.toQuiet, fe]
theorem completeChange_hidden : V ((completeChange h s).head h) = V (s.head h) := by
  have flagged : ∀ u : State, V ((flagXs h 7 u).head h) = V (u.head h) := fun u => by
    rw [flagXs_head]
    unfold Head.spoil
    split
    · exact (steady.spoil ..).trans (steady.done_ ..)
    · exact steady.done_ ..
  have plan : ∀ u : State, V ((u.modXs h (fun b => { b with
      chg := none, planResult := 0, chgSeq := (b.chgSeq + 1) % 256 })).head h) = V (u.head h) := fun u => by
    rw [modXs_head_same]; exact steady.plan ..
  have counters : ∀ (c : CarrierChange) (l : List Sys) (u : State),
      V ((foldOver l (fun y s => if c.mask.get y then restartSettle h y s else releaseSettle h y s) u).head h) =
        V (u.head h) := fun c l u => foldOver_keeps (g := fun u => V (u.head h)) (fun y u => by
      simp only [head_ite (V := V), restartSettle_hidden steady.flt, releaseSettle_hidden steady.flt, ite_self]) u
  unfold completeChange
  split
  · rfl
  · simp only [closeWindow_hidden steady.toQuiet, counters, realign_hidden steady.flt _ _ steady.trn, completeJob_head,
      flagged, plan]
theorem afterRegulated_hidden : V ((afterRegulated h x s).head h) = V (s.head h) := by
  unfold afterRegulated
  extract_lets u v all w
  have counted : V (u.head h) = V (s.head h) := by
    simp only [u, modXs_head_same]; exact steady.plan ..
  have changed : V (v.head h) = V (u.head h) := by
    simp only [v]
    split
    · exact ite_proj (fun u => V (u.head h)) rfl (completeChange_hidden steady ..)
    · rfl
  have cool : V ((v.modXs h (fun b => { b with thermHeld := false })).head h) = V (v.head h) := by
    rw [modXs_head_same]; exact steady.therm ..
  have released : V (w.head h) = V (v.head h) := ite_proj (fun u => V (u.head h))
    ((releaseSettle_hidden steady.flt ..).trans ((releaseSettle_hidden steady.flt ..).trans cool)) rfl
  have completed := completeRoute_hidden steady h w
  exact (ite_proj (fun u => V (u.head h)) completed rfl).trans (released.trans (changed.trans counted))
end

/-- The regulators of both slices, with their synthesisers. -/
theorem slices_steady : Steady (fun x : Head => x.xs.slice) where
  flt _ _ := rfl
  trn _ _ := rfl
  flag _ _ := rfl
  spoil _ _ := rfl
  imp _ _ := rfl
  window _ _ := rfl
  fe _ _ := rfl
  plan _ _ _ _ := rfl
  therm _ _ := rfl
  done_ _ := rfl

/-- The regulation fault of a slice stands through what completes (R70). -/
theorem regFault_steady (y : Sys) : Steady (fun x : Head => bit x.xs.fault y.idx) where
  flt _ _ := rfl
  trn _ _ := rfl
  flag _ _ := rfl
  spoil _ _ := rfl
  imp _ _ := rfl
  window _ _ := rfl
  fe _ _ := rfl
  plan _ _ _ _ := rfl
  therm _ _ := rfl
  done_ x := by
    have apart : bit (bits 7 1) y.idx = false := by cases y <;> decide
    simp [apart]

/-! ### The events (R70, R72, R79) -/

@[simp] theorem setLatches_dies (h : HeadId) (s : State) : (setLatches h s).dies = s.dies :=
  foldOver_keeps (g := State.dies) (fun _ _ => by rfl) s
theorem withLines_dies (h : HeadId) (f : State → State) (s : State) : (withLines h f s).dies = (f s).dies := by
  simp only [withLines, apply_ite State.dies, setLatches_dies, modCmpSlice_dies, ite_self]

section
variable {h : HeadId} {x : Sys} {s : State}

theorem acquireDone_settles (acquires : ((s.head h).xs.slice.get x).reg = .acquire) :
    (((acquireDone h x s).head h).xs.slice.get x).reg = if holdCond s h then .hold else .track := by
  have kept := fun u => afterRegulated_hidden slices_steady h x u
  simp [acquireDone, acquires, kept, slowLoop]

/-- ACQUIRE that lasts 100 us is a regulation fault, and regulation goes on (R72). -/
theorem acquireTimeout_faults (acquires : ((s.head h).xs.slice.get x).reg = .acquire)
    (late : ((s.head h).xs.slice.get x).since + 100000000 ≤ s.now) :
    (((acquireTimeout h x s).head h).xs.slice.get x).reg = (if holdCond s h then .hold else .track) ∧
      bit ((acquireTimeout h x s).head h).xs.fault x.idx = true := by
  have late : ((s.head h).xs.slice.get x).since + us 100 ≤ s.now := late
  have slices_ := fun u => afterRegulated_hidden slices_steady h x u
  have fault := fun u => afterRegulated_hidden (regFault_steady x) h x u
  have flag : bit (sliceFlag 0 x) x.idx = true := by simpa using bit_sliceFlag 0 x (by decide)
  constructor
  · simp [acquireTimeout, acquires, late, slices_, slowLoop]
  · simp [acquireTimeout, acquires, late, fault, flag]

theorem lowerEnvbw_xs : ((lowerEnvbw h x s).head h).xs = (s.head h).xs := by
  unfold lowerEnvbw; split <;> simp
theorem bankFollow_xs : ((bankFollow h x s).head h).xs = (s.head h).xs := by
  have flagged : ∀ w u, ((flagHead .flt h w u).head h).xs = (u.head h).xs := fun w u => by
    rw [flagHead_head, spoil_flt]; rfl
  simp only [bankFollow]
  repeat' split
  all_goals simp [flagged]
theorem dropNotches_xs : ((dropNotches h x s).head h).xs = (s.head h).xs := by
  simp only [dropNotches]; split <;> simp

/-- The carrier of a slice that drives is retuned at its switch point: the accumulator goes on from where it stands, with
the increment of the new carrier (R68, R79). -/
theorem carrierSwitch_retunes {c : CarrierChange} (chg : (s.head h).xs.chg = some c) (pending : c.toSwitch.get x = true)
    (live : ((s.head h).xs.slice.get x).reg = .track ∨ ((s.head h).xs.slice.get x).reg = .hold) :
    let v := ((carrierSwitch h x s).head h).xs.slice.get x
    v.reg = .acquire ∧ v.freq = fld ((s.head h).xs.freq.get x) 0 17 ∧
      v.syn.acc = ((s.head h).xs.slice.get x).syn.at (xclkTicks s) ∧
      v.syn.inc = synInc (fld ((s.head h).xs.freq.get x) 0 17) ((s.head h).xs.slice.get x).trim := by
  have tuned : ((retune h x s).head h).xs.slice.get x = XsSlice.anchor (xclkTicks s)
      { (s.head h).xs.slice.get x with
        freq := fld ((s.head h).xs.freq.get x) 0 17, amp := max 10 (fld (s.head h).xs.amp (16 * x.idx) 11),
        phase := fld (s.head h).xs.phase (16 * x.idx) 16 } := by
    simp only [retune, lowerEnvbw_xs, dropNotches_xs, bankFollow_xs, modXsSlice_head_same, pair_get_mod_same]
  have marked : ∀ f : Option CarrierChange → Option CarrierChange,
      (((retune h x s).modXs h (fun b => { b with chg := f b.chg })).head h).xs.slice.get x =
        ((retune h x s).head h).xs.slice.get x := fun f => by rw [modXs_head_same]
  have reg : (((retune h x s).head h).xs.slice.get x).reg = ((s.head h).xs.slice.get x).reg := by
    rw [tuned]; simp [XsSlice.anchor]
  have switched : ((carrierSwitch h x s).head h).xs.slice.get x =
      { ((retune h x s).head h).xs.slice.get x with reg := .acquire, since := (retune h x s).now } := by
    simp only [carrierSwitch, chg, pending, if_true, withLines_xs, switchPoint, marked, reg]
    rcases live with l | l <;> simp [l]
  rw [switched, tuned]
  exact ⟨rfl, rfl, rfl, rfl⟩

end

/-- Settles O8, event by event. -/
theorem regulatorEvents : Obligations.Regulator_events := by
  unfold Obligations.Regulator_events
  intro t s h x up
  have run : ∀ f, (Host.Outcome.next (whenAwake f (s.advance t)) : Host.Outcome State Fault Refusal) =
      .next (f (s.advance t)) := fun f => congrArg Host.Outcome.next (whenAwake_advance up)
  refine ⟨fun reg => ?_, fun reg => ?_, fun reg late => ?_, fun reg hold => ?_, fun reg free => ?_, fun reg => ?_,
    fun reg => ?_, fun reg => ?_, fun chg some_ pending live => ?_, fun reg match_ enough => ?_⟩
  · refine (run _).trans ?_
    simp [rampUpDone, reg]
  · exact ⟨_, run _, acquireDone_settles (s := s.advance t) reg, otherHeads_of (by simp)⟩
  · obtain ⟨next, fault⟩ := acquireTimeout_faults (s := s.advance t) reg late
    exact ⟨_, run _, fault, next, otherHeads_of (by simp)⟩
  · refine (run _).trans ?_
    simp [holdBegin, reg, hold]
  · refine (run _).trans ?_
    simp [holdEnd, reg, free]
  · refine ⟨_, run _, ?_, otherHeads_of (by simp), ?_⟩
    · simp [rampDownDone, reg]
    · simp [rampDownDone, reg, withLines_dies]
  · have flag : bit (sliceFlag 0 x) x.idx = true := by simpa using bit_sliceFlag 0 x (by decide)
    refine ⟨_, run _, ?_, ?_, otherHeads_of (by simp), ?_⟩ <;> simp [regulationFault, reg, flag, faultNotice]
  · have flag := bit_sliceFlag 2 x (by decide)
    refine ⟨_, run _, ?_, ?_, ?_, otherHeads_of (by simp), ?_⟩ <;> simp [clipFault, reg, regDrives, flag]
  · obtain ⟨reg, freq, acc, inc⟩ := carrierSwitch_retunes (s := s.advance t) some_ pending live
    exact ⟨_, run _, reg, freq, acc, inc, otherHeads_of (by simp)⟩
  · refine (run _).trans ?_
    simp [listenLocked, reg, match_, enough]

end Sys2Proof.Machine
end

section
/-! SUPPORT. Filter changes, bank swaps and cross-fades (R97 to R115). Settles O10. -/
namespace Sys2Proof.Machine

/-! ### What restarting the counters leaves of the filter family -/

/-- What of the filter family does not show what a restart of the settle counters sets. -/
structure Restartable {β : Type} (W : FltHead → β) : Prop where
  delay : ∀ (b : FltHead) (w : Word), W { b with delay := w } = W b
  align : ∀ (b : FltHead) (e : Bool), W { b with alignErr := e } = W b
  fault : ∀ (b : FltHead) (w : Word), W { b with fault := w } = W b
  slice : ∀ (b : FltHead) (x : Sys) (f : FltSlice → FltSlice), (∀ v, (f v).act = v.act ∧ (f v).sample = v.sample) →
    W { b with slice := b.slice.mod x f } = W b

section
variable {β : Type} {W : FltHead → β} (free : Restartable W) (h : HeadId) (x : Sys) (s : State)
include free
theorem holdSettle_flt : W ((holdSettle h x s).head h).flt = W (s.head h).flt := by
  rw [holdSettle, modFltSlice_head_same]
  exact free.slice _ _ _ fun _ => ⟨rfl, rfl⟩
theorem restartSettle_flt : W ((restartSettle h x s).head h).flt = W (s.head h).flt := by
  unfold restartSettle
  split
  · exact holdSettle_flt free ..
  · rw [modFltSlice_head_same]
    exact free.slice _ _ _ fun _ => ⟨rfl, rfl⟩
theorem realign_flt : W ((realign h s).head h).flt = W (s.head h).flt := by
  unfold realign
  extract_lets l1 l2 d n u d' err was v
  have placed : W (u.head h).flt = W (s.head h).flt := by
    simp only [u]
    split
    · rfl
    · rw [modFlt_head_same]; exact free.delay ..
  have judged : W (v.head h).flt = W (u.head h).flt := by
    simp only [v, modFlt_head_same]; exact free.align ..
  split
  · rw [onBoth, holdSettle_flt free, holdSettle_flt free, abortHead_flt, flagFlt_head]
    exact (free.fault ..).trans (judged.trans placed)
  · exact judged.trans placed
theorem restartHead_flt : W ((restartHead h s).head h).flt = W (s.head h).flt := by
  rw [restartHead, onBoth, restartSettle_flt free, restartSettle_flt free, realign_flt free]
end

theorem cfg_restartable : Restartable FltHead.cfg := ⟨fun _ _ => rfl, fun _ _ => rfl, fun _ _ => rfl, fun _ _ _ _ => rfl⟩
theorem seq_restartable : Restartable FltHead.seq := ⟨fun _ _ => rfl, fun _ _ => rfl, fun _ _ => rfl, fun _ _ _ _ => rfl⟩
theorem result_restartable : Restartable FltHead.result :=
  ⟨fun _ _ => rfl, fun _ _ => rfl, fun _ _ => rfl, fun _ _ _ _ => rfl⟩
theorem notch_restartable : Restartable FltHead.notch :=
  ⟨fun _ _ => rfl, fun _ _ => rfl, fun _ _ => rfl, fun _ _ _ _ => rfl⟩
theorem act_restartable (y : Sys) : Restartable (fun b => (b.slice.get y).act) where
  delay _ _ := rfl
  align _ _ := rfl
  fault _ _ := rfl
  slice b x f keep := by cases x <;> cases y <;> first | rfl | exact (keep _).1

section
variable (h : HeadId) (s : State)
/-- A head that waits still waits after a restart, which can only abort. -/
theorem restartHead_waits (waits : (s.head h).trn.st = .wait) : ((restartHead h s).head h).trn.st = .wait := by
  have settle : ∀ y u, ((restartSettle h y u).head h).trn = (u.head h).trn := fun y u =>
    restartSettle_hidden (V := Head.trn) (fun _ _ => rfl) h y u
  rw [restartHead, onBoth, settle, settle]
  unfold realign
  extract_lets l1 l2 d n u d' err was v
  have kept : (v.head h).trn = (s.head h).trn := by
    refine (modFlt_hidden (V := Head.trn) (fun _ _ => rfl) ..).trans ?_
    simp only [u]
    split
    · rfl
    · rw [modFlt_head_same]
  split
  · simp only [onBoth, holdSettle, modFltSlice_head_same, abortHead_st]
  · rw [kept]; exact waits
end

/-! ### Filter changes (R110, R115) -/

theorem fltRefuse_some (h : HeadId) (seq : Nat) (st : Status) (code : Nat) (s : State) :
    fltRefuse h (some seq) st code s =
      complete seq st code [] (s.modFlt h (fun f => { f with result := code })) := rfl

/-- A filter change puts its values in force with result 0 and the next sequence number; the head waits (R110). -/
theorem filterChange_head (h : HeadId) (f : FltHead → FltHead) (job : Option Nat) (s : State) :
    let u := (filterChange h f job s).head h
    u.flt.cfg = (f (s.head h).flt).cfg ∧ u.flt.notch = (f (s.head h).flt).notch ∧ u.flt.result = 0 ∧
      u.flt.seq = ((s.head h).flt.seq + 1) % 256 ∧ u.trn.st = .wait := by
  have restarted : ∀ {β : Type} {W : FltHead → β}, Restartable W → ∀ u : State,
      W ((restartHead h u).head h).flt = W (u.head h).flt := fun free u => restartHead_flt free h u
  simp only [filterChange, completeJob_head]
  refine ⟨(restarted cfg_restartable _).trans ?_, (restarted notch_restartable _).trans ?_,
    (restarted result_restartable _).trans ?_, (restarted seq_restartable _).trans ?_, restartHead_waits _ _ ?_⟩ <;>
    simp only [modFlt_head_same, abortHead_flt, abortHead_st, changeNotice_head]

/-! ### FLT_SET and FLT_NOTCH_SET (R104, R110, R115) -/

/-- What an FLT_SET asks for. -/
def fltReqOf (p : List Byte) : FltReq :=
  { mask := slices (field p 2 1), med := ⟨field p 3 1 % 4, field p 3 1 / 4 % 4⟩, manual := field p 4 1,
    extra := field p 5 1, delay := ⟨field p 6 2, field p 8 2⟩ }

section
variable {p : List Byte} {seq : Nat} {s : State} {h : HeadId} (ha : headArg p 0 = some h) (hu : headUp s h = true)
include ha hu

theorem fltSet_extra (alone : extraAlone (s.head h).flt (fltReqOf p) = true) :
    fltSet p seq s = complete seq .ok 0 [] (s.modFlt h (fun b =>
      { b with cfg := setFld b.cfg 24 8 (field p 5 1), result := 0 })) := by
  have tested : fltTest h (fltReqOf p) s = none := by rw [fltTest, if_pos alone]
  rw [fltSet, withHead_named ha hu]
  change (match fltTest h (fltReqOf p) s with
    | some (st, code) => fltRefuse h (some seq) st code s
    | none => fltAdmit h (fltReqOf p) (some seq) s) = _
  rw [tested]
  simp only [fltAdmit, alone, if_true]
  rfl

theorem fltSet_changes (ok : fltTest h (fltReqOf p) s = none) (more : extraAlone (s.head h).flt (fltReqOf p) = false) :
    fltSet p seq s = filterChange h (fltStore (fltReqOf p)) (some seq) s := by
  rw [fltSet, withHead_named ha hu]
  change (match fltTest h (fltReqOf p) s with
    | some (st, code) => fltRefuse h (some seq) st code s
    | none => fltAdmit h (fltReqOf p) (some seq) s) = _
  rw [ok]
  simp only [fltAdmit, more, Bool.false_eq_true, if_false]

/-- Sections given one by one for SYS1 that pass their test are put in force (R104). -/
theorem fltNotchSet_changes (listed : field p 3 1 = 0xFF) (one : slices (field p 2 1) = [.sys1])
    (ok : notchRequest h [.sys1] ⟨tabulate 4 (fun k => word (field p (4 + 4 * k) 4)),
      tabulate 4 (fun k => word (field p (20 + 4 * k) 4))⟩ s = none) :
    fltNotchSet p seq s = filterChange h (notchStore [.sys1] ⟨tabulate 4 (fun k => word (field p (4 + 4 * k) 4)),
      tabulate 4 (fun k => word (field p (20 + 4 * k) 4))⟩) (some seq) s := by
  rw [fltNotchSet, withHead_named ha hu]
  simp only [listed, maskArg, one, wordArg, ok, if_true, ne_eq, not_true_eq_false, and_false, if_false]

end

/-! ### FLT_SWAP (R97 to R99) -/

theorem slices_one {m : Nat} (one : m % 4 = 1) : slices m = [.sys1] := by
  have b0 : m.testBit 0 = true := by simp [Nat.testBit]; omega
  have b1 : m.testBit 1 = false := by simp [Nat.testBit, Nat.shiftRight_eq_div_pow]; omega
  simp [slices, b0, b1]

/-- What an FLT_SWAP of SYS1 asks for. -/
def swapOne (p : List Byte) (seq : Nat) : Swap :=
  { one := some (BitVec.ofNat 8 (field p 3 1)), two := none, fade := field p 6 2, job := some seq }

section
variable {p : List Byte} {seq : Nat} {s : State} {h : HeadId} (ha : headArg p 0 = some h) (hu : headUp s h = true)
  (one : field p 2 1 % 4 = 1)
include ha hu one

theorem fltSwap_one : fltSwap p seq s =
    match swapTest h (swapOne p seq) s with
    | some (st, code) => fltRefuse h (some seq) st code s
    | none => admitSwap h (swapOne p seq) s := by
  rw [fltSwap, withHead_named ha hu]
  simp only [maskArg, slices_one one]
  rfl

theorem fltSwap_fails {st : Status} {code : Nat} (bad : swapTest h (swapOne p seq) s = some (st, code)) :
    fltSwap p seq s = complete seq st code [] (s.modFlt h (fun b => { b with result := code })) := by
  rw [fltSwap_one ha hu one, bad]
  rfl

theorem fltSwap_starts (ok : swapTest h (swapOne p seq) s = none) (idle : (s.head h).flt.fading = none) :
    fltSwap p seq s = startSwap h (swapOne p seq) s := by
  rw [fltSwap_one ha hu one, ok]
  simp [admitSwap, idle]

end

section
variable {h : HeadId} {s : State} {c : Byte} {fade : Nat} {job : Option Nat}

/-- A timing swap of SYS1 applies at once (R99). -/
theorem startSwap_timing (timing : neutral s h (.sys1, c) = false) :
    let u := (startSwap h { one := some c, two := none, fade := fade, job := job } s).head h
    u.flt.slice.one.act = c ∧ u.flt.slice.two.act = (s.head h).flt.slice.two.act ∧
      u.flt.seq = ((s.head h).flt.seq + 1) % 256 := by
  have restarted : ∀ {β : Type} {W : FltHead → β}, Restartable W → ∀ u : State,
      W ((restartHead h u).head h).flt = W (u.head h).flt := fun free u => restartHead_flt free h u
  have actOne := fun u => restarted (act_restartable .sys1) u
  have actTwo := fun u => restarted (act_restartable .sys2) u
  have seq := fun u => restarted seq_restartable u
  simp only [pair_get_one, pair_get_two] at actOne actTwo
  simp [startSwap, swapTargets, timing, swapDone, actOne, actTwo, seq, takeTargets, Pair.mod, Pair.set]

/-- A timing-neutral swap of a settled SYS1 shows its target in NEXT, and the fade waits (R98). -/
theorem startSwap_neutral (same : neutral s h (.sys1, c) = true) (ready : settled s h .sys1 = true) (ne : c ≠ 0xFF) :
    startSwap h { one := some c, two := none, fade := fade, job := job } s =
      (s.modFltSlice h .sys1 (fun v => { v with next := c, fadeAt := none })).modFlt h (fun f =>
        { f with fading := some { one := some c, two := none, fade := fade, job := job } }) := by
  have shown : (c == 0xFF#8) = false := by simpa using ne
  simp [startSwap, swapTargets, same, ready, foldOver, shown, Pair.mod, Pair.set]

end

theorem fltTest_admitted (s : State) (t : Nat) (e : InFlight) (ob : Vector Orbit 16) (ir : Irq) (ou : List Out)
    (h : HeadId) (r : FltReq) : fltTest h r (s.admitted t e ob ir ou) = fltTest h r s := rfl
theorem swapTest_admitted (s : State) (t : Nat) (e : InFlight) (ob : Vector Orbit 16) (ir : Irq) (ou : List Out)
    (h : HeadId) (w : Swap) : swapTest h w (s.admitted t e ob ir ou) = swapTest h w s := rfl
theorem notchRequest_admitted (s : State) (t : Nat) (e : InFlight) (ob : Vector Orbit 16) (ir : Irq) (ou : List Out)
    (h : HeadId) (l : List Sys) (v : Pair (Vector Word 4)) :
    notchRequest h l v (s.admitted t e ob ir ou) = notchRequest h l v s := rfl

theorem unle_lt (n : Nat) (l : List Byte) : unle n l < 256 ^ n := by
  induction n generalizing l with
  | zero => simp [unle]
  | succ n ih =>
    cases l with
    | nil => simp [unle]
    | cons b bs =>
      have := ih bs
      have := b.isLt
      simp only [unle, Nat.pow_succ]
      omega

/-- A bank code is NONE only where its byte is 0xFF. -/
theorem bankCode_ne {p : List Byte} {i : Nat} (ne : field p i 1 ≠ 0xFF) : (BitVec.ofNat 8 (field p i 1) : Byte) ≠ 0xFF := by
  have small : field p i 1 < 256 := by simpa [field] using unle_lt 1 (p.drop i)
  intro e
  refine ne ?_
  have := congrArg BitVec.toNat e
  simpa [Nat.mod_eq_of_lt small] using this

@[simp] theorem rest_filterChange_own {F : Rest} {h : HeadId} (own : F.own h) (words : F.words) (f : FltHead → FltHead)
    (job : Option Nat) (s : State) : F.view (filterChange h f job s) = F.view s := by
  simp [filterChange, own, words]

/-- Settles O10, command by command. -/
theorem filterCommands : Obligations.Filter_commands := by
  unfold Obligations.Filter_commands
  intro t c s h ha hu
  have up : ∀ e ob ir ou, headUp (s.admitted t e ob ir ou) h = true := fun _ _ _ _ => hu
  refine ⟨fun A => ⟨fun alone => ?_, fun ok more => ?_⟩, fun A listed one ok => ?_,
    fun A one idle => ⟨fun st code bad => ?_, fun ok timing => ?_, fun ok same ready ne => ?_⟩⟩
  · exact answers_of A rfl fun e ob ir ou => ⟨_, fltSet_extra ha (up e ob ir ou) alone, rfl, rfl⟩
  · obtain ⟨e, ob, ir, ou, -, run⟩ := command_runs 0x0230 (fltSet c.payload) A
    rw [fltSet_changes ha (up e ob ir ou) ((fltTest_admitted ..).trans ok) more] at run
    obtain ⟨cfg, -, result, seq, waits⟩ := filterChange_head h (fltStore (fltReqOf c.payload)) (some s.hp.admSeq)
      (s.admitted t e ob ir ou)
    exact ⟨_, congrArg Host.Outcome.next run, cfg, seq, result, waits, otherHeads_of (by simp)⟩
  · obtain ⟨e, ob, ir, ou, -, run⟩ := command_runs 0x0231 (fltNotchSet c.payload) A
    rw [fltNotchSet_changes ha (up e ob ir ou) listed (slices_one one) ((notchRequest_admitted ..).trans ok)] at run
    obtain ⟨-, notch, -, seq, -⟩ := filterChange_head h (notchStore [.sys1]
      ⟨tabulate 4 (fun k => word (field c.payload (4 + 4 * k) 4)), tabulate 4 (fun k => word (field c.payload (20 + 4 * k) 4))⟩)
      (some s.hp.admSeq) (s.admitted t e ob ir ou)
    exact ⟨_, congrArg Host.Outcome.next run, notch, seq, otherHeads_of (by simp)⟩
  · exact answers_of A rfl fun e ob ir ou =>
      ⟨_, fltSwap_fails ha (up e ob ir ou) one ((swapTest_admitted ..).trans bad), rfl, rfl⟩
  · obtain ⟨e, ob, ir, ou, -, run⟩ := command_runs 0x0232 (fltSwap c.payload) A
    rw [fltSwap_starts ha (up e ob ir ou) one ((swapTest_admitted ..).trans ok) idle] at run
    obtain ⟨act, other, seq⟩ := startSwap_timing (s := s.admitted t e ob ir ou) (fade := field c.payload 6 2)
      (job := some s.hp.admSeq) timing
    exact ⟨_, congrArg Host.Outcome.next run, act, other, seq, otherHeads_of (by simp)⟩
  · obtain ⟨e, ob, ir, ou, ad, run⟩ := command_runs 0x0232 (fltSwap c.payload) A
    rw [fltSwap_starts ha (up e ob ir ou) one ((swapTest_admitted ..).trans ok) idle] at run
    have begun := startSwap_neutral (s := s.admitted t e ob ir ou) (fade := field c.payload 6 2)
      (job := some s.hp.admSeq) same ready (bankCode_ne ne)
    refine ⟨_, congrArg Host.Outcome.next (run.trans begun), ad.congr rfl, ?_, ?_, ?_, otherHeads_of (by simp)⟩
    · simp [Pair.mod, Pair.set]
    · simp [Pair.mod, Pair.set]; rfl
    · simp

end Sys2Proof.Machine
end

section
/-! SUPPORT. Fades, late samples and coefficient slots (R94, R98, R99, R117, R206). Settles O11, O12. -/
namespace Sys2Proof.Machine

/-! ### The block of the epochs through what happens at a head -/

section
variable (s : State) (h : HeadId)
@[simp] theorem flagHead_epc (r : HeadReg) (w : Word) : (flagHead r h w s).epc = s.epc :=
  (congrArg State.epc (flagHead_device s r h w) :)
@[simp] theorem flagEpc_epc (w : Word) : (flagEpc w s).epc = { s.epc with fault := s.epc.fault ||| w } :=
  (epc_of_device (flagEpc_device ..) :)
@[simp] theorem flagEpc_head (w : Word) (g : HeadId) : (flagEpc w s).head g = s.head g :=
  (head_of_device (flagEpc_device ..) g :)
@[simp] theorem trig_epc (cls source : Nat) (detail : Word) : (trig cls source detail s).epc = s.epc :=
  epc_of_device (trig_device ..)
@[simp] theorem offer_epc (k : Fin 16) (bytes : List Byte) : (offer k bytes s).1.epc = s.epc :=
  epc_of_device (offer_device ..)
@[simp] theorem activity_epc : (activity h s).epc = s.epc := foldOver_keeps (g := State.epc) (fun _ _ => by rfl) s
@[simp] theorem flagZl_epc (n : Nat) : (flagZl n s).epc = s.epc := (epc_of_device (flagZl_device ..) :)
@[simp] theorem pushItem_epc (it : Item) (n : SecId) : (pushItem it n s).epc = s.epc := by
  unfold pushItem
  split <;> simp [apply_ite State.epc, flagSec]
@[simp] theorem pushItems_epc (it : Item) (l : List SecId) : (foldOver l (pushItem it) s).epc = s.epc :=
  foldOver_keeps (g := State.epc) (fun _ _ => pushItem_epc ..) s
@[simp] theorem headNotice_epc (reason : Nat) : (headNotice h reason s).epc = s.epc := by simp [headNotice]
@[simp] theorem faultNotice_epc : (faultNotice h s).epc = s.epc := headNotice_epc ..
@[simp] theorem countPassage_epc (seq : Nat) (i : Issued) : (countPassage h seq i s).epc = s.epc := by
  unfold countPassage
  extract_lets u _ v
  have counted : u.epc = s.epc := rfl
  have same : v.epc = u.epc := rfl
  clear_value v u
  simp [apply_ite State.epc, flagTrn, same, counted]
@[simp] theorem deliverPassage_epc (seq : Nat) (i : Issued) : (deliverPassage h seq i s).epc = s.epc := by
  simp [deliverPassage, apply_ite State.epc]
@[simp] theorem surveyPassage_epc (i : Issued) : (surveyPassage h i s).epc = s.epc := by
  unfold surveyPassage; split <;> rfl
@[simp] theorem countDrop_epc (r : StreamRec) : (countDrop r s).epc = s.epc := by
  simp only [countDrop]
  split <;> split <;> simp [flagSec, flagTrn]
end

/-- A record that waits for the quiet window is all that an issue adds to the block of the epochs (R163). -/
theorem abortHead_epc {β : Type} {W : Epc → β} (recs : ∀ (e : Epc) (l : List StreamRec), W { e with recs := l } = W e)
    (h : HeadId) (reason : Nat) (s : State) : W (abortHead h reason s).epc = W s.epc := by
  have queued : ∀ (r : StreamRec) (u : State), W (queueRec r u).epc = W u.epc := fun r u => by
    unfold queueRec offerRec
    dsimp only
    split
    · split
      · rw [offer_epc]
      · rw [countDrop_epc, offer_epc]
    · exact recs ..
  have recorded : ∀ (seq : Nat) (i : Issued) (u : State), W (recordPassage h seq i u).epc = W u.epc := fun seq i u => by
    simp only [recordPassage, apply_ite State.epc, apply_ite W, queued, ite_self]
  simp only [abortHead]
  split
  · simp only [issue, recorded, surveyPassage_epc, deliverPassage_epc, activity_epc, countPassage_epc]
    rfl
  · rfl

/-! ### Fades (R98, R99) -/

section
variable {h : HeadId} {x : Sys} {s : State}

theorem fadeComplete_more {w : Swap} {t0 : Nat} (fading : (s.head h).flt.fading = some w)
    (since : ((s.head h).flt.slice.get x).fadeAt = some t0) (next : ((s.head h).flt.slice.get x).next ≠ 0xFF)
    (run : w.fade * 10 ^ 12 ≤ (s.now - t0) * s.firOf h x) :
    fadeComplete h x s =
      if ((s.head h).flt.slice.get x.other).next = 0xFF then
        dequeueSwap h (swapDone h w ((s.modFltSlice h x (fun v =>
          { v with act := v.next, next := 0xFF, fadeAt := none })).modFlt h (fun f => { f with fading := none })))
      else s.modFltSlice h x (fun v => { v with act := v.next, next := 0xFF, fadeAt := none }) := by
  have next : (((s.head h).flt.slice.get x).next != 0xFF) = true := by simpa using next
  simp only [fadeComplete, fading, since, next, run, decide_true, Bool.and_self, if_true, modFltSlice_head_same,
    pair_get_mod_other, beq_iff_eq]

/-- The last fade of a swap completes it (R98, R99). -/
theorem fadeComplete_last {w : Swap} {t0 : Nat} (fading : (s.head h).flt.fading = some w)
    (since : ((s.head h).flt.slice.get x).fadeAt = some t0) (next : ((s.head h).flt.slice.get x).next ≠ 0xFF)
    (run : w.fade * 10 ^ 12 ≤ (s.now - t0) * s.firOf h x) (last : ((s.head h).flt.slice.get x.other).next = 0xFF)
    (noQueue : (s.head h).flt.queue = none) :
    let u := (fadeComplete h x s).head h
    (u.flt.slice.get x).act = ((s.head h).flt.slice.get x).next ∧ (u.flt.slice.get x).next = 0xFF ∧
      u.flt.fading = none ∧ u.flt.seq = ((s.head h).flt.seq + 1) % 256 ∧ bit u.flt.fault 10 = true := by
  rw [fadeComplete_more fading since next run, if_pos last]
  simp [dequeueSwap, swapDone, noQueue, bit_bits_one]

/-! ### Late samples (R206) -/

theorem missedSample_of (run : inRun s h = true) (used : inUse s h x = true) (ticked : 0 < s.epc.tickAt)
    (missing : ((s.head h).flt.slice.get x).sampleAt ≠ s.epc.tickAt) (late : s.epc.tickAt + 4000000 ≤ s.now + 1) :
    missedSample s h x = true := by
  have late : s.epc.tickAt + us 4 ≤ s.now + 1 := late
  simp [missedSample, run, used, ticked, missing, late]

/-- A late sample leaves an invalid one and its flags, and the head waits (R206). -/
theorem sampleLate_marks (missed : missedSample s h x = true) :
    let u := sampleLate h x s
    ((u.head h).flt.slice.get x).sample.valid = false ∧ bit (u.head h).flt.fault (2 + x.idx) = true ∧
      bit u.epc.fault 4 = true ∧ bit u.epc.fdLate (dieOf h).val = true ∧ (u.head h).trn.st = .wait := by
  have lateKeeps : ∀ (tm : Nat) (ok : Bool) (f : FltSlice), (lateGap tm ok f).sample = f.sample := fun tm ok f => by
    unfold lateGap openGap
    dsimp only
    repeat' split
    all_goals rfl
  have settle : ∀ u : State, (((restartSettle h x u).head h).flt.slice.get x).sample = ((u.head h).flt.slice.get x).sample ∧
      ((restartSettle h x u).head h).flt.fault = (u.head h).flt.fault ∧ ((restartSettle h x u).head h).trn = (u.head h).trn ∧
      (restartSettle h x u).epc = u.epc := fun u => by
    unfold restartSettle holdSettle
    split <;> simp
  have noticed : ∀ (b : Bool) (u : State), (if b then faultNotice h u else u).head h = u.head h ∧
      (if b then faultNotice h u else u).epc = u.epc := fun b u => by cases b <;> simp
  have fault := fun u => abortHead_epc (W := Epc.fault) (fun _ _ => rfl) h 2 u
  have fdLate := fun u => abortHead_epc (W := Epc.fdLate) (fun _ _ => rfl) h 2 u
  simp only [sampleLate, missed, if_true, noticed, settle, abortHead_flt, abortHead_st, fault, fdLate]
  have die : (dieOf h).val < 32 := by omega
  simp [lateKeeps, bit_bits_one, die]

end


/-- Settles O11, event by event. -/
theorem fadesAndLateSamples : Obligations.Fades_and_late_samples := by
  unfold Obligations.Fades_and_late_samples
  intro t s h x up
  have run : ∀ f, (Host.Outcome.next (whenAwake f (s.advance t)) : Host.Outcome State Fault Refusal) =
      .next (f (s.advance t)) := fun f => congrArg Host.Outcome.next (whenAwake_advance up)
  refine ⟨fun next waits => ?_, fun w t0 fading since next span => ⟨fun more => ?_, fun last noQueue => ?_⟩,
    fun run_ used ticked missing late => ?_⟩
  · refine (run _).trans ?_
    have next : (((s.head h).flt.slice.get x).next != 0xFF) = true := bne_iff_ne.mpr next
    simp only [fadeStart, advance_head, next, waits, Option.isNone_none, Bool.and_self, if_true]
    rfl
  · exact (run _).trans (congrArg _ ((fadeComplete_more (s := s.advance t) fading since next span).trans (if_neg more)))
  · obtain ⟨act, next, idle, seq, flag⟩ :=
      fadeComplete_last (s := s.advance t) fading since next span last noQueue
    exact ⟨_, run _, act, next, idle, seq, flag, otherHeads_of (by simp)⟩
  · obtain ⟨invalid, gap, fd, die, waits⟩ :=
      sampleLate_marks (missedSample_of (s := s.advance t) run_ used ticked missing late)
    exact ⟨_, run _, invalid, gap, fd, die, waits, otherHeads_of (by simp)⟩

/-! ### Coefficient slots (R94, R117) -/

section
variable {p : List Byte} {seq : Nat} {s : State} {d : DieId} (ha : dieArg p 0 = some d) (hu : dieUp s d = true)
  (slot : field p 1 1 ≤ 127)
include ha hu slot

/-- A load whose operands and owner are right, and whose slot is not in use, fills it (R94). -/
theorem fltBankLoad_fills (head : field p 2 1 ≤ 31) (sl : field p 3 1 = 1 ∨ field p 3 1 = 2) (kind : field p 4 1 ≤ 1)
    (cmax : field p 6 1 ≤ 7) (cmin : field p 5 1 ≤ field p 6 1)
    (owner : (tget (s.die d).slots (Fin.ofNat 128 (field p 1 1))).owned = false ∨
      ownedBy (tget (s.die d).slots (Fin.ofNat 128 (field p 1 1))) (Fin.ofNat 256 (32 * d.val + field p 2 1))
        (if field p 3 1 = 2 then .sys2 else .sys1) = true)
    (free : slotInUse s d (Fin.ofNat 128 (field p 1 1)) = false)
    (least : 519045 ≤ coefSum ((List.range 64).map (fun i => BitVec.ofNat 20 (field p (8 + 4 * i) 4))))
    (most : coefSum ((List.range 64).map (fun i => BitVec.ofNat 20 (field p (8 + 4 * i) 4))) ≤ 529531) :
    fltBankLoad p seq s = bankOutcome d (field p 1 1) seq .ok 0 (s.modDie d (fun v => { v with
      slots := tset v.slots (Fin.ofNat 128 (field p 1 1))
        { loaded := true, kind := field p 4 1 == 1, cmax := field p 6 1, cmin := field p 5 1,
          gd := bankGd ((List.range 64).map (fun i => BitVec.ofNat 20 (field p (8 + 4 * i) 4))), owned := true,
          sys := if field p 3 1 = 2 then .sys2 else .sys1, head := field p 2 1,
          coef := (List.range 64).map (fun i => BitVec.ofNat 20 (field p (8 + 4 * i) 4)) } })) := by
  have foreign : ((tget (s.die d).slots (Fin.ofNat 128 (field p 1 1))).owned &&
      !ownedBy (tget (s.die d).slots (Fin.ofNat 128 (field p 1 1))) (Fin.ofNat 256 (32 * d.val + field p 2 1))
        (if field p 3 1 = 2 then .sys2 else .sys1)) = false := by
    rcases owner with o | o <;> simp only [o, Bool.false_and, Bool.not_true, Bool.and_false]
  simp only [fltBankLoad, ha]
  rw [if_neg (by simp [hu]), if_neg (by omega), if_neg (ne_true_of_eq_false foreign),
    if_neg (ne_true_of_eq_false free), if_neg (by omega)]

theorem fltBankFree_ready : fltBankFree p seq s =
    if slotInUse s d (Fin.ofNat 128 (field p 1 1)) then bankOutcome d (field p 1 1) seq .conflict 7 s
    else bankOutcome d (field p 1 1) seq .ok 0 (s.modDie d (fun v =>
      { v with slots := tset v.slots (Fin.ofNat 128 (field p 1 1)) BankSlot.reset })) := by
  simp only [fltBankFree, ha]
  rw [if_neg (by simp [hu]), if_neg (by omega)]

theorem fltBankRead_reads : fltBankRead p seq s =
    complete seq .ok 0 (leWord (slotWord s d (Fin.ofNat 128 (field p 1 1))) ++
      coefBytes (tget (s.die d).slots (Fin.ofNat 128 (field p 1 1)))) s := by
  simp [fltBankRead, ha, hu, slot]

end

/-- Settles O12, command by command. -/
theorem coefficientSlots : Obligations.Coefficient_slots := by
  unfold Obligations.Coefficient_slots
  intro t c s d ha hu slot
  have up : ∀ e ob ir ou, dieUp (s.admitted t e ob ir ou) d = true := fun _ _ _ _ => hu
  refine ⟨fun A head sl kind cmax cmin owner free least most => ?_, fun A => ⟨fun free => ?_, fun used => ?_⟩, fun A => ?_⟩ <;>
    refine answers_of A rfl fun e ob ir ou => ?_
  · refine ⟨_, fltBankLoad_fills ha (up e ob ir ou) slot head sl kind cmax cmin owner free least most, rfl, ?_⟩
    rw [modDie_modDie]; rfl
  · refine ⟨_, (fltBankFree_ready ha (up e ob ir ou) slot).trans (if_neg (ne_true_of_eq_false free)), rfl, ?_⟩
    rw [modDie_modDie]; rfl
  · exact ⟨_, (fltBankFree_ready ha (up e ob ir ou) slot).trans (if_pos used), rfl, rfl⟩
  · exact ⟨_, fltBankRead_reads ha (up e ob ir ou) slot, rfl, rfl⟩

end Sys2Proof.Machine
end

section
/-! SUPPORT. The comparators of a head (R118 to R142): staged values, presence and its episodes. Settles O13, O14. -/
namespace Sys2Proof.Machine

/-! ### Commands (R141, R142) -/

section
variable {p : List Byte} {seq : Nat} {s : State} {h : HeadId} (ha : headArg p 0 = some h) (hu : headUp s h = true)
include ha hu

theorem cmpSet_out_of_range (bad : cmpSetRange p = false) :
    cmpSet p seq s = complete seq .conflict 1 [] (s.modCmp h (fun b => { b with result := 1 })) := by
  rw [cmpSet, withHead_named ha hu]
  simp [bad, cmpOutcome, completeJob]

theorem cmpSet_in_order (ok : cmpSetRange p = true) (order : cmpOrder (cmpSetWords p (s.head h).cmp.staged) = true) :
    cmpSet p seq s = complete seq .ok 0 [] (s.modCmp h (fun b =>
      { b with staged := cmpSetWords p b.staged, result := 0 })) := by
  rw [cmpSet, withHead_named ha hu]
  simp only [ok, cmpStage, order, cmpOutcome, completeJob, Bool.not_true, Bool.false_eq_true, if_false, if_true]
  refine congrArg (complete seq .ok 0 []) ?_
  exact (modHead_modHead s h _ _).trans (modHead_congr _ _ _ _ rfl)

theorem cmpSet_out_of_order (ok : cmpSetRange p = true)
    (order : cmpOrder (cmpSetWords p (s.head h).cmp.staged) = false) :
    cmpSet p seq s = complete seq .conflict 4 [] (s.modCmp h (fun b => { b with result := 4 })) := by
  rw [cmpSet, withHead_named ha hu]
  simp [ok, cmpStage, order, cmpOutcome, completeJob]

theorem cmpStatus_reads : cmpStatus p seq s = complete seq .ok 0
    (leWords [cmpStat s h, (s.head h).cmp.fault, (s.head h).cmp.rbA.one, (s.head h).cmp.rbB.one, (s.head h).cmp.rbA.two,
      (s.head h).cmp.rbB.two, cmpCnt s h, cmpHold s h]) s := by
  rw [cmpStatus, withHead_named ha hu]

end

/-- Settles O13, outcome by outcome. -/
theorem comparatorCommands : Obligations.Comparator_commands := by
  unfold Obligations.Comparator_commands
  intro t c s h ha hu
  have up : ∀ e ob ir ou, headUp (s.admitted t e ob ir ou) h = true := fun _ _ _ _ => hu
  refine ⟨fun A => ⟨fun ok order => ?_, fun ok order => ?_, fun bad => ?_⟩, fun A => ?_⟩ <;>
    refine answers_of A rfl fun e ob ir ou => ?_
  · exact ⟨_, cmpSet_in_order ha (up e ob ir ou) ok order, rfl, rfl⟩
  · exact ⟨_, cmpSet_out_of_order ha (up e ob ir ou) ok order, rfl, rfl⟩
  · exact ⟨_, cmpSet_out_of_range ha (up e ob ir ou) bad, rfl, rfl⟩
  · exact ⟨_, cmpStatus_reads ha (up e ob ir ou), rfl, rfl⟩

/-! ### Trip lines and latches (R132) -/

/-- The bindings of every section. -/
def Rest.binds : Rest where
  Part := SecId → Vector Word 8
  view s := fun n => (s.sec n).bind
  own _ := True
  words := True
  lines := True
  of_device s u e := by simp [sec_of_device e]
  of_blocks _ _ _ _ _ := rfl
  of_survey _ _ := rfl
  of_head _ _ _ _ _ := rfl
  of_sec s n f keep := by
    funext m
    have bind : ∀ x, (f x).bind = x.bind := fun x => (congrArg Section.bind (keep x) :)
    rw [modSec_sec]
    split
    · exact bind _
    · rfl
  of_trip s n t _ := by
    funext m
    rw [modSec_sec]
    split
    · unfold Section.trip; split <;> rfl
    · rfl

@[simp] theorem binds_own (h : HeadId) : Rest.binds.own h := trivial
@[simp] theorem binds_words : Rest.binds.words := trivial
@[simp] theorem binds_lines : Rest.binds.lines := trivial

theorem boundTo_of {s u : State} (e : Rest.binds.view u = Rest.binds.view s) (h : HeadId) (n : SecId) :
    boundTo h (u.sec n) = boundTo h (s.sec n) := by
  have bind : (u.sec n).bind = (s.sec n).bind := (congrFun e n :)
  simp only [boundTo, bind]

/-- Setting the latches sets that of every section bound to the head. -/
theorem setLatches_sets {h : HeadId} {n : SecId} {s : State} (bound : boundTo h (s.sec n) = true) :
    ((setLatches h s).sec n).latch = true := by
  have listed : n ∈ boundSecs s h := by
    simp only [boundSecs, allFin, List.mem_filter]
    exact ⟨List.mem_finRange n, bound⟩
  have holds : ∀ (l : List SecId) (u : State), n ∈ l ∨ (u.sec n).latch = true →
      ((foldOver l (fun n s => s.modSec n (Section.trip s.now)) u).sec n).latch = true := fun l => by
    induction l with
    | nil => exact fun u => by simp [foldOver]
    | cons m l ih =>
      intro u given
      refine ih (u.modSec m (Section.trip u.now)) ?_
      by_cases same : n = m
      · subst same
        right
        rw [modSec_sec_same]; exact trip_latch ..
      · rw [modSec_sec_other _ _ _ _ same]
        rcases given with listed | latched
        · exact .inl ((List.mem_cons.mp listed).resolve_left same)
        · exact .inr latched
  exact holds _ s (.inl listed)

/-- A change that leaves a line in use tripped sets the latch of every bound section (R132). -/
theorem withLines_trips {h : HeadId} {f : State → State} {s : State} {x : Sys} (used : inUse (f s) h x = true)
    (tripped : lineReleased (f s) h x = false) {n : SecId} (bound : boundTo h ((f s).sec n) = true) :
    ((withLines h f s).sec n).latch = true := by
  have listed : x ∈ usedSlices (f s) h := by
    simp only [usedSlices, List.mem_filter, used, and_true]
    cases x <;> simp
  have some_tripped : (usedSlices (f s) h).all (lineReleased (f s) h) = false := by
    rw [List.all_eq_false]
    exact ⟨x, listed, by simp [tripped]⟩
  have noted : ∀ (p q : Prop) [Decidable p] [Decidable q] (g k : CmpSlice → CmpSlice) (y z : Sys) (u : State),
      ((if p then (if q then u.modCmpSlice h y g else u).modCmpSlice h z k else (if q then u.modCmpSlice h y g else u))).sec n =
        u.sec n := fun p q _ _ g k y z u => by
    split <;> split <;> rfl
  simp only [withLines, some_tripped, Bool.false_eq_true, if_false]
  refine setLatches_sets ?_
  rw [noted]; exact bound

/-- Of a comparator's slice the lines note only the instant of a release. -/
theorem withLines_slice {β : Type} {W : CmpSlice → β} (hide : ∀ (c : CmpSlice) (n : Nat), W { c with releasedAt := n } = W c)
    (h : HeadId) (y : Sys) (f : State → State) (s : State) :
    W (((withLines h f s).head h).cmp.slice.get y) = W (((f s).head h).cmp.slice.get y) :=
  withLines_hidden (V := fun b => W (b.cmp.slice.get y))
    (fun b z n => by cases y <;> cases z <;> first | rfl | exact hide ..) h f s

/-- The lines leave the comparator family of a head but its slices. -/
theorem withLines_cmp {β : Type} {W : CmpHead → β} (hide : ∀ (c : CmpHead) (v : Pair CmpSlice), W { c with slice := v } = W c)
    (h : HeadId) (f : State → State) (s : State) :
    W ((withLines h f s).head h).cmp = W ((f s).head h).cmp :=
  withLines_hidden (V := fun b => W b.cmp) (fun _ _ _ => hide ..) h f s

theorem inUse_of {s u : State} {h : HeadId} (e : (u.head h).fe.route.cur = (s.head h).fe.route.cur) (x : Sys) :
    inUse u h x = inUse s h x := by simp only [inUse, e]

theorem cmpLive_used {s : State} {h : HeadId} {x : Sys} (live : cmpLive s h x = true) : inUse s h x = true := by
  simp only [cmpLive, Bool.and_eq_true] at live
  exact live.1.1.1.2

/-! ### Presence (R121, R123) -/

section
variable (h : HeadId) (x : Sys) (s : State)
theorem startEpisode_head : ∃ n e, (startEpisode h s).head h =
    { s.head h with cmp := { (s.head h).cmp with trips := n, episode := e } } ∧ e.isSome = true := by
  unfold startEpisode
  split
  case isTrue open_ => exact ⟨(s.head h).cmp.trips, (s.head h).cmp.episode, rfl, open_⟩
  case isFalse => exact ⟨_, _, by rw [activity_head, modCmp_head_same], rfl⟩

/-- What an assertion does before the lines follow it. -/
def assertPresence (s : State) : State :=
  let s := s.modCmpSlice h x (fun c => { c with asserted := true, occEnd := some (s.now + us (occUs s h x)) })
  startEpisode h (noteCheck h x (assertThr s h x) s)

theorem assertPresence_head : ((assertPresence h x s).head h).fe = (s.head h).fe ∧
    (((assertPresence h x s).head h).cmp.slice.get x).asserted = true ∧
    (((assertPresence h x s).head h).cmp.slice.get x).occEnd = some (s.now + us (occUs s h x)) ∧
    ((assertPresence h x s).head h).cmp.episode.isSome = true := by
  obtain ⟨n, e, head, open_⟩ := startEpisode_head h (noteCheck h x
    (assertThr (s.modCmpSlice h x (fun c => { c with asserted := true, occEnd := some (s.now + us (occUs s h x)) })) h x)
    (s.modCmpSlice h x (fun c => { c with asserted := true, occEnd := some (s.now + us (occUs s h x)) })))
  simp only [assertPresence, head]
  exact ⟨by simp [noteCheck], by simp [noteCheck], by simp [noteCheck], open_⟩

theorem asserted_trips (s : State) (asserted : ((s.head h).cmp.slice.get x).asserted = true) :
    lineReleased s h x = false := by simp [lineReleased, asserted]

/-- What a release does before the lines follow it. -/
theorem releasePresence_slice : (((releasePresence h x s).head h).cmp.slice.get x).asserted = false ∧
    (((releasePresence h x s).head h).cmp.slice.get x).occEnd = none := by
  have ended : ∀ u : State, ((endEpisode h u).head h).cmp.slice = (u.head h).cmp.slice := fun u => by
    unfold endEpisode
    split
    · split <;> simp
    · rfl
  have asserted := withLines_slice (W := CmpSlice.asserted) (fun _ _ => rfl) h x
  have occEnd := withLines_slice (W := CmpSlice.occEnd) (fun _ _ => rfl) h x
  simp [releasePresence, asserted, occEnd, ended, noteCheck]
end

section
variable {h : HeadId} {x : Sys} {s : State} {e : Nat}

theorem presenceAssert_at (live : cmpLive s h x = true) (low : e ≤ assertThr s h x) :
    presenceAssert h x e s = withLines h (assertPresence h x) s := by
  simp only [presenceAssert, live, low, decide_true, Bool.and_self, if_true]
  rfl

theorem presenceRelease_at (live : cmpLive s h x = true) (asserted : ((s.head h).cmp.slice.get x).asserted = true)
    (ended : occDone s h x = true) (high : releaseThr s h x ≤ e) :
    presenceRelease h x e s = releasePresence h x s := by
  simp [presenceRelease, live, asserted, ended, high]

theorem presenceRelease_early (early : occDone s h x = false ∨ e < releaseThr s h x) : presenceRelease h x e s = s := by
  rcases early with running | low
  · simp [presenceRelease, running]
  · simp [presenceRelease, Nat.not_le.mpr low]

/-- The end of the occultation timer releases a live presence whose envelope is back, and no other (R123). -/
theorem occultationExpiry_ends {t0 : Nat} (timer : ((s.head h).cmp.slice.get x).occEnd = some t0) (past : t0 ≤ s.now) :
    let c := (s.head h).cmp.slice.get x
    let u := ((occultationExpiry h x e s).head h).cmp.slice.get x
    u.occEnd = none ∧ u.asserted = (c.asserted && !(!c.forced && !c.testing && inUse s h x && headUp s h &&
      decide (releaseThr s h x ≤ e))) := by
  have ended : occDone s h x = true := by simp [occDone, timer, past]
  obtain ⟨asserted, occEnd⟩ := releasePresence_slice h x s
  cases back : ((s.head h).cmp.slice.get x).asserted && !((s.head h).cmp.slice.get x).forced &&
    !((s.head h).cmp.slice.get x).testing && inUse s h x && headUp s h && decide (releaseThr s h x ≤ e)
  case true =>
    have released : occultationExpiry h x e s = releasePresence h x s := by
      simp only [occultationExpiry, timer, Option.isSome_some, ended, Bool.and_self, if_true, back]
    simp only [Bool.and_eq_true] at back
    obtain ⟨⟨⟨⟨⟨_, free⟩, tested⟩, used⟩, on⟩, high⟩ := back
    simp only [released, asserted, occEnd, free, tested, used, on, high, Bool.and_self, Bool.not_true, Bool.and_false,
      and_self]
  case false =>
    have stays : occultationExpiry h x e s = s.modCmpSlice h x (fun c => { c with occEnd := none }) := by
      simp only [occultationExpiry, timer, Option.isSome_some, ended, Bool.and_self, if_true, back, Bool.false_eq_true,
        if_false]
    rw [stays, modCmpSlice_head_same, pair_get_mod_same]
    refine ⟨rfl, ?_⟩
    cases on : ((s.head h).cmp.slice.get x).asserted
    · rfl
    · simp only [on, Bool.true_and] at back ⊢
      rw [back]; rfl

end

/-! ### Episodes without a transit (R374) -/

theorem noTransit_head (h : HeadId) (s : State) : ((noTransit h s).head h).cmp =
    { (s.head h).cmp with notrn := ((s.head h).cmp.notrn + 1) % 65536, fault := (s.head h).cmp.fault ||| bits 9 1 } := by
  unfold noTransit
  extract_lets u _ _ v
  have same : v.head h = u.head h := by
    simp only [v]
    split <;> rfl
  have counted : u.head h = _ := modCmp_head_same ..
  rw [flagCmp_head, same, counted]

/-- The one episode that is due, in which no passage ended, is counted and flagged (R374). -/
theorem judgeEpisodes_one {h : HeadId} {s : State} {a b : Nat} (idle : trnIdle s h = true)
    (one : (s.head h).cmp.judge = [(a, b)]) (due : b + holdOf s h ≤ s.now) (none_ : ∀ i ∈ (s.head h).trn.issuedEnds, i < a) :
    ((judgeEpisodes h s).head h).cmp.judge = [] ∧
      ((judgeEpisodes h s).head h).cmp.notrn = ((s.head h).cmp.notrn + 1) % 65536 ∧
      bit ((judgeEpisodes h s).head h).cmp.fault 9 = true ∧ (judgeEpisodes h s).sections = s.sections := by
  have due_ : ∀ u : State, (u.head h).trn.issuedEnds = (s.head h).trn.issuedEnds → judgeOne h (a, b) u = noTransit h u :=
    fun u same => by
      have never : (u.head h).trn.issuedEnds.any (fun t => decide (a ≤ t)) = false := by
        rw [same, List.any_eq_false]
        exact fun i hi => by simpa using none_ i hi
      simp [judgeOne, never]
  have judged : ∀ f : CmpHead → CmpHead, judgeOne h (a, b) (s.modCmp h f) = noTransit h (s.modCmp h f) := fun f =>
    due_ _ (by rw [modCmp_head_same])
  have sections : ∀ u : State, (noTransit h u).sections = u.sections := fun u => by
    unfold noTransit
    extract_lets u' _ _ v
    refine (flagHead_sections ..).trans ?_
    simp only [v]
    split <;> rfl
  have episodes : judgeEpisodes h s =
      if (s.head h).cmp.episode.isNone then
        (noTransit h (s.modCmp h (fun c => { c with judge := [] }))).modTrn h (fun t =>
          { t with issuedEnds := t.issuedEnds.filter (fun e => decide
            ((noTransit h (s.modCmp h (fun c => { c with judge := [] }))).now ≤ e)) })
      else noTransit h (s.modCmp h (fun c => { c with judge := [] })) := by
    simp only [judgeEpisodes, idle, one, due, if_true, List.filter_cons, List.filter_nil, decide_true, Bool.not_true,
      Bool.false_eq_true, if_false, foldOver, List.foldl_cons, List.foldl_nil, judged, List.isEmpty_nil, Bool.true_and,
      noTransit_head, modCmp_head_same]
  rw [episodes]
  split <;> simp [noTransit_head, sections, bit_bits_one]

/-- Settles O14, event by event. -/
theorem presenceComparator : Obligations.Presence_comparator := by
  unfold Obligations.Presence_comparator
  intro t e s h x up
  have run : ∀ f, (Host.Outcome.next (whenAwake f (s.advance t)) : Host.Outcome State Fault Refusal) =
      .next (f (s.advance t)) := fun f => congrArg Host.Outcome.next (whenAwake_advance up)
  refine ⟨fun live low => ?_, fun live asserted ended high => ?_, fun early => ?_, fun t0 timer past => ?_,
    fun a b idle one due none_ => ?_⟩
  · obtain ⟨fe, asserted, occEnd, episode⟩ := assertPresence_head h x (s.advance t)
    have used : inUse (assertPresence h x (s.advance t)) h x = true :=
      (inUse_of (by rw [fe]) x).trans (cmpLive_used (s := s.advance t) live)
    refine ⟨_, (run _).trans (congrArg _ (presenceAssert_at (s := s.advance t) live low)), ?_, ?_, ?_, fun n bound => ?_,
      otherHeads_of (by simp [assertPresence])⟩
    · rw [withLines_slice (W := CmpSlice.asserted) fun _ _ => rfl]; exact asserted
    · rw [withLines_slice (W := CmpSlice.occEnd) fun _ _ => rfl, occEnd, us, Nat.mul_comm]; rfl
    · rw [withLines_cmp (W := fun c => c.episode.isSome) fun _ _ => rfl]; exact episode
    · exact withLines_trips used (asserted_trips h x _ asserted)
        ((boundTo_of (s := s) (by simp [assertPresence]) h n).trans bound)
  · obtain ⟨released, stopped⟩ := releasePresence_slice h x (s.advance t)
    exact ⟨_, (run _).trans (congrArg _ (presenceRelease_at (s := s.advance t) live asserted ended high)), released,
      stopped, otherHeads_of (by simp)⟩
  · exact (run _).trans (congrArg _ (presenceRelease_early (s := s.advance t) early))
  · obtain ⟨stopped, asserted⟩ := occultationExpiry_ends (s := s.advance t) (e := e) timer past
    exact ⟨_, run _, stopped, asserted, otherHeads_of (by simp)⟩
  · obtain ⟨judged, counted, flag, sections⟩ := judgeEpisodes_one (s := s.advance t) idle one due none_
    exact ⟨_, run _, judged, counted, flag, otherHeads_of (by simp), sections⟩

end Sys2Proof.Machine
end

section
/-! SUPPORT. The health window, the rails, brake recognition, the comparator test and the forced state (R63, R121 to R139).
Settles O15, O16, O17. -/
namespace Sys2Proof.Machine

/-! ### The health window (R63, R121) -/

@[simp] theorem sideOut_setSide (v : Bool) (side : Side) (c : CmpSlice) : sideOut (setSide v side c) side = v := by
  cases side <;> rfl

/-- The comparators of a head are quiet to a wiring fault. -/
theorem cmp_quiet : Quiet Head.cmp where
  flt _ _ := rfl
  trn _ _ := rfl
  flag _ _ := rfl
  spoil _ _ := rfl
  imp _ _ := rfl
  window _ _ := rfl

theorem cur_quiet : Quiet (fun b : Head => b.fe.route.cur) where
  flt _ _ := rfl
  trn _ _ := rfl
  flag _ _ := rfl
  spoil _ _ := rfl
  imp _ _ := rfl
  window _ _ := rfl

section
variable (h : HeadId) (x : Sys) (side : Side) (s : State)

/-- A wiring fault is flagged, marks the samples, stops the transit logic and makes a check urgent (R63). -/
theorem wiringFault_marks : bit ((wiringFault h x s).head h).fe.fault x.idx = true ∧
    (((wiringFault h x s).head h).flt.slice.get x).healthMark = some s.now ∧
    ((wiringFault h x s).head h).trn.st = .wait ∧ (((wiringFault h x s).head h).fe.imp.get x).urgent = true := by
  have flag : bit (sliceFlag 0 x) x.idx = true := by simpa using bit_sliceFlag 0 x (by decide)
  simp [wiringFault, holdSettle, flag]

/-- What a trip of a side does before the lines follow it. -/
def tripSide (s : State) : State :=
  let fresh := !healthOut s h x && !(s.head h).fe.route.window
  let s := s.modCmpSlice h x (setSide true side)
  if fresh then wiringFault h x s else s

theorem tripSide_keeps {β : Type} {V : Head → β} (quiet : Quiet V) : V ((tripSide h x side s).head h) =
    V { s.head h with cmp := { (s.head h).cmp with slice := (s.head h).cmp.slice.mod x (setSide true side) } } := by
  unfold tripSide
  dsimp only
  split
  · rw [wiringFault_hidden quiet, modCmpSlice_head_same]
  · rw [modCmpSlice_head_same]

theorem tripSide_fresh (inside : healthOut s h x = false) (unexpected : (s.head h).fe.route.window = false) :
    tripSide h x side s = wiringFault h x (s.modCmpSlice h x (setSide true side)) := by
  simp [tripSide, inside, unexpected]

/-- What a return of a side does before the lines follow it. -/
def returnSide (s : State) : State :=
  let s := s.modCmpSlice h x (setSide false side)
  if healthOut s h x then s
  else if ((s.head h).flt.slice.get x).healthMark.isSome then
    releaseSettle h x (s.modFltSlice h x (fun f => { f with healthMark := none }))
  else s

theorem returnSide_cmp : ((returnSide h x side s).head h).cmp =
    { (s.head h).cmp with slice := (s.head h).cmp.slice.mod x (setSide false side) } := by
  unfold returnSide
  dsimp only
  split
  · rw [modCmpSlice_head_same]
  · split
    · rw [releaseSettle_hidden (V := Head.cmp) fun _ _ => rfl]; simp
    · rw [modCmpSlice_head_same]

theorem healthOut_of {s u : State} {h : HeadId} {x : Sys} (low : ((u.head h).cmp.slice.get x).lowOut = ((s.head h).cmp.slice.get x).lowOut)
    (high : ((u.head h).cmp.slice.get x).highOut = ((s.head h).cmp.slice.get x).highOut) :
    healthOut u h x = healthOut s h x := by simp only [healthOut, low, high]

/-- With both sides in, the marking of R63 is over. -/
theorem returnSide_ends (inside : healthOut (returnSide h x side s) h x = false) :
    (((returnSide h x side s).head h).flt.slice.get x).healthMark = none := by
  have window : healthOut (s.modCmpSlice h x (setSide false side)) h x = healthOut (returnSide h x side s) h x := by
    simp only [healthOut, returnSide_cmp, modCmpSlice_head_same]
  have marked : ∀ u : State, (((releaseSettle h x u).head h).flt.slice.get x).healthMark =
      ((u.head h).flt.slice.get x).healthMark := fun u => by
    unfold releaseSettle restartSettle holdSettle
    split
    · split <;> simp
    · rfl
  unfold returnSide
  dsimp only
  rw [if_neg (by rw [window, inside]; decide)]
  split
  case isTrue => rw [marked]; simp
  case isFalse unmarked => simpa using unmarked
end

section
variable {h : HeadId} {x : Sys} {side : Side} {s : State} {e : Nat}
theorem healthTrip_at (live : cmpLive s h x = true) (out : outCond s h x e side = true) :
    healthTrip h x side e s = withLines h (tripSide h x side) s := by
  simp only [healthTrip, live, out, Bool.and_self, if_true]
  rfl
theorem healthReturn_at (live : cmpLive s h x = true) (out : sideOut ((s.head h).cmp.slice.get x) side = true)
    (back : backCond s h x e side = true) : healthReturn h x side e s = withLines h (returnSide h x side) s := by
  simp only [healthReturn, live, out, back, Bool.and_self, if_true]
  rfl

theorem sideOut_trips {s : State} (out : sideOut ((s.head h).cmp.slice.get x) side = true) :
    lineReleased s h x = false := by
  cases side <;> simp only [sideOut] at out <;> simp [lineReleased, out]
end

theorem sideOut_withLines (h : HeadId) (x : Sys) (side : Side) (f : State → State) (s : State) :
    sideOut (((withLines h f s).head h).cmp.slice.get x) side = sideOut (((f s).head h).cmp.slice.get x) side :=
  withLines_slice (W := fun c => sideOut c side) (fun _ _ => by cases side <;> rfl) h x f s

/-! ### The rails (R131) -/

/-- What a rail fault does before the lines follow it. -/
def holdRail (h : HeadId) (x : Sys) (s : State) : State :=
  let s := s.modCmpSlice h x (fun c => { c with railHold := true })
  let s := flagHead .cmp h (sliceFlag 4 x) s
  let full := decide (s.dev.railCount = 65535)
  let s := { s with dev := { s.dev with railCount := satNat 16 (s.dev.railCount + 1), railSlice := 2 * h.val + x.idx } }
  let s := if full then s else raise 0 s
  faultNotice h s

theorem railFault_at {h : HeadId} {x : Sys} {s : State} (on : headUp s h = true) (used : inUse s h x = true) :
    railFault h x s = withLines h (holdRail h x) s := by
  simp only [railFault, on, used, Bool.and_self, if_true]
  rfl

theorem rest_holdRail {F : Rest} {h : HeadId} (own : F.own h) (x : Sys) (s : State) :
    F.view (holdRail h x s) = F.view s := by
  unfold holdRail
  extract_lets u v full _ w y
  have counted : F.view w = F.view v := rest_dev ..
  simp [y, counted, u, v, own]

section
variable (s : State) (h : HeadId)
@[simp] theorem flagHead_dev (r : HeadReg) (w : Word) : (flagHead r h w s).dev = s.dev :=
  (congrArg State.dev (flagHead_device s r h w) :)
@[simp] theorem activity_dev : (activity h s).dev = s.dev := foldOver_keeps (g := State.dev) (fun _ _ => by rfl) s
@[simp] theorem setLatches_dev : (setLatches h s).dev = s.dev := foldOver_keeps (g := State.dev) (fun _ _ => by rfl) s
@[simp] theorem flagZl_dev (n : Nat) : (flagZl n s).dev = s.dev := (dev_of_device (flagZl_device ..) :)
@[simp] theorem pushItem_dev (it : Item) (n : SecId) : (pushItem it n s).dev = s.dev := by
  unfold pushItem
  split <;> simp [apply_ite State.dev, flagSec]
@[simp] theorem faultNotice_dev : (faultNotice h s).dev = s.dev :=
  (foldOver_keeps (g := State.dev) (fun _ _ => pushItem_dev ..) _).trans (activity_dev ..)
theorem withLines_dev (f : State → State) : (withLines h f s).dev = (f s).dev := by
  simp only [withLines, apply_ite State.dev, setLatches_dev, modCmpSlice_dev, ite_self]
end

theorem holdRail_head (h : HeadId) (x : Sys) (s : State) : ((holdRail h x s).head h).fe = (s.head h).fe ∧
    (((holdRail h x s).head h).cmp.slice.get x).railHold = true ∧
    bit ((holdRail h x s).head h).cmp.fault (4 + x.idx) = true ∧
    (holdRail h x s).dev = { s.dev with
      railCount := min (s.dev.railCount + 1) 65535, railSlice := 2 * h.val + x.idx } := by
  have flag := bit_sliceFlag 4 x (by decide)
  have raised : ∀ (b : Bool) (u : State), (if b then u else raise 0 u).head h = u.head h ∧
      (if b then u else raise 0 u).dev = u.dev := fun b u => by cases b <;> exact ⟨rfl, rfl⟩
  have counted : ∀ (u : State) (d : Dev), ({ u with dev := d } : State).head h = u.head h := fun _ _ => rfl
  simp only [holdRail, faultNotice_head, faultNotice_dev, raised, counted, flagHead_head, flagHead_dev]
  refine ⟨?_, ?_, ?_, ?_⟩ <;> simp [setHeadFault, headFault, flag, satNat]

/-- Settles O15, event by event. -/
theorem healthWindowAndRails : Obligations.Health_window_and_rails := by
  unfold Obligations.Health_window_and_rails
  intro t e s h x up
  have run : ∀ f, (Host.Outcome.next (whenAwake f (s.advance t)) : Host.Outcome State Fault Refusal) =
      .next (f (s.advance t)) := fun f => congrArg Host.Outcome.next (whenAwake_advance up)
  refine ⟨fun side live out => ?_, fun side live out back => ?_, fun on used => ?_⟩
  · have cur := tripSide_keeps h x side (s.advance t) cur_quiet
    have cmp := tripSide_keeps h x side (s.advance t) cmp_quiet
    have used : inUse (tripSide h x side (s.advance t)) h x = true :=
      (inUse_of cur x).trans (cmpLive_used (s := s.advance t) live)
    have tripped : sideOut (((tripSide h x side (s.advance t)).head h).cmp.slice.get x) side = true := by
      rw [cmp]; simp
    refine ⟨_, (run _).trans (congrArg _ (healthTrip_at (s := s.advance t) live out)), ?_, fun n bound => ?_,
      fun inside unexpected => ?_, otherHeads_of (by simp [tripSide])⟩
    · rw [sideOut_withLines]; exact tripped
    · exact withLines_trips used (sideOut_trips tripped)
        ((boundTo_of (s := s) (by simp [tripSide]) h n).trans bound)
    · rw [withLines_fe, withLines_flt, withLines_trn, tripSide_fresh h x side (s.advance t) inside unexpected]
      obtain ⟨flag, mark, waits, urgent⟩ := wiringFault_marks h x ((s.advance t).modCmpSlice h x (setSide true side))
      exact ⟨flag, mark, waits, urgent⟩
  · have window := healthOut_of (u := withLines h (returnSide h x side) (s.advance t)) (s := returnSide h x side (s.advance t))
      (withLines_slice (W := CmpSlice.lowOut) (fun _ _ => rfl) h x _ _)
      (withLines_slice (W := CmpSlice.highOut) (fun _ _ => rfl) h x _ _)
    refine ⟨_, (run _).trans (congrArg _ (healthReturn_at (s := s.advance t) live out back)), ?_, fun inside => ?_,
      otherHeads_of (by simp [returnSide])⟩
    · rw [sideOut_withLines, returnSide_cmp]; simp
    · rw [withLines_flt]
      exact returnSide_ends h x side (s.advance t) (window.symm.trans inside)
  · obtain ⟨fe, held, flag, dev⟩ := holdRail_head h x (s.advance t)
    have inUse_ : inUse (holdRail h x (s.advance t)) h x = true := (inUse_of (congrArg (fun b : FeHead => b.route.cur) fe) x).trans used
    have tripped : lineReleased (holdRail h x (s.advance t)) h x = false := by simp [lineReleased, held]
    refine ⟨_, (run _).trans (congrArg _ (railFault_at (s := s.advance t) on used)), ?_, ?_, ?_, ?_, fun n bound => ?_,
      otherHeads_of ?_⟩
    · rw [withLines_slice (W := CmpSlice.railHold) fun _ _ => rfl]; exact held
    · rw [withLines_cmp (W := fun c => bit c.fault (4 + x.idx)) fun _ _ => rfl]; exact flag
    · rw [withLines_dev, dev]; rfl
    · rw [withLines_dev, dev]
    · exact withLines_trips inUse_ tripped ((boundTo_of (s := s) ((rest_holdRail trivial x _).trans (rest_advance ..)) h n).trans bound)
    · simp [rest_holdRail]

/-! ### Brake recognition (R125, R126) -/

section
variable {h : HeadId} {x : Sys} {s : State} {level : Nat}

theorem brakeSet_at (on : headUp s h = true) (used : inUse s h x = true)
    (high : fld (s.head h).cmp.force.brake 0 10 ≤ level) : brakeSet h x level s =
      if brakeOn s h then (s.modCmpSlice h x (fun c => { c with brk := true })).modCmp h (fun c => { c with brakeHold := none })
      else markBrake h (flagCmp h 7 (((s.modCmpSlice h x (fun c => { c with brk := true })).modCmp h
        (fun c => { c with brakeHold := none })).modCmp h (fun c => { c with brakeSince := some s.now }))) := by
  simp [brakeSet, on, used, high]

/-- A recognition that begins marks the passage in progress (R156). -/
theorem markBrake_pass (h : HeadId) (s : State) (p : Passage) (pass : ((markBrake h s).head h).trn.pass = some p) :
    p.brake = true := by
  simp only [markBrake, modTrn_head_same, Option.map_eq_some_iff] at pass
  obtain ⟨q, -, rfl⟩ := pass
  rfl

theorem brakeClear_at (set_ : ((s.head h).cmp.slice.get x).brk = true)
    (low : level < fld (s.head h).cmp.force.brake 16 10) : brakeClear h x level s =
      if ((s.head h).cmp.slice.get x.other).brk then s.modCmpSlice h x (fun c => { c with brk := false })
      else (s.modCmpSlice h x (fun c => { c with brk := false })).modCmp h
        (fun c => { c with brakeHold := some (s.now + brakeHoldOf s h) }) := by
  have hold : brakeHoldOf (s.modCmpSlice h x (fun c => { c with brk := false })) h = brakeHoldOf s h := by
    simp [brakeHoldOf]
  simp only [brakeClear, set_, low, decide_true, Bool.and_self, if_true, modCmpSlice_head_same, pair_get_mod_other, hold,
    modCmpSlice_now]

end

/-- Settles O16, event by event. -/
theorem brakeRecognition : Obligations.Brake_recognition := by
  unfold Obligations.Brake_recognition
  intro t level s h x up
  have run : ∀ f, (Host.Outcome.next (whenAwake f (s.advance t)) : Host.Outcome State Fault Refusal) =
      .next (f (s.advance t)) := fun f => congrArg Host.Outcome.next (whenAwake_advance up)
  refine ⟨fun on used high => ?_, fun set_ low => ?_, fun t0 hold on past => ?_⟩
  · refine ⟨_, (run _).trans (congrArg _ (brakeSet_at (s := s.advance t) on used high)), ?_⟩
    split
    case isTrue going =>
      have since : (s.head h).cmp.brakeSince.isSome = true := going
      refine ⟨by simp, by simp [since], by simp, fun first => ?_, rfl, otherHeads_of (by simp)⟩
      simp [first] at since
    case isFalse =>
      refine ⟨by simp [markBrake], by simp [markBrake], by simp [markBrake], fun _ => ⟨?_, by simp [markBrake], markBrake_pass h _⟩,
        ?_, otherHeads_of (by simp)⟩
      · simp [markBrake, bit_bits_one]
      · exact flagHead_sections ..
  · refine ⟨_, (run _).trans (congrArg _ (brakeClear_at (s := s.advance t) set_ low)), ?_⟩
    split
    case isTrue other => exact ⟨by simp, by simp, fun off => by simp [off] at other, rfl, otherHeads_of (by simp)⟩
    case isFalse => exact ⟨by simp, by simp, fun _ => by simp; rfl, rfl, otherHeads_of (by simp)⟩
  · refine (run _).trans ?_
    have on : brakeOn (s.advance t) h = true := on
    simp [brakeEnd, hold, on, past]

/-! ### The comparator test (R128) -/

/-- The read-back words of a test. -/
def readBack (r : TestResult) : Word × Word :=
  (put 24 8 (dev8 r.devHigh) ||| put 16 8 (dev8 r.devRelease) ||| put 8 8 (dev8 r.devAssert) ||| put 0 8 (dev8 r.devLow),
   put 31 1 1 ||| put 26 1 (b2n (dacOk r)) ||| put 25 1 (b2n r.railOk) ||| put 24 1 (b2n r.compOk) |||
      put 8 8 (dev8 r.devOff) ||| put 0 8 (dev8 r.devOn))

/-- The flags that a test sets. -/
def testFlags (x : Sys) (r : TestResult) : Word :=
  bits 8 1 ||| (if dacOk r then 0 else sliceFlag 0 x) ||| (if r.compOk then 0 else sliceFlag 2 x) |||
    (if r.railOk then 0 else sliceFlag 4 x)

/-- What a test's end does before the lines follow it. -/
def readTest (h : HeadId) (x : Sys) (r : TestResult) (s : State) : State :=
  let ok := dacOk r && r.compOk && r.railOk
  let s := s.modCmp h (fun c => { c with rbA := c.rbA.set x (readBack r).1, rbB := c.rbB.set x (readBack r).2 })
  let s := s.modCmpSlice h x (fun c => { c with testing := false, testHold := !ok, railHold := if ok then false else c.railHold })
  let s := flagHead .cmp h (testFlags x r) (forceSlice h x s)
  if ok then s else faultNotice h s

theorem testEnd_at {h : HeadId} {x : Sys} {s : State} {r : TestResult}
    (testing : ((s.head h).cmp.slice.get x).testing = true) (ended : (s.head h).fe.route.testEnd ≤ s.now) :
    testEnd h x r s = routeAfterBreak2 h (withLines h (readTest h x r) s) := by
  simp only [testEnd, testing, ended, decide_true, Bool.and_self, if_true]
  rfl

theorem testFlags_bits (x : Sys) (r : TestResult) : bit (testFlags x r) 8 = true ∧
    (dacOk r = false → bit (testFlags x r) x.idx = true) ∧ (r.compOk = false → bit (testFlags x r) (2 + x.idx) = true) ∧
    (r.railOk = false → bit (testFlags x r) (4 + x.idx) = true) := by
  have dac : bit (sliceFlag 0 x) x.idx = true := by simpa using bit_sliceFlag 0 x (by decide)
  have comp := bit_sliceFlag 2 x (by decide)
  have rail := bit_sliceFlag 4 x (by decide)
  refine ⟨?_, fun bad => ?_, fun bad => ?_, fun bad => ?_⟩ <;> simp [testFlags, bit_bits_one, dac, comp, rail, *]

/-- After its test a slice is forced again, and held tripped where a part failed (R128). -/
theorem readTest_head (h : HeadId) (x : Sys) (r : TestResult) (s : State) :
    let u := (readTest h x r s).head h
    u.fe = (s.head h).fe ∧ (u.cmp.slice.get x).testing = false ∧
      (u.cmp.slice.get x).testHold = !(dacOk r && r.compOk && r.railOk) ∧ (u.cmp.slice.get x).forced = true ∧
      u.cmp.fault = (s.head h).cmp.fault ||| testFlags x r := by
  have noticed : ∀ (b : Bool) (u : State), (if b then u else faultNotice h u).head h = u.head h := fun b u => by
    cases b <;> simp
  simp only [readTest, noticed, flagHead_head]
  simp [setHeadFault, headFault, forceSlice]

/-! ### The forced state (R139) -/

/-- The comparators of a slice take over from the forced state. -/
def leaveForced (h : HeadId) (x : Sys) (e : Nat) (s : State) : State :=
  let s := s.modCmpSlice h x (fun c => { c with
    forced := false, asserted := !(decide (releaseThr s h x ≤ e) && occDone s h x), lowOut := !backCond s h x e .low,
    highOut := !backCond s h x e .high })
  if ((s.head h).cmp.slice.get x).asserted then startEpisode h s else endEpisode h s

theorem settleComplete_at {h : HeadId} {x : Sys} {e : Nat} {s : State} (steady : settled s h x = true)
    (forced : ((s.head h).cmp.slice.get x).forced = true) (tested : ((s.head h).cmp.slice.get x).testing = false) :
    settleComplete h x e s = withLines h (closeWindow h) (withLines h (leaveForced h x e) s) := by
  simp only [settleComplete, steady, forced, tested, Bool.not_false, Bool.and_self, if_true]
  rfl

theorem leaveForced_slice (h : HeadId) (x : Sys) (e : Nat) (s : State) :
    ((leaveForced h x e s).head h).cmp.slice.get x = { (s.head h).cmp.slice.get x with
      forced := false, asserted := !(decide (releaseThr s h x ≤ e) && occDone s h x), lowOut := !backCond s h x e .low,
      highOut := !backCond s h x e .high } := by
  have started : ∀ u : State, ((startEpisode h u).head h).cmp.slice = (u.head h).cmp.slice := fun u => by
    obtain ⟨n, ep, head, -⟩ := startEpisode_head h u
    rw [head]
  have ended : ∀ u : State, ((endEpisode h u).head h).cmp.slice = (u.head h).cmp.slice := fun u => by
    unfold endEpisode
    split
    · split <;> simp
    · rfl
  unfold leaveForced
  dsimp only
  split <;> simp [started, ended]

/-- Settles O17, event by event. -/
theorem comparatorTestAndForcedState : Obligations.Comparator_test_and_forced_state := by
  unfold Obligations.Comparator_test_and_forced_state
  intro t s h x up
  have run : ∀ f, (Host.Outcome.next (whenAwake f (s.advance t)) : Host.Outcome State Fault Refusal) =
      .next (f (s.advance t)) := fun f => congrArg Host.Outcome.next (whenAwake_advance up)
  refine ⟨fun r testing ended phase => ?_, fun e steady forced tested => ?_, fun t0 hold past => ?_⟩
  · obtain ⟨fe, tested, held, forced, fault⟩ := readTest_head h x r (s.advance t)
    obtain ⟨done_, dac, comp, rail⟩ := testFlags_bits x r
    have off : (((withLines h (readTest h x r) (s.advance t)).head h).fe.route.phase == .break2) = false := by
      rw [withLines_fe, fe]; simpa using phase
    have body : testEnd h x r (s.advance t) = withLines h (readTest h x r) (s.advance t) := by
      rw [testEnd_at (s := s.advance t) testing ended, routeAfterBreak2, off]; rfl
    have bits_ := fun k => withLines_cmp (W := fun c => bit c.fault k) (fun _ _ => rfl) h (readTest h x r) (s.advance t)
    simp only [fault, bit_or] at bits_
    refine ⟨_, (run _).trans (congrArg _ body), ?_, ?_, ?_, ?_, fun bad => ?_, fun bad => ?_, fun bad => ?_,
      otherHeads_of (by simp [readTest])⟩
    · rw [withLines_slice (W := CmpSlice.testing) fun _ _ => rfl]; exact tested
    · rw [withLines_slice (W := CmpSlice.testHold) fun _ _ => rfl]; exact held
    · rw [withLines_slice (W := CmpSlice.forced) fun _ _ => rfl]; exact forced
    · rw [bits_, done_, Bool.or_true]
    · rw [bits_, dac bad, Bool.or_true]
    · rw [bits_, comp bad, Bool.or_true]
    · rw [bits_, rail bad, Bool.or_true]
  · have kept : ∀ {β : Type} (W : CmpSlice → β), (∀ c n, W { c with releasedAt := n } = W c) →
        W (((settleComplete h x e (s.advance t)).head h).cmp.slice.get x) =
          W (((leaveForced h x e (s.advance t)).head h).cmp.slice.get x) := fun W hide => by
      rw [settleComplete_at (s := s.advance t) steady forced tested, withLines_slice hide, closeWindow_hidden cmp_quiet,
        withLines_slice hide]
    refine ⟨_, run _, ?_, ?_, ?_, ?_, otherHeads_of (by simp)⟩
    · rw [kept CmpSlice.forced fun _ _ => rfl, leaveForced_slice]
    · rw [kept CmpSlice.asserted fun _ _ => rfl, leaveForced_slice]
      simp [Bool.not_and, ← decide_not, Nat.not_le, releaseThr]; rfl
    · rw [kept CmpSlice.lowOut fun _ _ => rfl, leaveForced_slice]
      simp [backCond, ← decide_not, Nat.not_le, lowThr, hhyst]; rfl
    · rw [kept CmpSlice.highOut fun _ _ => rfl, leaveForced_slice]
      simp [backCond, ← decide_not, Nat.not_le, highThr, hhyst]; rfl
  · refine (run _).trans ?_
    simp [envHoldEnd, hold, past]

end Sys2Proof.Machine
end

section
/-! SUPPORT. Transit detection (R144 to R168): what an issue and an abort leave of the transit family, the commands and the
state machine. Settles O18, O19. -/
namespace Sys2Proof.Machine

/-! ### Issue and abort leave the host port as it is -/

section
variable (s : State) (h : HeadId)
@[simp] theorem activity_hp : (activity h s).hp = s.hp := foldOver_keeps (g := State.hp) (fun _ _ => by rfl) s
@[simp] theorem flagZl_hp (n : Nat) : (flagZl n s).hp = s.hp := by simp [flagZl]
@[simp] theorem pushItem_hp (it : Item) (n : SecId) : (pushItem it n s).hp = s.hp := by
  unfold pushItem
  split <;> simp [apply_ite State.hp, flagSec]
@[simp] theorem pushItems_hp (it : Item) (l : List SecId) : (foldOver l (pushItem it) s).hp = s.hp :=
  foldOver_keeps (g := State.hp) (fun _ _ => pushItem_hp ..) s
@[simp] theorem headNotice_hp (reason : Nat) : (headNotice h reason s).hp = s.hp := by simp [headNotice]
@[simp] theorem changeNotice_hp : (changeNotice h s).hp = s.hp := headNotice_hp ..
@[simp] theorem flagTrn_hp (n : Nat) : (flagTrn h n s).hp = s.hp := flagHead_hp ..
@[simp] theorem countPassage_hp (seq : Nat) (i : Issued) : (countPassage h seq i s).hp = s.hp := by
  unfold countPassage
  extract_lets u _ v
  have counted : u.hp = s.hp := rfl
  have same : v.hp = u.hp := rfl
  clear_value v u
  simp [apply_ite State.hp, same, counted]
@[simp] theorem deliverPassage_hp (seq : Nat) (i : Issued) : (deliverPassage h seq i s).hp = s.hp := by
  simp [deliverPassage, apply_ite State.hp]
@[simp] theorem surveyPassage_hp (i : Issued) : (surveyPassage h i s).hp = s.hp := by
  unfold surveyPassage; split <;> rfl
@[simp] theorem countDrop_hp (r : StreamRec) : (countDrop r s).hp = s.hp := by
  simp only [countDrop]
  split <;> split <;> simp [flagSec]
@[simp] theorem recordPassage_hp (seq : Nat) (i : Issued) : (recordPassage h seq i s).hp = s.hp := by
  simp [recordPassage, queueRec, offerRec, apply_ite State.hp]
@[simp] theorem issue_hp (i : Issued) : (issue h i s).hp = s.hp := by simp [issue]
@[simp] theorem abortHead_hp (reason : Nat) : (abortHead h reason s).hp = s.hp := by
  simp only [abortHead]; split <;> simp
end

/-! ### What an issue counts (R162, R167) -/

/-- The registers and counters of the transit family after an issue, its flags apart. -/
def TrnHead.counted (seq : Nat) (i : Issued) (t : TrnHead) : TrnHead :=
  { t with
    seq := seq
    last := put 16 16 i.speed ||| put 12 4 i.reason ||| put 10 2 i.outcome ||| put 9 1 (b2n i.rev) ||| put 0 8 seq
    cntFwd := if i.outcome = 0 ∧ i.rev = false then (t.cntFwd + 1) % 2 ^ 32 else t.cntFwd
    cntRev := if i.outcome = 0 ∧ i.rev = true then (t.cntRev + 1) % 2 ^ 32 else t.cntRev
    cntInc := if i.outcome = 1 then (t.cntInc + 1) % 65536 else t.cntInc
    cntRej := if i.outcome = 2 then (t.cntRej + 1) % 65536 else t.cntRej
    lastStamp := some i.stamp
    lastAcc := if i.outcome = 0 then some { stamp := i.stamp, rev := i.rev, rocked := i.rocked } else t.lastAcc
    issuedEnds := if i.outcome = 1 then t.issuedEnds else i.ended :: t.issuedEnds }

section
variable {β : Type} {W : TrnHead → β} (flag : ∀ (t : TrnHead) (w : Word), W { t with fault := w } = W t)
  (h : HeadId) (s : State)
include flag
theorem flagTrn_unflagged (n : Nat) : W ((flagTrn h n s).head h).trn = W (s.head h).trn := by
  rw [flagTrn_head]; exact flag ..
theorem countPassage_counts (seq : Nat) (i : Issued) :
    W ((countPassage h seq i s).head h).trn = W ((s.head h).trn.counted seq i) := by
  unfold countPassage
  extract_lets u _ v
  have counted : (u.head h).trn = (s.head h).trn.counted seq i := by
    unfold u
    rw [modTrn_head_same]
    rfl
  have same : v.head h = u.head h := rfl
  clear_value v u
  simp only [head_ite (V := fun x => W x.trn), flagTrn_unflagged flag, trig_head, same, counted, ite_self]
theorem recordPassage_unflagged (seq : Nat) (i : Issued) :
    W ((recordPassage h seq i s).head h).trn = W (s.head h).trn := by
  have dropped : ∀ (r : StreamRec) (u : State), r.head = some h → r.sec = none →
      W ((countDrop r u).head h).trn = W (u.head h).trn := fun r u own none_ => by
    simp only [countDrop, own, none_]
    exact flagTrn_unflagged flag h _ 5
  unfold recordPassage queueRec offerRec
  dsimp only
  rw [head_ite (V := fun x => W x.trn), head_ite (V := fun x => W x.trn), head_ite (V := fun x => W x.trn),
    dropped _ _ rfl rfl, offer_head, ite_self]
  exact (congrArg (ite _ · _) (ite_self _)).trans (ite_self _)
/-- An issue counts the passage and may set flags: nothing else of the transit family moves. -/
theorem issue_counts (i : Issued) : W ((issue h i s).head h).trn =
    W ((s.head h).trn.counted (((s.head h).trn.seq + 1) % 65536) i) := by
  simp only [issue, recordPassage_unflagged flag, surveyPassage_head, deliverPassage_head, activity_head,
    countPassage_counts flag]
end

/-- A flag that is set stays set under further ones. -/
theorem flagTrn_keeps {h : HeadId} {s : State} {k : Nat} (set_ : bit (s.head h).trn.fault k = true) (n : Nat) :
    bit ((flagTrn h n s).head h).trn.fault k = true := by
  rw [flagTrn_head]
  simp [bit_or, set_]

/-- A rejected passage sets its flag (R162). -/
theorem issue_rejected {h : HeadId} {i : Issued} {s : State} (rejected : i.outcome = 2) :
    bit ((issue h i s).head h).trn.fault 0 = true := by
  have flagged : bit ((countPassage h (((s.head h).trn.seq + 1) % 65536) i s).head h).trn.fault 0 = true := by
    simp only [countPassage, rejected, if_true]
    rw [flagTrn_head]
    simp [bit_or, bit_bits_one]
  have offered : ∀ (r : StreamRec) (u : State), r.head = some h → r.sec = none →
      bit (u.head h).trn.fault 0 = true → bit ((offerRec r u).head h).trn.fault 0 = true := fun r u own none_ set_ => by
    unfold offerRec
    dsimp only
    split
    · simpa using set_
    · simp only [countDrop, own, none_]
      refine flagTrn_keeps ?_ 5
      exact (congrArg (fun x : Head => bit x.trn.fault 0) (offer_head ..)).trans set_
  have recorded : ∀ (seq : Nat) (u : State), bit (u.head h).trn.fault 0 = true →
      bit ((recordPassage h seq i u).head h).trn.fault 0 = true := fun seq u set_ => by
    unfold recordPassage queueRec
    extract_lets g want
    split
    · split
      · exact offered _ u rfl rfl set_
      · exact set_
    · exact set_
  simp only [issue]
  exact recorded _ _ (by simpa using flagged)

/-- What no issue and no abort touches of the transit family: the set-up words, the references, the slices and the
passages held. -/
structure Lasting {β : Type} (W : TrnHead → β) : Prop where
  flag (t : TrnHead) (w : Word) : W { t with fault := w } = W t
  count (t : TrnHead) (seq : Nat) (i : Issued) : W (t.counted seq i) = W t
  stop (t : TrnHead) (a : Option Nat) (n : Nat) :
    W { t with st := .wait, pass := none, lastEnd := a, idleSince := n } = W t

theorem abortHead_lasting {β : Type} {W : TrnHead → β} (last : Lasting W) (h : HeadId) (reason : Nat) (s : State) :
    W ((abortHead h reason s).head h).trn = W (s.head h).trn := by
  have stops : ∀ t : TrnHead, W { t with st := .wait, pass := none } = W t := fun t => last.stop t t.lastEnd t.idleSince
  simp only [abortHead]
  split
  · rw [issue_counts last.flag, last.count, modTrn_head_same, modTrn_head_same]
    exact last.stop (s.head h).trn ..
  · rw [modTrn_head_same]; exact stops _

theorem words_last : Lasting trnHeld := ⟨fun _ _ => rfl, fun _ _ _ => rfl, fun _ _ _ => rfl⟩
theorem baseref_last : Lasting TrnHead.baseref := ⟨fun _ _ => rfl, fun _ _ _ => rfl, fun _ _ _ => rfl⟩
theorem slice_last : Lasting TrnHead.slice := ⟨fun _ _ => rfl, fun _ _ _ => rfl, fun _ _ _ => rfl⟩

/-! ### Commands (R164 to R167) -/

section
variable {p : List Byte} {seq : Nat} {s : State} {h : HeadId} (ha : headArg p 0 = some h) (hu : headUp s h = true)

/-- The words that TRN_SET carries. -/
def trnWordsOf (p : List Byte) : TrnWords :=
  trnMask { geom := wordArg p 2, det := wordArg p 6, val := wordArg p 10, valb := wordArg p 14,
            len := wordArg p 18, lenb := wordArg p 22, cal := wordArg p 26 }

include ha hu
theorem trnSet_refuses {st : Status} {code : Nat} (bad : trnTest h (trnWordsOf p) s = some (st, code)) :
    trnSet p seq s = complete seq st code [] (s.modTrn h (fun t => { t with result := code })) := by
  rw [trnSet, withHead_named ha hu]
  dsimp only
  rw [← trnWordsOf, bad]
  rfl

theorem trnSet_stores (ok : trnTest h (trnWordsOf p) s = none) :
    ∃ v, trnSet p seq s = complete seq .ok 0 [] v ∧ v.hp = s.hp ∧ trnHeld (v.head h).trn = trnWordsOf p ∧
      (v.head h).trn.result = 0 ∧ OtherHeadsKept h s v := by
  have words : ∀ t : TrnHead, trnHeld (trnStore (trnWordsOf p) t) = trnWordsOf p := fun _ => rfl
  rw [trnSet, withHead_named ha hu]
  dsimp only
  rw [← trnWordsOf, ok]
  dsimp only
  unfold trnAdmit
  split
  · refine ⟨_, rfl, rfl, ?_, ?_, otherHeads_of (by simp)⟩ <;> simp only [modTrn_head_same]
    exact words (s.head h).trn
  · refine ⟨_, rfl, ?_, ?_, ?_, otherHeads_of (by simp)⟩
    · simp
    · simp only [modTrn_head_same]; rfl
    · simp only [modTrn_head_same]

theorem trnSetref_unready (one : field p 2 1 = 1) (idle : trnBusyTest h s = none) (unready : setrefOk s h .sys1 = false) :
    trnSetref p seq s = complete seq .conflict 5 [] (s.modTrn h (fun t => { t with result := 5 })) := by
  rw [trnSetref, withHead_named ha hu]
  simp [one, idle, slices_one (m := 1) rfl, unready, trnOutcome, completeJob]

theorem trnSetref_captures (one : field p 2 1 = 1) (idle : trnBusyTest h s = none) (ready : setrefOk s h .sys1 = true)
    (still : setrefHead s h = true) :
    ∃ v, trnSetref p seq s = complete seq .ok 0 [] v ∧ v.hp = s.hp ∧
      (v.head h).trn.baseref = ⟨put 31 1 1 |||
        put 0 20 (sumNat ((s.head h).trn.slice.one.okMags.take 10000) / 10000), (s.head h).trn.baseref.two⟩ ∧
      bit (v.head h).trn.fault 6 = true ∧ (v.head h).trn.st = .wait ∧ OtherHeadsKept h s v := by
  rw [trnSetref, withHead_named ha hu]
  simp only [one, idle, slices_one (m := 1) rfl, ready, still, List.all_cons, List.all_nil, Bool.and_self, if_true, foldOver,
    List.foldl]
  rw [if_neg (by omega)]
  refine ⟨_, rfl, by simp, ?_, ?_, ?_, otherHeads_of (by simp)⟩ <;> rw [modTrn_head_same, flagTrn_head]
  · refine (abortHead_lasting baseref_last ..).trans ?_
    rw [modTrn_head_same]
    rfl
  · simp [bit_or, bit_bits_one]
  · exact abortHead_st ..

theorem trnStatus_reads : trnStatus p seq s = complete seq .ok 0 (leWords (trnRegs s h)) s := by
  rw [trnStatus, withHead_named ha hu]
end

/-- Settles O18, command by command. -/
theorem transitCommands : Obligations.Transit_commands := by
  unfold Obligations.Transit_commands
  intro t c s h ha hu
  have up : ∀ e ob ir ou, headUp (s.admitted t e ob ir ou) h = true := fun _ _ _ _ => hu
  refine ⟨fun A => ⟨fun ok => ?_, fun st code bad => ?_⟩, fun A one idle => ⟨fun ready still => ?_, fun unready => ?_⟩,
    fun A => ?_⟩
  · obtain ⟨e, ob, ir, ou, ad, run⟩ := command_runs 0x0250 (trnSet c.payload) A
    obtain ⟨v, done_, hp, words, result, others⟩ := trnSet_stores (seq := s.hp.admSeq) ha (up e ob ir ou) ok
    exact ⟨v, congrArg Host.Outcome.next (run.trans done_), ad.congr hp, words, result, others⟩
  · exact answers_of A rfl fun e ob ir ou => ⟨_, trnSet_refuses ha (up e ob ir ou) bad, rfl, rfl⟩
  · obtain ⟨e, ob, ir, ou, ad, run⟩ := command_runs 0x0251 (trnSetref c.payload) A
    obtain ⟨v, done_, hp, ref, flag, waits, others⟩ :=
      trnSetref_captures (seq := s.hp.admSeq) ha (up e ob ir ou) one idle ready still
    exact ⟨v, congrArg Host.Outcome.next (run.trans done_), ad.congr hp, ref, flag, waits, others⟩
  · exact answers_of A rfl fun e ob ir ou => ⟨_, trnSetref_unready ha (up e ob ir ou) one idle unready, rfl, rfl⟩
  · exact answers_of A rfl fun e ob ir ou => ⟨_, trnStatus_reads ha (up e ob ir ou), rfl, rfl⟩

end Sys2Proof.Machine
end

section
/-! SUPPORT. The state machine of a head's transit logic and the issue of a held passage (R146 to R157). Settles O19. -/
namespace Sys2Proof.Machine

/-! ### Depth (R146) -/

section
variable (h : HeadId) (x : Sys) (tk : Nat) (fromWait : Bool) (s : State)

/-- Forming a depth writes its own slice alone, which then shows the depth formed. -/
theorem formDepth_writes : ∃ f : TrnSlice → TrnSlice,
    (formDepth h x tk fromWait s).2 = s.modTrnSlice h x f ∧ ∀ v, (f v).depth = (formDepth h x tk fromWait s).1.depth :=
  ⟨_, rfl, fun _ => rfl⟩

theorem formDepth_depth : (formDepth h x tk fromWait s).1.depth =
    depthOf (baseInt (if fromWait then baseFrom (s.head h).trn x ((s.head h).flt.slice.get x).sample.mag
      else ((s.head h).trn.slice.get x).base)) ((s.head h).flt.slice.get x).sample.mag := rfl

theorem formDepth_dip : (formDepth h x tk fromWait s).1.dip =
    if ((s.head h).trn.slice.get x).dip then decide (offDepth (s.head h).trn < (formDepth h x tk fromWait s).1.depth)
    else decide (onDepth (s.head h).trn ≤ (formDepth h x tk fromWait s).1.depth) := rfl

end

/-- Moving a baseline writes the slice and its flag alone. -/
theorem moveBase_hidden {β : Type} {W : TrnHead → β} (slice : ∀ (t : TrnHead) (v : Pair TrnSlice), W { t with slice := v } = W t)
    (flag : ∀ (t : TrnHead) (w : Word), W { t with fault := w } = W t) (h : HeadId) (x : Sys) (s : State) :
    W ((moveBase h x s).head h).trn = W (s.head h).trn := by
  simp only [moveBase]
  split
  · rw [flagHead_head, modTrnSlice_head_same]; exact (flag ..).trans (slice ..)
  · rw [modTrnSlice_head_same]; exact slice ..

@[simp] theorem moveBase_sections (h : HeadId) (x : Sys) (s : State) : (moveBase h x s).sections = s.sections := by
  simp only [moveBase]
  split
  · exact flagHead_sections ..
  · rfl

/-! ### The machine (R151) -/

/-- With both samples good and a passage that does not end, the machine takes the state of the dip pair, and the passage
goes on or begins. -/
theorem machineStep_goes {h : HeadId} {tk : Nat} {s : State} {a b : Bool}
    (one : (formDepth h .sys1 tk ((s.head h).trn.st == .wait) s).1.dip = a)
    (two : (formDepth h .sys2 tk ((s.head h).trn.st == .wait) s).1.dip = b)
    (goes : ∀ p, (stepState (s.head h).trn.st p a b tk).2.2 = false) :
    ∃ p, ((machineStep h tk s).head h).trn.st = (stepState (s.head h).trn.st p a b tk).1 ∧
      ((machineStep h tk s).head h).trn.pass =
        (if inPassage (stepState (s.head h).trn.st p a b tk).1 then some (stepState (s.head h).trn.st p a b tk).2.1
          else none) ∧
      ((s.head h).trn.pass = none → p.reversals = 0) ∧ (machineStep h tk s).sections = s.sections := by
  unfold machineStep
  extract_lets t f r1 r2 u p0 p n v w
  have wrote1 : ∃ f, r1.2 = s.modTrnSlice h .sys1 f := (formDepth_writes ..).imp fun _ w => w.1
  have wrote2 : ∃ f, u = r1.2.modTrnSlice h .sys2 f := (formDepth_writes ..).imp fun _ w => w.1
  have dip2 : r2.1.dip = b := by
    obtain ⟨f1, wrote1⟩ := wrote1
    rw [← two]
    simp only [r2, t, wrote1, formDepth_dip, formDepth_depth, offDepth, onDepth, baseFrom, refOf, modTrnSlice_head_same,
      Pair.mod, Pair.set, Pair.get]
    rfl
  have taken : n = stepState t.st p a b tk := by
    unfold n
    rw [dip2, show r1.1.dip = a from one]
  have sections : u.sections = s.sections := by
    obtain ⟨f1, wrote1⟩ := wrote1
    obtain ⟨f2, wrote2⟩ := wrote2
    rw [wrote2, wrote1]
    rfl
  have ended : n.2.2 = false := by rw [taken]; exact goes p
  have stepped : w = v.modTrn h (fun t => { t with pass := if inPassage n.1 then some n.2.1 else none }) := by
    unfold w
    rw [ended]
    rfl
  have begins : (s.head h).trn.pass = none → p.reversals = 0 := fun none_ => by
    simp only [p, p0, t, none_]
    rfl
  have based : ∀ {β : Type} (W : TrnHead → β) (_ : ∀ t v, W { t with slice := v } = W t)
      (_ : ∀ t k, W { t with fault := k } = W t),
      W ((if n.1 == .idle && (w.head h).trn.held.isEmpty then onBoth (moveBase h) w else w).head h).trn = W (w.head h).trn :=
    fun W slice flag => by
      rw [head_ite (V := fun x => W x.trn)]
      simp only [onBoth, moveBase_hidden slice flag, ite_self]
  refine ⟨p, ?_, ?_, begins, ?_⟩
  · rw [based TrnHead.st (fun _ _ => rfl) fun _ _ => rfl, stepped, modTrn_head_same]
    unfold v
    rw [modTrn_head_same]
    exact congrArg Prod.fst taken
  · rw [based TrnHead.pass (fun _ _ => rfl) fun _ _ => rfl, stepped, modTrn_head_same, taken]
  · have sections : w.sections = s.sections := by rw [stepped]; exact sections
    rw [apply_ite State.sections]
    simp only [onBoth, moveBase_sections, sections, ite_self]

/-! ### The step (R145, R146) -/

section
variable {h : HeadId} {x : Sys} {tk : Nat} {s : State}

/-- What a tick that the machine does not take does to a slice. -/
def formGood (h : HeadId) (tk : Nat) (x : Sys) (s : State) : State :=
  if goodSample s h x then (formDepth h x tk false s).2 else s

theorem formGood_writes (h : HeadId) (tk : Nat) (x : Sys) (s : State) :
    ∃ f : TrnSlice → TrnSlice, formGood h tk x s = s.modTrnSlice h x f ∧
      (goodSample s h x = true → ∀ v, (f v).depth =
        depthOf (baseInt ((s.head h).trn.slice.get x).base) ((s.head h).flt.slice.get x).sample.mag) := by
  unfold formGood
  split
  · obtain ⟨f, wrote, depth⟩ := formDepth_writes h x tk false s
    exact ⟨f, wrote, fun _ v => (depth v).trans (formDepth_depth ..)⟩
  · next bad =>
    refine ⟨id, ?_, fun good => absurd good bad⟩
    refine (modHead_id s h _ ?_).symm
    cases x <;> rfl

theorem formDepths_depth (one : inUse s h .sys1 = true) (two : inUse s h .sys2 = true) (good : goodSample s h x = true) :
    (((formDepths h tk s).head h).trn.slice.get x).depth =
      depthOf (baseInt ((s.head h).trn.slice.get x).base) ((s.head h).flt.slice.get x).sample.mag := by
  have both : formDepths h tk s = formGood h tk .sys2 (formGood h tk .sys1 s) := by
    simp only [formDepths, usedSlices, one, two, List.filter, foldOver, List.foldl]
    rfl
  obtain ⟨f, wrote1, depth1⟩ := formGood_writes h tk .sys1 s
  obtain ⟨g, wrote2, depth2⟩ := formGood_writes h tk .sys2 (s.modTrnSlice h .sys1 f)
  rw [both, wrote1, wrote2, modTrnSlice_head_same, modTrnSlice_head_same]
  cases x with
  | sys1 => exact depth1 good _
  | sys2 =>
    refine (depth2 ?_ _).trans ?_
    · simpa [goodSample] using good
    · simp [Pair.mod, Pair.set]

end

section
variable {h : HeadId} {s : State} (run : inRun s h = true) (one : inUse s h .sys1 = true) (two : inUse s h .sys2 = true)
  (arrived : samplesIn s h = true) (fresh : (s.head h).trn.histTick ≠ s.epc.tickAt)

include one two in
theorem usedSlices_both : usedSlices s h = [.sys1, .sys2] := by simp [usedSlices, one, two]

include run arrived fresh in
/-- A tick whose samples are in, not yet stepped, steps once (R145). -/
theorem transitStep_runs : transitStep h s =
    let u := s.modTrn h (fun t => { t with histTick := s.epc.tickAt })
    if !(usedSlices u h).all (goodSample u h) then
      let v := formDepths h (s.epc.tickAt - 1) u
      if (v.head h).trn.st == .wait then v
      else abortHead h
        (if (usedSlices v h).all (fun x => ((s.head h).flt.slice.get x).sample.valid) then 3 else 2) v
    else if !(inUse u h .sys1 && inUse u h .sys2) then formDepths h (s.epc.tickAt - 1) u
    else machineStep h (s.epc.tickAt - 1) u := by
  have fresh : ((s.head h).trn.histTick == s.epc.tickAt) = false := by simpa using fresh
  unfold transitStep
  extract_lets f tk u v
  rw [if_neg (by simp [run, arrived, fresh])]

/-- The step's mark changes nothing that the samples are judged by. -/
theorem usedSlices_marked (n : Nat) : usedSlices (s.modTrn h (fun t => { t with histTick := n })) h = usedSlices s h := by
  have used : inUse (s.modTrn h (fun t => { t with histTick := n })) h = inUse s h := by
    funext x
    simp [inUse]
  rw [usedSlices, used]
  rfl
theorem goodSample_marked (n : Nat) (x : Sys) :
    goodSample (s.modTrn h (fun t => { t with histTick := n })) h x = goodSample s h x := by
  simp [goodSample]

include run one two arrived fresh
/-- Samples of both slices in use that are good go to the machine (R151). -/
theorem transitStep_machine (good : ∀ x, goodSample s h x = true) : transitStep h s =
    machineStep h (s.epc.tickAt - 1) (s.modTrn h (fun t => { t with histTick := s.epc.tickAt })) := by
  have used : ∀ x, inUse (s.modTrn h (fun t => { t with histTick := s.epc.tickAt })) h x = inUse s h x := fun x => by
    simp [inUse]
  rw [transitStep_runs run arrived fresh]
  simp [usedSlices_marked, usedSlices_both one two, goodSample_marked, good, used, one, two]

/-- An invalid sample takes the head to WAIT; each good one forms its depth all the same (R146). -/
theorem transitStep_invalid {x : Sys} (bad : ((s.head h).flt.slice.get x).sample.valid = false) :
    ((transitStep h s).head h).trn.st = .wait ∧ ∀ y, goodSample s h y = true →
      (((transitStep h s).head h).trn.slice.get y).depth =
        depthOf (baseInt ((s.head h).trn.slice.get y).base) ((s.head h).flt.slice.get y).sample.mag := by
  have unfit : goodSample s h x = false := by simp [goodSample, bad]
  rw [transitStep_runs run arrived fresh]
  extract_lets u v
  have some_bad : (!(usedSlices u h).all (goodSample u h)) = true := by
    simp only [u, usedSlices_marked, usedSlices_both one two]
    cases x <;> simp [goodSample_marked, unfit]
  rw [if_pos some_bad]
  have formed : ∀ y, goodSample s h y = true → ((v.head h).trn.slice.get y).depth =
      depthOf (baseInt ((s.head h).trn.slice.get y).base) ((s.head h).flt.slice.get y).sample.mag := fun y good => by
    have used : ∀ z, inUse u h z = inUse s h z := fun z => by simp [u, inUse]
    refine (formDepths_depth (by rw [used, one]) (by rw [used, two]) (by rw [goodSample_marked, good])).trans ?_
    simp [u]
  split
  · next waits => exact ⟨by simpa using waits, formed⟩
  · refine ⟨abortHead_st .., fun y good => ?_⟩
    rw [abortHead_lasting slice_last]
    exact formed y good
end

section
variable {h : HeadId} {x : Sys} {tk n : Nat} {s : State}

/-- The depth that a slice forms from its latest sample as the machine stands. -/
def depthNow (s : State) (h : HeadId) (x : Sys) : Nat :=
  depthOf (baseInt (if (s.head h).trn.st == .wait then baseFrom (s.head h).trn x ((s.head h).flt.slice.get x).sample.mag
    else ((s.head h).trn.slice.get x).base)) ((s.head h).flt.slice.get x).sample.mag

/-- A slice out of dip enters one at this tick if its depth reaches ON. -/
theorem formDepth_marked (out : ((s.head h).trn.slice.get x).dip = false) :
    (formDepth h x tk (((s.modTrn h (fun t => { t with histTick := n })).head h).trn.st == .wait)
      (s.modTrn h (fun t => { t with histTick := n }))).1.dip = decide (onDepth (s.head h).trn ≤ depthNow s h x) := by
  simp only [formDepth_dip, formDepth_depth, modTrn_head_same, out, depthNow]
  rfl

end

/-- The state that the machine takes from IDLE as a slice alone enters its dip. -/
def entered : Sys → TrnState
  | .sys1 => .one
  | .sys2 => .two

section
variable {h : HeadId} {s : State} (run : inRun s h = true) (one : inUse s h .sys1 = true) (two : inUse s h .sys2 = true)
  (arrived : samplesIn s h = true) (fresh : (s.head h).trn.histTick ≠ s.epc.tickAt)
  (good : ∀ x, goodSample s h x = true) (out : ∀ x, ((s.head h).trn.slice.get x).dip = false)
include run one two arrived fresh good out

/-- The machine leaves WAIT for IDLE where neither slice enters a dip (R151). -/
theorem transitStep_settles (waits : (s.head h).trn.st = .wait)
    (shallow : ∀ x, depthNow s h x < onDepth (s.head h).trn) :
    ((transitStep h s).head h).trn.st = .idle ∧ ((transitStep h s).head h).trn.pass = none ∧
      (transitStep h s).sections = s.sections := by
  rw [transitStep_machine run one two arrived fresh good]
  have waits' : ((s.modTrn h (fun t => { t with histTick := s.epc.tickAt })).head h).trn.st = .wait := by simpa using waits
  obtain ⟨p, st, pass, -, sections⟩ := machineStep_goes (a := false) (b := false)
    ((formDepth_marked (out .sys1)).trans (decide_eq_false (Nat.not_le.mpr (shallow .sys1))))
    ((formDepth_marked (out .sys2)).trans (decide_eq_false (Nat.not_le.mpr (shallow .sys2))))
    (tk := s.epc.tickAt - 1) (fun p => by rw [waits']; rfl)
  rw [waits'] at st pass
  exact ⟨st, pass, sections⟩

/-- The machine leaves IDLE for ONE or TWO with the one slice that enters its dip (R151). -/
theorem transitStep_enters {x : Sys} (idle : (s.head h).trn.st = .idle) (none_ : (s.head h).trn.pass = none)
    (deep : onDepth (s.head h).trn ≤ depthNow s h x) (shallow : depthNow s h x.other < onDepth (s.head h).trn) :
    ((transitStep h s).head h).trn.st = entered x ∧
    (∃ p, ((transitStep h s).head h).trn.pass = some p ∧ p.entry = x ∧ p.reversals = 0) ∧
      (transitStep h s).sections = s.sections := by
  rw [transitStep_machine run one two arrived fresh good]
  have idle' : ((s.modTrn h (fun t => { t with histTick := s.epc.tickAt })).head h).trn.st = .idle := by simpa using idle
  have none' : ((s.modTrn h (fun t => { t with histTick := s.epc.tickAt })).head h).trn.pass = none := by
    simpa using none_
  have enters := fun n => (formDepth_marked (tk := s.epc.tickAt - 1) (n := n) (out x)).trans (decide_eq_true deep)
  have stays := fun n => (formDepth_marked (tk := s.epc.tickAt - 1) (n := n) (out x.other)).trans
    (decide_eq_false (Nat.not_le.mpr shallow))
  cases x with
  | sys1 =>
    obtain ⟨p, st, pass, first, sections⟩ := machineStep_goes (enters _) (stays _) fun p => by rw [idle']; rfl
    rw [idle'] at st pass
    exact ⟨st, ⟨_, pass, rfl, first none'⟩, sections⟩
  | sys2 =>
    obtain ⟨p, st, pass, first, sections⟩ := machineStep_goes (stays _) (enters _) fun p => by rw [idle']; rfl
    rw [idle'] at st pass
    exact ⟨st, ⟨_, pass, rfl, first none'⟩, sections⟩
end

/-! ### The issue of a held passage (R155, R157) -/

theorem passageValidation_due {h : HeadId} {s : State} {p : Passage} {rest : List Passage}
    (held : (s.head h).trn.held = p :: rest) (due : p.endAt + 1000000000 ≤ s.now) :
    passageValidation h s = issuePassage h p 0 (s.modTrn h (fun t => { t with held := rest })) := by
  have due : p.endAt + ms 1 ≤ s.now := due
  simp [passageValidation, held, due]

theorem signature_head (h g : HeadId) (p : Passage) (m : Measure) (s : State) :
    ((signature h p m s).2.head g) = s.head g := by
  unfold signature
  split <;> rfl

/-- The issue of a held passage counts it with the outcome of the checks; no word of it is written but by the count. -/
theorem issuePassage_counts (h : HeadId) (p : Passage) (s : State) :
    ∃ i : Issued, (∀ {β : Type} (W : TrnHead → β), (∀ t w, W { t with fault := w } = W t) →
        (∀ t n, W { t with idleSince := n } = W t) → W ((issuePassage h p 0 s).head h).trn =
          W ((s.head h).trn.counted (((s.head h).trn.seq + 1) % 65536) i)) ∧
      i.reason = validate p (measure p) (s.head h).trn.lastAcc ∧
      i.outcome = (if i.reason ≠ 0 then 2 else if p.incomplete then 1 else 0) ∧ i.rev = (measure p).rev ∧
      i.stamp = (measure p).stamp ∧ i.rocked = decide (0 < p.reversals) := by
  unfold issuePassage
  extract_lets m r sg i
  refine ⟨i, fun W flag idle => ?_, rfl, rfl, rfl, rfl, rfl⟩
  rw [modTrn_head_same, idle, issue_counts flag, signature_head]

theorem issuePassage_rejected {h : HeadId} {p : Passage} {s : State}
    (bad : validate p (measure p) (s.head h).trn.lastAcc ≠ 0) : bit ((issuePassage h p 0 s).head h).trn.fault 0 = true := by
  unfold issuePassage
  extract_lets m r sg i
  have rejected : i.outcome = 2 := if_pos bad
  rw [modTrn_head_same]
  exact issue_rejected rejected

/-- Settles O19: the machine's moves one by one, then the issue of a held passage. -/
theorem transitMachine : Obligations.Transit_machine := by
  unfold Obligations.Transit_machine
  intro t s h up
  have run : ∀ f, (Host.Outcome.next (whenAwake f (s.advance t)) : Host.Outcome State Fault Refusal) =
      .next (f (s.advance t)) := fun f => congrArg Host.Outcome.next (whenAwake_advance up)
  have goods : (∀ x, ((s.head h).flt.slice.get x).sample.valid = true ∧ ((s.head h).flt.slice.get x).sample.settled = true) →
      ∀ x, goodSample (s.advance t) h x = true := fun good x => by
    simp only [goodSample, Bool.and_eq_true]
    exact good x
  refine ⟨fun inrun one two arrived fresh => ⟨fun good out => ⟨fun waits shallow => ?_, fun x idle none_ deep shallow => ?_⟩,
    fun x bad => ?_⟩, fun p rest held due whole => ⟨fun ok => ?_, fun bad => ?_⟩⟩
  · have shallow' : ∀ x, depthNow (s.advance t) h x < onDepth ((s.advance t).head h).trn := fun x => by
      have waits' : ((s.advance t).head h).trn.st = .wait := waits
      rw [depthNow, waits']
      exact shallow x
    obtain ⟨st, pass, sections⟩ :=
      transitStep_settles (s := s.advance t) inrun one two arrived fresh (goods good) out waits shallow'
    exact ⟨_, run _, st, pass, otherHeads_of (by simp), sections⟩
  · have plain : ∀ y, depthNow (s.advance t) h y = depthOf (baseInt ((s.head h).trn.slice.get y).base)
        ((s.head h).flt.slice.get y).sample.mag := fun y => by
      have idle' : ((s.advance t).head h).trn.st = .idle := idle
      rw [depthNow, idle']
      rfl
    obtain ⟨st, begun, sections⟩ := transitStep_enters (s := s.advance t) inrun one two arrived fresh (goods good) out idle
      none_ (by rw [plain]; exact deep) (by rw [plain]; exact shallow)
    exact ⟨_, run _, st, begun, otherHeads_of (by simp), sections⟩
  · obtain ⟨waits, depths⟩ := transitStep_invalid (s := s.advance t) inrun one two arrived fresh bad
    exact ⟨_, run _, waits, depths, otherHeads_of (by simp)⟩
  all_goals
    obtain ⟨i, counts, reason, outcome, rev, stamp, rocked⟩ :=
      issuePassage_counts h p ((s.advance t).modTrn h (fun b => { b with held := rest }))
    rw [modTrn_head_same] at reason
    refine ⟨_, (run _).trans (congrArg _ (passageValidation_due (s := s.advance t) held due)), ?_⟩
    rw [modTrn_head_same] at counts
  · have outcome : i.outcome = 0 := by rw [outcome, if_neg (by rw [reason]; exact not_not.mpr ok), whole]; rfl
    refine ⟨?_, ?_, ?_, ?_, ?_, ?_, otherHeads_of (by simp)⟩
    · exact counts TrnHead.held (fun _ _ => rfl) fun _ _ => rfl
    · exact counts TrnHead.seq (fun _ _ => rfl) fun _ _ => rfl
    · refine (counts TrnHead.cntFwd (fun _ _ => rfl) fun _ _ => rfl).trans ?_
      cases dir : (measure p).rev <;> simp [TrnHead.counted, outcome, rev, dir] <;> rfl
    · refine (counts TrnHead.cntRev (fun _ _ => rfl) fun _ _ => rfl).trans ?_
      cases dir : (measure p).rev <;> simp [TrnHead.counted, outcome, rev, dir] <;> rfl
    · refine (counts TrnHead.cntRej (fun _ _ => rfl) fun _ _ => rfl).trans ?_
      simp [TrnHead.counted, outcome]
    · refine (counts TrnHead.lastAcc (fun _ _ => rfl) fun _ _ => rfl).trans ?_
      simp [TrnHead.counted, outcome, rev, stamp, rocked]
  · have outcome : i.outcome = 2 := by rw [outcome, if_pos (by rw [reason]; exact bad)]
    refine ⟨?_, ?_, ?_, ?_, ?_, ?_, otherHeads_of (by simp)⟩
    · exact counts TrnHead.held (fun _ _ => rfl) fun _ _ => rfl
    · refine (counts TrnHead.cntRej (fun _ _ => rfl) fun _ _ => rfl).trans ?_
      simp [TrnHead.counted, outcome]
    · refine (counts TrnHead.cntFwd (fun _ _ => rfl) fun _ _ => rfl).trans ?_
      simp [TrnHead.counted, outcome]
    · refine (counts TrnHead.cntRev (fun _ _ => rfl) fun _ _ => rfl).trans ?_
      simp [TrnHead.counted, outcome]
    · refine (counts TrnHead.lastAcc (fun _ _ => rfl) fun _ _ => rfl).trans ?_
      simp [TrnHead.counted, outcome]
    · exact issuePassage_rejected (by rw [modTrn_head_same]; exact bad)

end Sys2Proof.Machine
end

section
/-! SUPPORT. Hand-over marks (R138, R249). Settles O34. -/
namespace Sys2Proof.Machine

section
variable {h : HeadId} {x : Sys} {s : State}

/-- A gap of at most 8.000 us begins at a slice that has none (R113). -/
theorem beginGap_first {from_ : Nat} (noGap : ((s.head h).flt.slice.get x).gap = none) (short : s.now ≤ from_ + 8000000) :
    beginGap h x from_ s = s.modFltSlice h x (fun f => { f with
      gap := some { start := from_, stop := none, unbridged := false, settled := settled s h x } }) := by
  have opened : s.modFltSlice h x (openGap from_ (settled s h x)) = s.modFltSlice h x (fun f => { f with
      gap := some { start := from_, stop := none, unbridged := false, settled := settled s h x } }) := by
    refine modHead_congr _ _ _ _ ?_
    simp only [Pair.mod, openGap, noGap]
  simp only [beginGap, opened, modFltSlice_head_same, pair_get_mod_same, Bool.false_and, Bool.false_eq_true, if_false]
  exact unbridge_not_yet (g := { start := from_, stop := none, unbridged := false, settled := settled s h x }) (by simp) short

/-- A mark of a slice in RUN opens its gap and holds its envelope (R249). -/
theorem raiseMark_first (run : inRun s h = true) (used : inUse s h x = true)
    (noMark : ((s.head h).flt.slice.get x).mark = none) (noGap : ((s.head h).flt.slice.get x).gap = none) :
    raiseMark h x s = (s.modFltSlice h x (fun f => { f with
        mark := some s.now
        gap := some { start := s.now - 1000000, stop := none, unbridged := false, settled := settled s h x } })).modCmpSlice
      h x (fun c => { c with envHold := some (s.now + 8000000) }) := by
  have begun : beginGap h x (s.now - us 1) s = _ := beginGap_first noGap (by unfold us; omega)
  simp only [raiseMark, run, used, noMark, Option.isNone_none, Bool.and_self, if_true]
  rw [begun, modFltSlice_modFltSlice]
  rfl

/-- A mark ends with its gap, which is bridged, where no invalid run goes on (R249, R114). -/
theorem markEnd_bridges {g : Gap} {t0 : Nat} (mark : ((s.head h).flt.slice.get x).mark = some t0)
    (noInv : ((s.head h).flt.slice.get x).inv = none) (gap : ((s.head h).flt.slice.get x).gap = some g)
    (running : g.stop = none) (fresh : g.unbridged = false) (short : s.now ≤ g.start + 8000000) :
    ∃ u : State, markEnd h x s = flagHead .flt h (sliceFlag 0 x) (u.modFltSlice h x (fun f => { f with
        gap := some { g with stop := some s.now }, gapLast := satNat 8 ((s.now - g.start) / 100000)
        bridgeSpans := (g.start, s.now) :: f.bridgeSpans, gapBridged := (f.gapBridged + 1) % 65536 })) ∧
      u.head h = { s.head h with
        flt := { (s.head h).flt with slice := (s.head h).flt.slice.mod x (fun f => { f with mark := none }) }
        cmp := { (s.head h).cmp with slice := (s.head h).cmp.slice.mod x (fun c => { c with envHold := none }) } } ∧
      u.sections = s.sections := by
  unfold markEnd
  extract_lets f len z u v w
  have ends : f.mark.isSome = true := by simp [f, mark]
  have quiet : ¬ f.inv.isSome = true := by simp [f, noInv]
  have head : w.head h = { s.head h with
      flt := { (s.head h).flt with slice := (s.head h).flt.slice.mod x (fun f => { f with mark := none }) }
      cmp := { (s.head h).cmp with slice := (s.head h).cmp.slice.mod x (fun c => { c with envHold := none }) } } := by
    unfold w v
    rw [modCmpSlice_head_same, modFltSlice_head_same]
    rfl
  have still : w.now = s.now := rfl
  rw [if_pos ends, if_neg quiet, endGap_bridges ?_ fresh running (by rw [still]; exact short), still]
  · exact ⟨w, rfl, head, rfl⟩
  · simpa [head] using gap
end

/-- Settles O34, a mark's begin and its end. -/
theorem handoverMarks : Obligations.Handover_marks := by
  unfold Obligations.Handover_marks
  intro t s h x up
  have run : ∀ f, (Host.Outcome.next (whenAwake f (s.advance t)) : Host.Outcome State Fault Refusal) =
      .next (f (s.advance t)) := fun f => congrArg Host.Outcome.next (whenAwake_advance up)
  refine ⟨fun ready listens inrun used noMark noGap => ?_, fun g t0 mark noInv gap running fresh short => ?_⟩
  · have marked := raiseMark_first (s := s.advance t) inrun used noMark noGap
    have ready' : handOverReady (s.advance t) = true := ready
    refine (run _).trans (congrArg _ (Eq.trans ?_ marked))
    unfold markRaise
    extract_lets listening won cause
    have caused : cause = true := by simp [cause, listening, listens]
    rw [if_pos (by rw [ready', caused]; rfl)]
  · obtain ⟨u, ended, head, sections⟩ := markEnd_bridges (s := s.advance t) mark noInv gap running fresh short
    refine ⟨_, run _, ?_, ?_, ?_, otherHeads_of (by simp), ?_⟩
    all_goals rw [ended]
    · simp [head]
    · simp [flagHead_head, setHeadFault, head]
    · simp
    · rw [flagHead_sections]; exact sections

end Sys2Proof.Machine
end

section
/-! SUPPORT. The commands of a section at admission (R171, R186 to R191, R196). Settles O20, O22. -/
namespace Sys2Proof.Machine

/-- A command that names a section acts on it. -/
theorem withSec_named {p : List Byte} {seq : Nat} {f : SecId → State → State} {s : State} {n : SecId}
    (ha : secArg p 0 = some n) : withSec p seq f s = f n s := by
  simp [withSec, ha]

/-! ### Bindings (R171) -/

theorem fld_lt (w : Word) (lo n : Nat) : fld w lo n < 2 ^ n := Nat.mod_lt _ (Nat.two_pow_pos n)

/-- A section is bound to the heads of its valid bindings. -/
theorem boundTo_iff (h : HeadId) (x : Section) : boundTo h x = true ↔ h ∈ boundHeads x := by
  have named : ∀ w : Word, fld w 0 8 = h.val ↔ Fin.ofNat 256 (fld w 0 8) = h := fun w => by
    rw [Fin.ext_iff, Fin.val_ofNat, Nat.mod_eq_of_lt (show _ < 256 from fld_lt w 0 8)]
  simp only [boundTo, boundHeads, List.any_eq_true, List.mem_map, List.mem_filter, Bool.and_eq_true, beq_iff_eq, named,
    and_assoc]

/-- Masking the entries of a list masks the entry that a register takes. -/
theorem getD_masked (l : List Word) (k : Nat) : (l.map (fun w => w &&& 0x81FF)).getD k 0 = l.getD k 0 &&& 0x81FF :=
  List.getD_map _ (0 : Word) (fun w : Word => w &&& 0x81FF)

section
variable (n : SecId) (words : List Word) (s : State)

/-- Storing bindings replaces the eight words and restarts the quiet time; it may trip, and does for a head added. -/
theorem storeBind_sec : ∃ l log, (storeBind n words s) = s.modSec n (fun x => { x with
      bind := tabulate 8 (fun k => words.getD k 0 &&& 0x81FF), quietEl := 0, latch := l, latchLog := log }) ∧
    ((s.sec n).latch = true → l = true) ∧
    (∀ h, boundTo h { s.sec n with bind := tabulate 8 (fun k => words.getD k 0 &&& 0x81FF) } = true →
      boundTo h (s.sec n) = false → l = true) := by
  unfold storeBind
  extract_lets old u added
  have stored : u.sec n = { s.sec n with
      bind := tabulate 8 (fun k => words.getD k 0 &&& 0x81FF), quietEl := 0 } := by simp [u]
  have adds : ∀ h, boundTo h { s.sec n with bind := tabulate 8 (fun k => words.getD k 0 &&& 0x81FF) } = true →
      boundTo h (s.sec n) = false → added = true := fun h new gone => by
    rw [boundTo_iff] at new
    refine List.any_eq_true.mpr ⟨h, by rw [stored]; exact new, ?_⟩
    have absent : h ∉ boundHeads (s.sec n) := fun mem => by simp [(boundTo_iff h _).mpr mem] at gone
    simpa [old] using absent
  cases hadd : added with
  | false =>
    refine ⟨(s.sec n).latch, (s.sec n).latchLog, ?_, id, fun h new gone => ?_⟩
    · exact modSec_congr _ _ _ _ rfl
    · rw [adds h new gone] at hadd; cases hadd
  | true =>
    refine ⟨true, (Section.trip u.now (u.sec n)).latchLog, ?_, fun _ => rfl, fun _ _ _ => rfl⟩
    simp only [if_true]
    unfold u
    rw [modSec_modSec]
    refine modSec_congr _ _ _ _ ?_
    rw [modSec_sec_same]
    unfold Section.trip
    split
    · next latched => rw [← latched]
    · rfl

end

/-! ### SEC_BIND, SEC_SET, SEC_SERVICE, SEC_DISTURB (R186, R196) -/

section
variable {n : SecId} {seq : Nat} {s : State}

theorem secOutcome_job (code : Nat) : secOutcome n (some seq) code s =
    complete seq (if code = 0 then .ok else .conflict) code [] (s.modSec n (fun x => { x with statRes := code })) := rfl

theorem secBind_refuses {entries words : List Word} (bad : bindTest s n entries ≠ 0) :
    secBind n entries words (some seq) s = complete seq .conflict (bindTest s n entries) []
      (s.modSec n (fun x => { x with statRes := bindTest s n entries })) := by
  simp [secBind, bad, secOutcome_job]

theorem secBind_stores {entries words : List Word} (ok : bindTest s n entries = 0) :
    secBind n entries words (some seq) s = complete seq .ok 0 []
      ((storeBind n words s).modSec n (fun x => { x with statRes := 0 })) := by
  simp [secBind, ok, secOutcome_job]

theorem secSet_refuses {cfg m : Word} (bad : setTest s n cfg m ≠ 0) :
    secSet n cfg m (some seq) s = complete seq .conflict (setTest s n cfg m) []
      (s.modSec n (fun x => { x with statRes := setTest s n cfg m })) := by
  simp [secSet, bad, secOutcome_job]

theorem secSet_stores {cfg m : Word} (ok : setTest s n cfg m = 0) :
    secSet n cfg m (some seq) s = complete seq .ok 0 [] (s.modSec n (fun x => { x with
      cfg := cfg &&& cfgMask, match_ := m &&& matchMask, statRes := 0
      core := if secMode cfg = 0 then { x.core with ledger := [] } else x.core })) := by
  simp [secSet, ok, secOutcome_job]

end

/-- The entries that SEC_BIND carries. -/
def bindEntries (p : List Byte) : List Word :=
  (List.range (field p 2 1)).map (fun i => word (field p (4 + 2 * i) 2))

/-- SEC_BIND on the section it names, as `execSecBind` runs it. -/
def secBindCmd (p : List Byte) (seq : Nat) (n : SecId) (s : State) : State :=
  if 8 < field p 2 1 then secOutcome n (some seq) 1 s else secBind n (bindEntries p) (bindEntries p) (some seq) s

theorem secBindCmd_fits {p : List Byte} {seq : Nat} {n : SecId} {s : State} (fits : field p 2 1 ≤ 8) :
    secBindCmd p seq n s = secBind n (bindEntries p) (bindEntries p) (some seq) s := if_neg (Nat.not_lt.mpr fits)

/-- Settles O20, command by command. -/
theorem sectionCommands : Obligations.Section_commands := by
  unfold Obligations.Section_commands
  intro t c s n ha
  refine ⟨fun A small => ⟨fun ok => ?_, fun bad => ?_⟩, fun A => ⟨fun ok => ?_, fun bad => ?_⟩, fun A ok => ?_,
    fun A => ⟨fun role service => ?_, fun role => ?_⟩⟩
  · obtain ⟨e, ob, ir, ou, ad, run⟩ := command_runs 0x0260 (fun seq => withSec c.payload seq (secBindCmd c.payload seq)) A
    rw [withSec_named ha, secBindCmd_fits small,
      secBind_stores (s := s.admitted t e ob ir ou) (entries := bindEntries c.payload) ok] at run
    obtain ⟨l, log, stored, kept, adds⟩ := storeBind_sec n (bindEntries c.payload) (s.admitted t e ob ir ou)
    rw [stored, modSec_modSec] at run
    refine ⟨_, congrArg Host.Outcome.next run, ad.congr rfl, ?_, ?_, ?_, ?_, ?_, ?_,
      fun m other => modSec_sec_other _ _ _ _ other, rfl⟩ <;> rw [modSec_sec_same]
    · simp only [getD_masked]; rfl
    · rfl
    · exact kept
    · exact adds
  · exact answers_of A rfl fun e ob ir ou =>
      ⟨_, (withSec_named ha).trans ((secBindCmd_fits small).trans (secBind_refuses bad)), rfl, rfl⟩
  · exact answers_of A rfl fun e ob ir ou => ⟨_, (withSec_named ha).trans (secSet_stores ok), rfl, rfl⟩
  · exact answers_of A rfl fun e ob ir ou => ⟨_, (withSec_named ha).trans (secSet_refuses bad), rfl, rfl⟩
  · refine waits_of A rfl fun e ob ir ou => ?_
    have waits : secService n (field c.payload 2 1) (some s.hp.admSeq) (s.admitted t e ob ir ou) = _ := if_pos ok
    rw [withSec_named ha, waits]
    exact ⟨rfl, rfl⟩
  · refine waits_of A rfl fun e ob ir ou => ?_
    have serves : ¬(!((s.admitted t e ob ir ou).sec n).core.service) = true := by
      rw [show ((s.admitted t e ob ir ou).sec n).core.service = true from service]; decide
    have waits : secDisturb n (some s.hp.admSeq) (s.admitted t e ob ir ou) = _ :=
      (if_neg (not_not.mpr role)).trans (if_neg serves)
    rw [withSec_named ha, waits]
    exact ⟨rfl, rfl⟩
  · exact answers_of A rfl fun e ob ir ou => ⟨_, (withSec_named ha).trans (if_pos role), rfl, rfl⟩

/-! ### Reset commands (R187, R191) -/

/-- A section apart from the flags of SEC_FAULT. -/
def Section.unflagged (x : Section) : Section := { x with core := { x.core with fault := 0 } }

section
variable (n m : SecId) (s : State)
@[simp] theorem flagSec_unflagged (k : Nat) : ((flagSec n k s).sec m).unflagged = (s.sec m).unflagged := by
  rw [flagSec, modSec_sec]
  split <;> rfl
theorem flagSec_sec_other {m : SecId} (other : m ≠ n) (k : Nat) : (flagSec n k s).sec m = s.sec m :=
  modSec_sec_other _ _ _ _ other

/-- A section record that is dropped flags its section and does nothing else to any. -/
theorem queueSecRec_unflagged (b : List Byte) : ((queueSecRec n b s).sec m).unflagged = (s.sec m).unflagged := by
  unfold queueSecRec queueRec offerRec
  dsimp only
  split
  · split
    · rw [sec_of_device (offer_device ..)]
    · simp only [countDrop, flagSec_unflagged]
      exact congrArg Section.unflagged (sec_of_device (offer_device ..) m)
  · rfl
theorem queueSecRec_sec_other {m : SecId} (other : m ≠ n) (b : List Byte) : (queueSecRec n b s).sec m = s.sec m := by
  unfold queueSecRec queueRec offerRec
  dsimp only
  split
  · split
    · exact sec_of_device (offer_device ..) m
    · simp only [countDrop]
      rw [flagSec_sec_other _ _ other]
      exact sec_of_device (offer_device ..) m
  · rfl
@[simp] theorem queueSecRec_hp (b : List Byte) : (queueSecRec n b s).hp = s.hp := by
  simp [queueSecRec, queueRec, offerRec, apply_ite State.hp]
end

/-- What a token that is wrong does: result, count and flag; the section is otherwise as it was (R191). -/
theorem resetEnd_unauthorised (n : SecId) (direct : Bool) (seq code : Nat) (s : State) :
    ∃ v, resetEnd n direct seq .notAuthorised code s = complete seq .notAuthorised code [] v ∧ v.hp = s.hp ∧
      (v.sec n).unflagged = { (s.sec n).unflagged with authRes := code } ∧ bit (v.sec n).core.fault 7 = true ∧
      ∀ m, m ≠ n → v.sec m = s.sec m := by
  unfold resetEnd
  extract_lets a b c d
  have kept : (c.sec n).unflagged = { (s.sec n).unflagged with authRes := code } := by
    unfold c
    rw [sec_of_device (trig_device ..)]
    unfold b
    rw [queueSecRec_unflagged]
    simp only [a, modSec_sec_same]
    rfl
  have others : ∀ m, m ≠ n → c.sec m = s.sec m := fun m other => by
    unfold c
    rw [sec_of_device (trig_device ..)]
    unfold b
    rw [queueSecRec_sec_other _ _ other]
    exact modSec_sec_other _ _ _ _ other
  have hp : c.hp = s.hp := by simp [c, b, a]
  have flagged : d = flagSec n 7 c := if_pos rfl
  refine ⟨d, rfl, ?_, ?_, ?_, fun m other => ?_⟩ <;> rw [flagged]
  · simpa [flagSec] using hp
  · rw [flagSec_unflagged, kept]
  · simp [flagSec, bit_or, bit_bits_one]
  · rw [flagSec_sec_other _ _ other, others m other]

section
variable {n : SecId} {direct : Bool} {etok seq : Nat} {toks : List (Nat × List Byte)} {key : List Byte} {s : State}
  (role : s.zl.role = 2) (keyed : s.key = some key) (inWindow : tokenWindow s etok = true)

/-- The state in which the tests that follow the window see the section: its nonce is new (R187). -/
def renewed (n : SecId) (s : State) : State := s.draw.2.modSec n (fun x => { x with nonce := s.draw.1 })

theorem renewed_sec : (renewed n s).sec n = { s.sec n with nonce := Config.random s.free } := by
  rw [renewed, modSec_sec_same]; rfl

include role keyed inWindow
theorem secReset_tested : secReset n direct etok toks seq s =
    if toks.any (fun t => t.2 != token key t.1 n.val etok (s.sec n).nonce) then
      resetEnd n direct seq .notAuthorised 5 ((renewed n s).modSec n (fun x => { x with fails := satNat 16 (x.fails + 1) }))
    else if !(s.sec n).core.service || (s.sec n).core.state != .disturbed then resetEnd n direct seq .conflict 6 (renewed n s)
    else if !allFit s (s.sec n) then resetEnd n direct seq .conflict 7 (renewed n s)
    else if direct && !quietMet (s.sec n) (s.sec n).quietEl then resetEnd n direct seq .conflict 8 (renewed n s)
    else queueCmd n (.reset direct) (some seq) none (renewed n s) := by
  unfold secReset
  rw [if_neg (not_not.mpr role), keyed]
  extract_lets nonce d u x
  have same : u = renewed n s := rfl
  have core : x.core = (s.sec n).core := by simp [x, same, renewed_sec]
  have fit : allFit u x = allFit s (s.sec n) := by
    simp only [x, same, renewed_sec]
    rfl
  have quiet : quietMet x x.quietEl = quietMet (s.sec n) (s.sec n).quietEl := by
    simp only [x, same, renewed_sec]
    rfl
  have window : tokenWindow u etok = true := inWindow
  rw [core, fit, quiet, window, same]
  rfl

/-- A reset command with every token right, in a state that allows it, waits for the section's evaluation (R191). -/
theorem secReset_waits (right : ∀ t ∈ toks, t.2 = token key t.1 n.val etok (s.sec n).nonce)
    (service : (s.sec n).core.service = true) (state : (s.sec n).core.state = .disturbed)
    (fit : allFit s (s.sec n) = true) (quiet : direct = true → quietMet (s.sec n) (s.sec n).quietEl = true) :
    secReset n direct etok toks seq s = queueCmd n (.reset direct) (some seq) none (renewed n s) := by
  have authorised : (toks.any (fun t => t.2 != token key t.1 n.val etok (s.sec n).nonce)) = false := by
    simpa [List.any_eq_false] using right
  have still : (direct && !quietMet (s.sec n) (s.sec n).quietEl) = false := by
    cases direct
    · rfl
    · rw [quiet rfl]; rfl
  rw [secReset_tested role keyed inWindow, authorised, service, state, fit, still]
  rfl

theorem secReset_counts {t : Nat × List Byte} (mem : t ∈ toks)
    (wrong : t.2 ≠ token key t.1 n.val etok (s.sec n).nonce) : secReset n direct etok toks seq s =
      resetEnd n direct seq .notAuthorised 5
        ((renewed n s).modSec n (fun x => { x with fails := satNat 16 (x.fails + 1) })) := by
  have bad : (toks.any (fun t => t.2 != token key t.1 n.val etok (s.sec n).nonce)) = true :=
    List.any_eq_true.mpr ⟨t, mem, by simpa using wrong⟩
  rw [secReset_tested role keyed inWindow, bad]
  rfl
end

/-- Settles O22, form by form. -/
theorem authorisedSectionCommands : Obligations.Authorised_section_commands := by
  unfold Obligations.Authorised_section_commands
  intro t c s n key ha role keyed inWindow
  have queued : ∀ op seq u, queueCmd n op (some seq) none (renewed n u) =
      u.draw.2.modSec n (fun x => { x with nonce := Config.random u.free, cmds := x.cmds ++
        [{ op := op, job := some seq, at_ := u.now, wr := none }] }) := fun op seq u => by
    rw [queueCmd, renewed, modSec_modSec]
    rfl
  refine ⟨fun A => ⟨fun right service state fit => ?_, fun wrong => ?_⟩, fun A one two service state fit quiet => ?_⟩
  · refine waits_of A rfl fun e ob ir ou => ?_
    have waits := secReset_waits (s := s.admitted t e ob ir ou) (direct := false) (seq := s.hp.admSeq)
      (toks := [(0x0270, slice c.payload 8 8)]) role keyed inWindow (List.forall_mem_singleton.mpr right) service state fit
      (fun direct => nomatch direct)
    rw [withSec_named ha, waits, queued]
    exact ⟨rfl, rfl⟩
  · obtain ⟨e, ob, ir, ou, ad, run⟩ := command_runs 0x0270 (fun seq => withSec c.payload seq (fun n s =>
      secReset n false (field c.payload 2 6) [(0x0270, slice c.payload 8 8)] seq s)) A
    rw [withSec_named ha, secReset_counts (s := s.admitted t e ob ir ou) role keyed inWindow (List.mem_singleton_self _)
      wrong] at run
    obtain ⟨v, done_, hp, kept, flag, others⟩ := resetEnd_unauthorised n false s.hp.admSeq 5
      ((renewed n (s.admitted t e ob ir ou)).modSec n (fun x => { x with fails := satNat 16 (x.fails + 1) }))
    rw [modSec_sec_same, renewed_sec] at kept
    refine ⟨v, congrArg Host.Outcome.next (run.trans done_), ad.congr hp, ?_, ?_, ?_, ?_, flag, ?_, fun m other => ?_⟩
    · exact (congrArg Section.authRes kept :)
    · exact (congrArg Section.fails kept :)
    · exact (congrArg Section.nonce kept :)
    · exact (congrArg Section.cmds kept :)
    · exact (congrArg (fun x : Section => x.core.state) kept :)
    · rw [others m other, modSec_sec_other _ _ _ _ other, renewed, modSec_sec_other _ _ _ _ other]
      rfl
  · refine waits_of A rfl fun e ob ir ou => ?_
    have waits := secReset_waits (s := s.admitted t e ob ir ou) (direct := true) (seq := s.hp.admSeq)
      (toks := [(0x0271, slice c.payload 8 8), (0x8271, slice c.payload 16 8)]) role keyed inWindow
      (List.forall_mem_cons.mpr ⟨one, List.forall_mem_singleton.mpr two⟩) service state fit fun _ => quiet
    rw [withSec_named ha, waits, queued]
    exact ⟨rfl, rfl⟩

end Sys2Proof.Machine
end

section
/-! SUPPORT. The time base (R302 to R308, R323): its commands, the latching reads and its discipline. Settles O23, O24. -/
namespace Sys2Proof.Machine

/-! ### The bytes that a read of BAR0 returns (R4, R262) -/

/-- A little-endian number is its low bytes followed by the bytes above them. -/
theorem le_append (a b v : Nat) : le (a + b) v = le a v ++ le b (v / 256 ^ a) := by
  induction a generalizing v with
  | zero => simp [le]
  | succ a ih =>
    rw [Nat.succ_add]
    simp only [le, List.cons_append, ih, Nat.pow_succ', Nat.div_div_eq_div_mul]

/-- The low `n` bytes see nothing above them. -/
theorem le_mod (n v : Nat) : le n (v % 256 ^ n) = le n v := by
  induction n generalizing v with
  | zero => rfl
  | succ n ih =>
    have low : BitVec.ofNat 8 (v % 256 ^ (n + 1)) = BitVec.ofNat 8 v := by
      apply BitVec.eq_of_toNat_eq
      simp only [BitVec.toNat_ofNat, Nat.pow_succ']
      exact Nat.mod_mul_right_mod ..
    have high : v % 256 ^ (n + 1) / 256 = v / 256 % 256 ^ n := by
      rw [Nat.pow_succ', Nat.mod_mul_right_div_self]
    simp only [le, low, high, ih]

/-- The bytes of two doublewords that hold the halves of a number. -/
theorem leWord_halves (v : Nat) : leWord (word v) ++ leWord (word (v / 2 ^ 32)) = le 8 v := by
  have bytes : ∀ n : Nat, leWord (word n) = le 4 n := fun n => by
    rw [leWord, word, BitVec.toNat_ofNat]
    exact le_mod 4 n
  rw [bytes, bytes]
  exact (le_append 4 4 v).symm

theorem enabledBytes_all (v : Word) : enabledBytes 15 v = leWord v := by
  simp [enabledBytes, leWord, le]

section
variable {r : BusRead} {s : State}

theorem readAnswer_one (ok : readOk r = true) (one : r.dwords = 1) :
    readAnswer .bar0 r s = some (enabledBytes r.firstBe (readReg s r.off)) := by
  simp [readAnswer, ok, one, readEnables, barWord, List.range_succ]

theorem readAnswer_two (ok : readOk r = true) (two : r.dwords = 2) (first : r.firstBe = 15) (last : r.lastBe = 15) :
    readAnswer .bar0 r s = some (leWord (readReg s r.off) ++ leWord (readReg s (r.off + 4))) := by
  simp only [readAnswer, ok, two, readEnables, barWord, List.range_succ, List.range_zero, first, last]
  simp [← enabledBytes_all]

/-- A read that is answered, and that includes no other capturing register, captures in the time base alone. -/
theorem busRead_captures (ok : readOk r = true) (noSeq : readIncludes r 0x47000 = false) :
    busRead r s =
      let b : Tb := { s.tb with
        nowHi := if readIncludes r 0x4A000 then word (tbNow s s.now % 2 ^ 64 / 2 ^ 32) else s.tb.nowHi
        epochHi := if readIncludes r 0x4A008 then word (tbEpoch s / 2 ^ 32) else s.tb.epochHi }
      { s with tb := b, hp := { s.hp with readData := readAnswer .bar0 r { s with tb := b } } } := by
  have captured : readCaptures r s = { s with tb := { s.tb with
      nowHi := if readIncludes r 0x4A000 then word (tbNow s s.now % 2 ^ 64 / 2 ^ 32) else s.tb.nowHi
      epochHi := if readIncludes r 0x4A008 then word (tbEpoch s / 2 ^ 32) else s.tb.epochHi } } := by
    simp only [readCaptures, noSeq]
    split <;> split <;> simp_all [readTbNow, readTbEpoch, tbEpoch]
  rw [busRead, if_pos ok, captured]
  rfl

theorem busRead_unanswered (bad : readOk r = false) :
    busRead r s = { s with hp := { s.hp with readData := none } } := by
  simp [busRead, bad, readAnswer, State.modHp]
end

section
variable (s : State)
theorem readReg_tbNow : readReg s 0x4A000 = word (tbNow s s.now) := rfl
theorem readReg_tbNowHi : readReg s 0x4A004 = s.tb.nowHi := rfl
theorem readReg_tbEpoch : readReg s 0x4A008 = word (tbEpoch s) := rfl
theorem word_mod (v : Nat) : word (v % 2 ^ 64) = word v := by
  apply BitVec.eq_of_toNat_eq
  simp only [word, BitVec.toNat_ofNat]
  exact Nat.mod_mod_of_dvd _ (by decide)
end

/-! ### Commands (R307, R323) -/

section
variable {p : List Byte} {seq : Nat} {s : State}

theorem tbStep_waits (form : field p 0 1 ≤ 1) (soon : field p 2 6 = 0) (free_ : s.tb.step = none) :
    tbStep p seq s = { s with tb := { s.tb with
      result := 0
      step := some { absolute := field p 0 1 == 1, value := BitVec.ofNat 64 (field p 8 8), atSeq := stepB1 s,
                     job := some seq } } } := by
  simp [tbStep, Nat.not_lt.mpr form, soon, free_]

theorem tbStep_busy (form : field p 0 1 ≤ 1) (soon : field p 2 6 = 0) (busy : s.tb.step.isSome = true) :
    tbStep p seq s = complete seq .refusedBusy 3 [] { s with tb := { s.tb with result := 3 } } := by
  simp [tbStep, Nat.not_lt.mpr form, soon, busy, tbRefuse]

theorem tbStep_form (bad : 1 < field p 0 1) :
    tbStep p seq s = complete seq .conflict 1 [] { s with tb := { s.tb with result := 1 } } := by
  simp [tbStep, bad, tbRefuse]
end

/-- Settles O23: the two commands, then the reads of TB_NOW and TB_EPOCH. -/
theorem timeBaseCommands : Obligations.Time_base_commands := by
  unfold Obligations.Time_base_commands
  intro t s
  refine ⟨fun c A => ?_, fun c A => ⟨fun form soon free_ => ?_, fun form soon busy => ?_, fun bad => ?_⟩, fun host r => ?_⟩
  · exact answers_of A rfl fun e ob ir ou => ⟨_, rfl, rfl, rfl⟩
  · refine waits_of A rfl fun e ob ir ou => ?_
    rw [tbStep_waits (s := s.admitted t e ob ir ou) form soon free_]
    exact ⟨rfl, rfl⟩
  · exact answers_of A rfl fun e ob ir ou => ⟨_, tbStep_busy form soon busy, rfl, rfl⟩
  · exact answers_of A rfl fun e ob ir ou => ⟨_, tbStep_form bad, rfl, rfl⟩
  have run : (Host.Outcome.next (whenHost (busRead r) (s.advance t)) : Host.Outcome State Fault Refusal) =
      .next (busRead r (s.advance t)) := congrArg Host.Outcome.next (whenHost_advance host)
  refine ⟨fun ok now noSeq => ?_, fun ok epoch noSeq => ?_, fun bad => ?_⟩
  · refine ⟨_, run.trans (congrArg _ (busRead_captures (s := s.advance t) ok noSeq)), ?_, fun no => ?_, fun at_ one => ?_,
      fun at_ two first last => ?_, rfl⟩
    · exact if_pos now
    · exact if_neg (by rw [no]; decide)
    · refine (readAnswer_one ok one).trans ?_
      rw [at_, readReg_tbNow, word_mod]
      rfl
    · refine (readAnswer_two ok two first last).trans ?_
      rw [at_, readReg_tbNow, readReg_tbNowHi, if_pos now, ← leWord_halves, word_mod]
      rfl
  · refine ⟨_, run.trans (congrArg _ (busRead_captures (s := s.advance t) ok noSeq)), ?_, fun at_ one => ?_, rfl⟩
    · exact if_pos epoch
    · refine (readAnswer_one ok one).trans ?_
      rw [at_, readReg_tbEpoch]
      rfl
  · exact ⟨run.trans (congrArg _ (busRead_unanswered bad)), run.trans (congrArg _ (busRead_unanswered bad))⟩

/-! ### Discipline (R303 to R305) -/

section
variable (s : State) (n : Nat)
@[simp] theorem flagTb_tb : (flagTb n s).tb = { s.tb with fault := s.tb.fault ||| bits n 1 } :=
  tb_of_device (flagTb_device s n)
@[simp] theorem flagTb_heads : (flagTb n s).heads = s.heads := (congrArg State.heads (flagTb_device s n) :)
@[simp] theorem flagTb_sections : (flagTb n s).sections = s.sections := (congrArg State.sections (flagTb_device s n) :)

/-- Entering a discipline state sets its flag, and touches the time base alone. -/
theorem tbEnter_tb (st : TbState) : (tbEnter st s).tb = { s.tb with
    st := st, ppsGood := 0, freqHeld := false
    fault := match st with
      | .locked => s.tb.fault ||| bits 1 1
      | .holdover => s.tb.fault ||| bits 2 1
      | _ => s.tb.fault } := by
  cases st <;> simp [tbEnter]
@[simp] theorem tbEnter_heads (st : TbState) : (tbEnter st s).heads = s.heads := by cases st <;> simp [tbEnter]
@[simp] theorem tbEnter_sections (st : TbState) : (tbEnter st s).sections = s.sections := by cases st <;> simp [tbEnter]
@[simp] theorem setRate_heads (base adj : Int) : (setRate base adj s).heads = s.heads := rfl
@[simp] theorem setRate_sections (base adj : Int) : (setRate base adj s).sections = s.sections := rfl
end

/-- The tenth edge in a row within 100 ns of the second locks PPS mode (R304). -/
theorem ppsEdge_locks {err e : Int} {s : State} (is_ : e = ppsError (tbCapture s err) (sext 16 (fld s.tb.disc 0 16)))
    (mode : s.tb.mode = 2) (acquires : s.tb.st = .acquire) (nine : 9 ≤ s.tb.ppsGood) (good : e.natAbs ≤ 100) :
    ∃ v, ppsEdge err s = tbEnter .locked v ∧ v.tb.ppsErr = satInt 32 e ∧ v.tb.lastPps = some s.now ∧ v.heads = s.heads ∧
      v.sections = s.sections := by
  have lim : e.natAbs ≤ ppsLim s.tb.disc * 1000 := by unfold ppsLim; omega
  have pps : usesPps s.tb.mode = true := by rw [mode]; rfl
  unfold ppsEdge
  extract_lets capture base _ u e' _ v w n _ x
  have same : e' = e := is_.symm
  have used : ¬(!usesPps u.tb.mode) = true := by rw [show u.tb.mode = s.tb.mode from rfl, pps]; decide
  have small : e'.natAbs ≤ ppsLim v.tb.disc * 1000 := by rw [same]; exact lim
  have runs : w = setRate base (max (-100000) (min 100000 (-e'))) v := if_neg (by
    rw [show v.tb.st = s.tb.st from rfl, acquires]; decide)
  have counted : n = w.tb.ppsGood + 1 := if_pos (by rw [same]; exact good)
  have kept : w.tb.ppsGood = s.tb.ppsGood ∧ w.tb.st = s.tb.st ∧ w.tb.mode = s.tb.mode ∧ w.tb.ppsErr = satInt 32 e ∧
      w.tb.lastPps = some s.now ∧ w.heads = s.heads ∧ w.sections = s.sections := by
    rw [runs, ← same]
    exact ⟨rfl, rfl, rfl, rfl, rfl, rfl, rfl⟩
  obtain ⟨count, st, mode', shown, last, heads, sections⟩ := kept
  have locks : x.tb.st = .acquire ∧ 10 ≤ n ∧ (x.tb.mode = 2 ∨ x.tb.freqHeld = true) :=
    ⟨st.trans acquires, by rw [counted, count]; omega, .inl (mode'.trans mode)⟩
  rw [if_neg used, if_pos small, if_pos locks]
  exact ⟨x, rfl, shown, last, heads, sections⟩

/-- An edge beyond PPS_LIM is flagged and costs the lock; it does not touch the rate (R304). -/
theorem ppsEdge_rejected {err e : Int} {s : State} (is_ : e = ppsError (tbCapture s err) (sext 16 (fld s.tb.disc 0 16)))
    (pps : usesPps s.tb.mode = true) (locked : s.tb.st = .locked) (far : ppsLim s.tb.disc * 1000 < e.natAbs) :
    ∃ v, ppsEdge err s = tbEnter .acquire v ∧ v.tb.ppsErr = satInt 32 e ∧ bit v.tb.fault 5 = true ∧
      v.tb.dev = s.tb.dev ∧ v.heads = s.heads ∧ v.sections = s.sections := by
  unfold ppsEdge
  extract_lets capture base _ u e' _ v _ _ _ _ _ w
  have same : e' = e := is_.symm
  have used : ¬(!usesPps u.tb.mode) = true := by rw [show u.tb.mode = s.tb.mode from rfl, pps]; decide
  have large : ¬e'.natAbs ≤ ppsLim v.tb.disc * 1000 := by rw [same]; exact Nat.not_le.mpr far
  have tb : w.tb = { s.tb with ppsOk := true, lastPps := some s.now, ppsErr := satInt 32 e, ppsGood := 0
                               fault := s.tb.fault ||| bits 5 1 } := by
    rw [← same]
    exact flagTb_tb ..
  have costs : w.tb.st = .locked := by rw [tb]; exact locked
  rw [if_neg used, if_neg large, if_pos costs]
  exact ⟨w, rfl, by rw [tb], by rw [tb, bit_or, bit_bits_one (by decide), Bool.or_true], by rw [tb], flagTb_heads ..,
    flagTb_sections ..⟩

/-- A reference in use that is lost leaves the time base in HOLDOVER, at its frozen rate, with both flags (R305). -/
theorem refLost_holds {k : Nat} {s : State} (locked : s.tb.st = .locked) :
    (refLost k s).tb = { s.tb with st := .holdover, ppsGood := 0, freqHeld := false
                                   fault := s.tb.fault ||| bits 2 1 ||| bits k 1 } ∧
      (refLost k s).heads = s.heads ∧ (refLost k s).sections = s.sections := by
  simp [refLost, locked, tbEnter_tb]

/-- TB_PPS is lost 1.5 s after its last edge (R305). -/
theorem ppsLoss_late {p : Nat} {s : State} (last : s.tb.lastPps = some p) (late : p + 1500000000000 ≤ s.now)
    (uses : usesPps s.tb.mode = true) : ∃ v, ppsLoss s = refLost 4 v ∧ v.tb = { s.tb with ppsOk := false } ∧
      v.heads = s.heads ∧ v.sections = s.sections := by
  have late : p + ms 1500 ≤ s.now := late
  unfold ppsLoss
  rw [last]
  dsimp only
  rw [if_pos late, if_pos uses]
  exact ⟨_, rfl, rfl, rfl, rfl⟩

/-- Settles O24, event by event. -/
theorem timeBaseDiscipline : Obligations.Time_base_discipline := by
  unfold Obligations.Time_base_discipline
  intro t s up
  have run : ∀ f, (Host.Outcome.next (whenAwake f (s.advance t)) : Host.Outcome State Fault Refusal) =
      .next (f (s.advance t)) := fun f => congrArg Host.Outcome.next (whenAwake_advance up)
  have set_ : ∀ (w : Word) (k : Nat), k < 32 → bit (w ||| bits k 1) k = true := fun w k small => by
    rw [bit_or, bit_bits_one small, Bool.or_true]
  refine ⟨fun e err is_ => ⟨fun mode acquires nine good => ?_, fun pps locked far => ?_⟩, fun mode acquires => ?_,
    fun uses locked => ?_, fun p last late uses locked => ?_, fun holds => ?_⟩
  · obtain ⟨v, edge, shown, last, heads, sections⟩ := ppsEdge_locks (s := s.advance t) is_ mode acquires nine good
    refine ⟨_, (run _).trans (congrArg _ edge), ?_⟩
    simp only [tbEnter_tb, tbEnter_heads, tbEnter_sections]
    exact ⟨trivial, shown, set_ _ 1 (by decide), last, heads, sections⟩
  · obtain ⟨v, edge, shown, flag, dev, heads, sections⟩ := ppsEdge_rejected (s := s.advance t) is_ pps locked far
    refine ⟨_, (run _).trans (congrArg _ edge), ?_⟩
    simp only [tbEnter_tb, tbEnter_heads, tbEnter_sections]
    exact ⟨trivial, shown, flag, dev, heads, sections⟩
  · have locks : freqLock (s.advance t) = tbEnter .locked { s.advance t with
        tb := { s.tb with refOk := true, freqHeld := true } } := by
      simp [freqLock, mode, acquires, uses10M]
    refine ⟨_, (run _).trans (congrArg _ locks), ?_⟩
    simp only [tbEnter_tb, tbEnter_heads, tbEnter_sections]
    exact ⟨trivial, set_ _ 1 (by decide), rfl, rfl⟩
  · have lost : tenMhzLoss (s.advance t) = refLost 3 { s.advance t with
        tb := { s.tb with refOk := false }, clk := { s.clk with vsTb := 0x8000 } } := if_pos uses
    obtain ⟨tb, heads, sections⟩ := refLost_holds (k := 3) (s := { s.advance t with
      tb := { s.tb with refOk := false }, clk := { s.clk with vsTb := 0x8000 } }) locked
    refine ⟨_, (run _).trans (congrArg _ lost), ?_⟩
    rw [tb, heads, sections]
    refine ⟨rfl, rfl, rfl, ?_, set_ _ 3 (by decide), rfl, rfl⟩
    rw [bit_or, set_ _ 2 (by decide), Bool.true_or]
  · obtain ⟨v, lost, was, heads', sections'⟩ := ppsLoss_late (s := s.advance t) last late uses
    obtain ⟨tb, heads, sections⟩ := refLost_holds (k := 4) (s := v) (by rw [was]; exact locked)
    rw [was] at tb
    refine ⟨_, (run _).trans (congrArg _ lost), ?_⟩
    rw [tb, heads, sections, heads', sections']
    refine ⟨rfl, rfl, rfl, ?_, set_ _ 4 (by decide), rfl, rfl⟩
    rw [bit_or, set_ _ 2 (by decide), Bool.true_or]
  · have measured : ∀ (b : Bool) (u : State), ((if b then measureRef u else u).tb.st = u.tb.st) ∧
        (if b then measureRef u else u).heads = u.heads ∧ (if b then measureRef u else u).sections = u.sections :=
      fun b u => by cases b <;> exact ⟨rfl, rfl, rfl⟩
    have back : refReturn (s.advance t) = _ := if_pos holds
    refine ⟨_, (run _).trans (congrArg _ back), ?_⟩
    obtain ⟨st, heads, sections⟩ := measured _ _
    rw [st, heads, sections]
    simp only [tbEnter_tb, tbEnter_heads, tbEnter_sections]
    exact ⟨trivial, rfl, rfl⟩

end Sys2Proof.Machine
end

section
/-! SUPPORT. Delivery by the interrupt controller (R290 to R294): the lowest bit of a map, messages, commits, MSI-X
unmasking and end of interrupt. Settles O25. -/
namespace Sys2Proof.Machine

/-! ### One source of a map -/

theorem srcBit_getLsbD (n m : SrcId) : (srcBit n).getLsbD m.val = decide (m = n) := by
  rw [srcBit, BitVec.getLsbD_ofNat, Nat.testBit_two_pow, decide_eq_true m.isLt, Bool.true_and]
  exact decide_eq_decide.mpr (by rw [Fin.ext_iff, eq_comm])

theorem or_srcBit_same (a : BitVec 512) (n : SrcId) : (a ||| srcBit n).getLsbD n.val = true := by
  rw [BitVec.getLsbD_or, srcBit_getLsbD, decide_eq_true rfl, Bool.or_true]
theorem or_srcBit_other (a : BitVec 512) {n m : SrcId} (other : m ≠ n) : (a ||| srcBit n).getLsbD m.val = a.getLsbD m.val := by
  rw [BitVec.getLsbD_or, srcBit_getLsbD, decide_eq_false other, Bool.or_false]
theorem andNot_srcBit_same (a : BitVec 512) (n : SrcId) : (a &&& ~~~ srcBit n).getLsbD n.val = false := by
  rw [BitVec.getLsbD_and, BitVec.getLsbD_not, srcBit_getLsbD, decide_eq_true rfl, Bool.not_true, Bool.and_false,
    Bool.and_false]
theorem andNot_srcBit_other (a : BitVec 512) {n m : SrcId} (other : m ≠ n) :
    (a &&& ~~~ srcBit n).getLsbD m.val = a.getLsbD m.val := by
  rw [BitVec.getLsbD_and, BitVec.getLsbD_not, srcBit_getLsbD, decide_eq_false other, decide_eq_true m.isLt, Bool.not_false,
    Bool.and_true, Bool.and_true]

/-- A bit that is set, none set below it, is the lowest. -/
theorem lowestBit_of {k n v : Nat} (small : n < k) (set_ : v.testBit n = true) (least : ∀ m < n, v.testBit m = false) :
    lowestBit k v = some n := by
  induction k generalizing n v with
  | zero => omega
  | succ k ih =>
    cases n with
    | zero =>
      have odd : v % 2 = 1 := by simpa [Nat.testBit_zero] using set_
      rw [lowestBit, if_pos odd]
    | succ n =>
      have even : ¬v % 2 = 1 := by simpa [Nat.testBit_zero] using least 0 (Nat.succ_pos n)
      rw [lowestBit, if_neg even, ih (Nat.lt_of_succ_lt_succ small) (by rwa [← Nat.testBit_succ]) fun m below => by
        rw [← Nat.testBit_succ]; exact least (m + 1) (Nat.succ_lt_succ below)]
      rfl

theorem lowestBit_map {a : BitVec 512} {n : SrcId} (set_ : a.getLsbD n.val = true)
    (least : ∀ m < n, a.getLsbD m.val = false) : lowestBit 512 a.toNat = some n.val :=
  lowestBit_of n.isLt set_ fun m below => least ⟨m, by omega⟩ below

theorem lowestBit_srcBit (n : SrcId) : lowestBit 512 (srcBit n).toNat = some n.val :=
  lowestBit_map (by rw [srcBit_getLsbD, decide_eq_true rfl]) fun m below => by
    rw [srcBit_getLsbD, decide_eq_false (ne_of_lt below)]

/-! ### Messages and commits (R290 to R292) -/

section
variable {s : State} {n : SrcId}

theorem winner_of (pending : s.irq.pend.getLsbD n.val = true) (clear : s.irq.mask.getLsbD n.val = false)
    (least : ∀ m < n, s.irq.pend.getLsbD m.val = true → s.irq.mask.getLsbD m.val = true) : winner s = some n := by
  have unmasked : ∀ m : SrcId, (s.irq.pend &&& ~~~ s.irq.mask).getLsbD m.val =
      (s.irq.pend.getLsbD m.val && !s.irq.mask.getLsbD m.val) := fun m => by
    rw [BitVec.getLsbD_and, BitVec.getLsbD_not, decide_eq_true m.isLt, Bool.true_and]
  rw [winner, lowestBit_map (n := n) (by rw [unmasked, pending, clear]; rfl) fun m below => by
    rw [unmasked]
    cases p : s.irq.pend.getLsbD m.val
    · rfl
    · rw [least m below p]; rfl]
  exact congrArg some (Fin.ofNat_val_eq_self n)

/-- The storm guard counts and masks: it leaves alone what a delivery shows. -/
theorem stormCount_keeps (n : SrcId) (s : State) : ∃ c m st sts, stormCount n s =
    s.modIrq (fun q => { q with commits := c, mask := m, storm := st, storms := sts }) := by
  unfold stormCount
  extract_lets old u
  split
  · exact ⟨_, _, _, _, rfl⟩
  · exact ⟨_, s.irq.mask, s.irq.storm, s.irq.storms, rfl⟩

/-- The commit makes its source active; its message leaves, or is held where MSI-X masks it (R292, R293). -/
theorem commitSource_delivers (n : SrcId) (s : State) : ∃ u, commitSource n s = u ∧
    u.irq.active = some n ∧ u.irq.pend = s.irq.pend &&& ~~~ srcBit n ∧ u.irq.deliv = (s.irq.deliv + 1) % 2 ^ 32 ∧
      (if s.hp.funcMask || (tget s.irq.table (tget s.irq.target n)).masked then u.irq.held = true ∧ u.out = s.out
       else u.irq.held = false ∧ u.out = .msix (tget s.irq.table (tget s.irq.target n)).addr
         (tget s.irq.table (tget s.irq.target n)).data :: s.out) ∧ u.device = s.device := by
  unfold commitSource
  extract_lets v hp z w
  obtain ⟨c, m, st, sts, counted⟩ := stormCount_keeps n (deliver v w)
  have masks : (w.hp.funcMask || (tget w.irq.table v).masked) = (s.hp.funcMask || (tget s.irq.table v).masked) := rfl
  refine ⟨_, counted, ?_⟩
  unfold deliver
  rw [masks]
  cases s.hp.funcMask || (tget s.irq.table v).masked <;> exact ⟨rfl, rfl, rfl, ⟨rfl, rfl⟩, rfl⟩

theorem arbitrate_commits (wins : winner s = some n) (idle : s.irq.active = none) (en : s.hp.msixEn = true)
    (master : canMaster s = true) : arbitrate s = commitSource n s := by
  simp [arbitrate, wins, mayCommit, idle, en, master]

/-! ### Unmasking and end of interrupt (R293, R294) -/

/-- The held message leaves with the vector that the pending-bit array names. -/
theorem releaseHeld_sends {v : SrcId} (held : s.irq.held = true) (en : s.hp.msixEn = true) (master : canMaster s = true)
    (open_ : s.hp.funcMask = false) (waits : s.irq.pba = srcBit v) (clear : (tget s.irq.table v).masked = false) :
    releaseHeld s = sendMsix v (s.modIrq (fun q => { q with held := false, pba := 0 })) := by
  have named : (Fin.ofNat 512 v.val : SrcId) = v := Fin.ofNat_val_eq_self v
  simp only [releaseHeld, held, en, master, open_, waits, lowestBit_srcBit, named, clear]
  rfl

theorem whenHostUp_open {f : State → State} (up : awake s = true) (host : hostUp s = true) : whenHostUp f s = f s := by
  simp [whenHostUp, up, host]
end

section
variable {v : Word} {s : State}
theorem eoi_ends (active : s.irq.active = some (Fin.ofNat 512 (fld v 0 9))) :
    eoi v s = s.modIrq (fun q => { q with active := none, held := false, pba := if q.held then 0 else q.pba }) := by
  simp only [eoi, active, if_true]

theorem eoi_counts (other : s.irq.active ≠ some (Fin.ofNat 512 (fld v 0 9))) :
    eoi v s = hpErr 7 false 0x10008 v (s.modIrq (fun q => { q with badEoi := (q.badEoi + 1) % 65536 })) := by
  simp only [eoi, if_neg other]
end

/-- Settles O25, clause by clause. -/
theorem interruptDelivery : Obligations.Interrupt_delivery := by
  unfold Obligations.Interrupt_delivery
  intro t s up
  refine ⟨fun n rest msgs => ?_, fun n pending clear least idle en master => ?_,
    fun v host bme d0 held waits => ⟨fun a d en open_ => ?_, fun clear => ?_⟩, fun v host => ⟨fun active => ?_, fun other => ?_⟩⟩
  · have applied : applyMessage (s.advance t) =
        (s.advance t).modIrq (fun q => { q with msgs := rest, pend := q.pend ||| srcBit n.src }) := by
      have msgs' : (s.advance t).irq.msgs = n :: rest := msgs
      simp only [applyMessage, msgs']
    refine ⟨_, congrArg Host.Outcome.next ((whenAwake_advance up).trans applied), rfl, or_srcBit_same .., fun m other => ?_,
      rfl, rfl, rfl, rfl⟩
    exact or_srcBit_other _ other
  · obtain ⟨u, delivers, active, pend, deliv, message, device⟩ := commitSource_delivers n (s.advance t)
    have commits := arbitrate_commits (s := s.advance t) (winner_of pending clear least) idle en master
    refine ⟨u, congrArg Host.Outcome.next ((whenAwake_advance up).trans (commits.trans delivers)), active, ?_, fun m other => ?_, deliv,
      message, device⟩ <;> rw [pend]
    · exact andNot_srcBit_same ..
    · exact andNot_srcBit_other _ other
  · have master : canMaster s = true := by simp [canMaster, bme, d0, host]
    have sent := releaseHeld_sends (s := (s.advance t).modIrq (fun q => { q with
      table := tset q.table v { addr := a, data := d, masked := false } })) held en master open_ waits
      (by simp [State.modIrq])
    have wrote : msixWrite (.entry v a d false) (s.advance t) = _ := (if_neg (by simp [d0])).trans sent
    refine ⟨_, congrArg Host.Outcome.next ((whenHostUp_open (s := s.advance t) up host).trans wrote), rfl, rfl, ?_, ?_, rfl⟩
    · simp [sendMsix, State.modIrq]
    · simp [sendMsix, State.modIrq]
  · have master : canMaster s = true := by simp [canMaster, bme, d0, host]
    have sent := releaseHeld_sends (s := { s.advance t with hp := { s.hp with msixEn := true, funcMask := false } }) held rfl
      master rfl waits clear
    exact ⟨_, congrArg Host.Outcome.next ((whenHostUp_open (s := s.advance t) up host).trans sent), rfl, rfl, rfl, rfl, rfl,
      rfl⟩
  · have ended := eoi_ends (s := s.advance t) active
    exact ⟨_, congrArg Host.Outcome.next ((whenHost_advance host).trans ended), rfl, rfl, rfl, rfl, rfl⟩
  · have counted := eoi_counts (s := s.advance t) other
    have kept : ∀ {β : Type} (W : Irq → β), (∀ q, W { q with msgs := [] } = W q) →
        W (eoi v (s.advance t)).irq = W { s.irq with badEoi := (s.irq.badEoi + 1) % 65536 } := fun W hide => by
      rw [counted, ← hide]
      exact (congrArg W (hpErr_sources ..)).trans (hide _)
    refine ⟨_, congrArg Host.Outcome.next (whenHost_advance host), kept Irq.active fun _ => rfl, kept Irq.pend fun _ => rfl,
      kept Irq.badEoi fun _ => rfl, ?_⟩
    exact (congrArg State.device counted).trans ((hpErr_device ..).trans rfl)

end Sys2Proof.Machine
end

section
/-! SUPPORT. Track ticks (R87, R111, R205). Settles O30. -/
namespace Sys2Proof.Machine

/-! ### What samples leave of a tick's counts -/

/-- The block of the epochs, the sections and the settle counters. -/
def tickCounts (s : State) : Epc × Vector Section 256 × (HeadId → Sys → Nat) :=
  (s.epc, s.sections, fun h x => ((s.head h).flt.slice.get x).settleCount)

section
variable (s : State) (h : HeadId)
theorem tickCounts_modHead {f : Head → Head}
    (keep : ∀ b x, ((f b).flt.slice.get x).settleCount = (b.flt.slice.get x).settleCount) :
    tickCounts (s.modHead h f) = tickCounts s := by
  have counts : ∀ g x, (((s.modHead h f).head g).flt.slice.get x).settleCount = ((s.head g).flt.slice.get x).settleCount :=
    fun g x => by
      rw [modHead_head]
      split
      · exact keep _ x
      · rfl
  simp only [tickCounts, counts]
  rfl
theorem tickCounts_modFltSlice (x : Sys) {f : FltSlice → FltSlice} (keep : ∀ v, (f v).settleCount = v.settleCount) :
    tickCounts (s.modFltSlice h x f) = tickCounts s :=
  tickCounts_modHead s h fun b y => by
    show (((b.flt.slice.mod x f).get y)).settleCount = _
    rw [pair_get_mod]
    split
    · exact keep _
    · rfl
@[simp] theorem tickCounts_modTrnSlice (x : Sys) (f : TrnSlice → TrnSlice) : tickCounts (s.modTrnSlice h x f) = tickCounts s :=
  tickCounts_modHead s h fun _ _ => rfl
@[simp] theorem tickCounts_modCmpSlice (x : Sys) (f : CmpSlice → CmpSlice) : tickCounts (s.modCmpSlice h x f) = tickCounts s :=
  tickCounts_modHead s h fun _ _ => rfl
@[simp] theorem tickCounts_flagHead (r : HeadReg) (w : Word) : tickCounts (flagHead r h w s) = tickCounts s := by
  have device : tickCounts (flagHead r h w s) =
      tickCounts (s.modHead h (fun x => setHeadFault r (headFault r x ||| w) (Head.spoil r w s.now x))) :=
    (congrArg tickCounts (flagHead_device s r h w) :)
  rw [device]
  refine tickCounts_modHead s h fun b x => ?_
  have slices : ∀ (k : Word) (c : Head), (setHeadFault r k c).flt.slice = c.flt.slice := fun k c => by cases r <;> rfl
  rw [slices, spoil_flt_family]
@[simp] theorem tickCounts_free (n : Nat) : tickCounts { s with free := n } = tickCounts s := rfl
@[simp] theorem tickCounts_takeSample (tm : Nat) (a : SliceSample) : tickCounts (takeSample tm a s) = tickCounts s := by
  unfold takeSample
  split
  · extract_lets sp ok p v r dsp mag u q
    have taken : tickCounts u = tickCounts s := by
      unfold u
      clear_value r dsp mag v p sp ok
      refine (tickCounts_modFltSlice { s with free := s.free + 1 } a.head a.sys ?_).trans (tickCounts_free ..)
      exact fun _ => rfl
    rw [tickCounts_modTrnSlice, taken]
  · rfl
@[simp] theorem tickCounts_plausTick (tm : Nat) (x : Sys) : tickCounts (plausTick tm h x s) = tickCounts s := by
  unfold plausTick
  extract_lets lat due p one all
  have each : ∀ c u, tickCounts (one c u) = tickCounts u := fun c u => by
    unfold one
    dsimp only
    repeat' split
    all_goals simp
  rw [foldOver_keeps each, tickCounts_modCmpSlice]
end

/-! ### The tick (R87, R205) -/

section
variable {s : State} {i : TickInput}

/-- A tick that is due counts itself, samples the pace, and moves the settle counters; samples move none of these. -/
theorem trackTick_counts (few : s.epc.tick < 10) (due : tickAt s s.epc.tick ≤ s.now) :
    ∃ v : State, (∀ h x, targetOf v h x = targetOf s h x) ∧ v.heads = s.heads ∧
      tickCounts (trackTick i s) = tickCounts { v with
        heads := tabulate 256 (fun h => countTick v (tickAt s s.epc.tick) (Fin.ofNat 256 h)) } ∧
      v.epc.tick = s.epc.tick + 1 ∧ v.epc.tickAt = tickAt s s.epc.tick + 1 ∧ v.epc.pace = satNat 16 i.pace ∧
      v.epc.paceMin = min s.epc.paceMin (satNat 16 i.pace) ∧ v.sections = s.sections := by
  unfold trackTick
  extract_lets tm e v w
  rw [if_neg (by omega)]
  have surveyed : ∀ (p : Nat) (u : State), (∀ h x, targetOf (surveyPace p u) h x = targetOf u h x) ∧
      (surveyPace p u).heads = u.heads ∧ (surveyPace p u).epc = u.epc ∧ (surveyPace p u).sections = u.sections :=
    fun p u => by
      unfold surveyPace
      split <;> exact ⟨fun _ _ => rfl, rfl, rfl, rfl⟩
  obtain ⟨target, heads, epc, sections⟩ := surveyed (satNat 16 i.pace) _
  refine ⟨v, target, heads, ?_, ?_, ?_, ?_, ?_, sections⟩
  · exact foldOver_keeps (g := tickCounts) (fun a u => by simp) _
  · exact (congrArg Epc.tick epc :)
  · exact (congrArg Epc.tickAt epc :)
  · exact (congrArg Epc.pace epc :)
  · exact (congrArg Epc.paceMin epc :)

theorem countTick_running {v : State} {tm : Nat} {h : HeadId} {x : Sys} (runs : ((v.head h).flt.slice.get x).settleHeld = false)
    (begun : ((v.head h).flt.slice.get x).settleStart < tm) : ((countTick v tm h).flt.slice.get x).settleCount =
      min (targetOf v h x) (((v.head h).flt.slice.get x).settleCount + 1) := by
  cases x <;> exact congrArg FltSlice.settleCount (if_neg (by simp_all [Pair.get]))

theorem countTick_held {v : State} {tm : Nat} {h : HeadId} {x : Sys} (held : ((v.head h).flt.slice.get x).settleHeld = true) :
    ((countTick v tm h).flt.slice.get x).settleCount = ((v.head h).flt.slice.get x).settleCount := by
  cases x <;> exact congrArg FltSlice.settleCount (if_pos (by simp_all [Pair.get]))
end

/-- Settles O30: the samples of a tick move none of what it counts. -/
theorem trackTickHolds : Obligations.Track_tick := by
  unfold Obligations.Track_tick
  intro t s i running few due
  obtain ⟨v, target, heads, kept, tick, tickAt_, pace, paceMin, sections⟩ :=
    trackTick_counts (s := s.advance t) (i := i) few due
  obtain ⟨epc, sections', counters⟩ : (trackTick i (s.advance t)).epc = v.epc ∧
      (trackTick i (s.advance t)).sections = v.sections ∧ ∀ h x,
        (((trackTick i (s.advance t)).head h).flt.slice.get x).settleCount =
          ((countTick v (tickAt s s.epc.tick) h).flt.slice.get x).settleCount := by
    obtain ⟨epc, rest⟩ := Prod.mk.inj kept
    obtain ⟨sections', counts⟩ := Prod.mk.inj rest
    refine ⟨epc, sections', fun h x => (congrFun (congrFun counts h) x).trans ?_⟩
    simp only [State.head, tget_tabulate, Fin.ofNat_val_eq_self]
    rfl
  have head : ∀ h, v.head h = s.head h := head_of_heads heads
  refine ⟨_, congrArg Host.Outcome.next (whenRunning_advance running), ?_, ?_, ?_, ?_, sections'.trans sections,
    fun h x runs begun => ?_, fun h x held => ?_⟩
  · rw [epc]; exact tick
  · rw [epc]; exact tickAt_
  · rw [epc]; exact pace
  · rw [epc]; exact paceMin
  · rw [counters, countTick_running (by rw [head]; exact runs) (by rw [head]; exact begun), target, head]
    rfl
  · rw [counters, countTick_held (by rw [head]; exact held), head]

end Sys2Proof.Machine
end

section
/-! SUPPORT. What the drop of a section touches: its own results and flags, no other section and no head (R207, R208).
Settles O29. -/
namespace Sys2Proof.Machine

/-! ### The bystanders of a section -/

/-- Every section but one, and the heads. -/
def bystanders (n : SecId) (s : State) : (SecId → Option Section) × Vector Head 256 :=
  (fun m => if m = n then none else some (s.sec m), s.heads)

theorem bystanders_iff {n : SecId} {u s : State} : bystanders n u = bystanders n s ↔
    (∀ m, m ≠ n → u.sec m = s.sec m) ∧ u.heads = s.heads := by
  refine ⟨fun e => ?_, fun ⟨secs, heads⟩ => ?_⟩
  · obtain ⟨secs, heads⟩ := Prod.mk.inj e
    refine ⟨fun m other => ?_, heads⟩
    have same := congrFun secs m
    rw [if_neg other, if_neg other] at same
    exact Option.some.inj same
  · refine Prod.ext (funext fun m => ?_) heads
    show (if m = n then none else some (u.sec m)) = if m = n then none else some (s.sec m)
    split
    · rfl
    · next other => rw [secs m other]

section
variable (n : SecId) (s : State)
theorem bystanders_of_device {u s : State} (e : u.device = s.device) : bystanders n u = bystanders n s :=
  bystanders_iff.mpr ⟨fun m _ => sec_of_device e m, (congrArg State.heads e :)⟩
@[simp] theorem bystanders_modSec (f : Section → Section) : bystanders n (s.modSec n f) = bystanders n s :=
  bystanders_iff.mpr ⟨fun _ other => modSec_sec_other _ _ _ _ other, rfl⟩
@[simp] theorem bystanders_flagSec (k : Nat) : bystanders n (flagSec n k s) = bystanders n s := bystanders_modSec ..
@[simp] theorem bystanders_epc (v : Epc) : bystanders n { s with epc := v } = bystanders n s := rfl
@[simp] theorem bystanders_zl (v : Zl) : bystanders n { s with zl := v } = bystanders n s := rfl
@[simp] theorem bystanders_trig (cls source : Nat) (detail : Word) : bystanders n (trig cls source detail s) = bystanders n s :=
  bystanders_of_device n (trig_device ..)
@[simp] theorem bystanders_completeJob (job : Option Nat) (st : Status) (d : Nat) :
    bystanders n (completeJob job st d s) = bystanders n s := bystanders_of_device n (completeJob_device ..)
@[simp] theorem bystanders_hpErr (cause : Nat) (bar2 : Bool) (off : Nat) (v : Word) :
    bystanders n (hpErr cause bar2 off v s) = bystanders n s := bystanders_of_device n (hpErr_device ..)
@[simp] theorem bystanders_flagZl (k : Nat) : bystanders n (flagZl k s) = bystanders n s :=
  (bystanders_of_device n (flagZl_device ..)).trans rfl
@[simp] theorem bystanders_queueSecRec (b : List Byte) : bystanders n (queueSecRec n b s) = bystanders n s := by
  unfold queueSecRec queueRec offerRec
  dsimp only
  split
  · split
    · exact bystanders_of_device n (offer_device ..)
    · simp only [countDrop, bystanders_flagSec]
      exact (bystanders_of_device n (offer_device ..)).trans rfl
  · rfl
@[simp] theorem bystanders_lateCmd (c : SecCmd) : bystanders n (lateCmd n c s) = bystanders n s := by
  unfold lateCmd; split <;> simp
@[simp] theorem bystanders_dropSec : bystanders n (dropSec n s) = bystanders n s := by
  unfold dropSec
  extract_lets x u e v
  rw [foldOver_keeps fun c u => bystanders_lateCmd n u c, bystanders_flagSec]
  exact (bystanders_epc n u _).trans (bystanders_modSec ..)
@[simp] theorem bystanders_missAdoption : bystanders n (missAdoption n s) = bystanders n s := by
  unfold missAdoption
  extract_lets u
  split
  · exact (bystanders_zl n u _).trans (bystanders_modSec ..)
  · exact bystanders_modSec ..
@[simp] theorem bystanders_deadlineSec : bystanders n (deadlineSec n s) = bystanders n s := by
  unfold deadlineSec
  split
  · split <;> simp
  · simp
  · rfl
end

/-- A step of a loop over distinct sections that each touch their own finds its section as the loop found it. -/
theorem foldOver_own {f : SecId → State → State} (own : ∀ n s, bystanders n (f n s) = bystanders n s) {l : List SecId}
    (distinct : l.Nodup) (s : State) {n : SecId} (mem : n ∈ l) :
    ∃ u, u.sec n = s.sec n ∧ (foldOver l f s).sec n = (f n u).sec n := by
  have passes : ∀ (l : List SecId) (u : State), n ∉ l → (foldOver l f u).sec n = u.sec n := fun l => by
    induction l with
    | nil => exact fun _ _ => rfl
    | cons m l ih =>
      intro u notIn
      rw [List.mem_cons, not_or] at notIn
      exact (ih (f m u) notIn.2).trans ((bystanders_iff.mp (own m u)).1 n notIn.1)
  induction l generalizing s with
  | nil => cases mem
  | cons m l ih =>
    obtain ⟨fresh, distinct⟩ := List.nodup_cons.mp distinct
    rcases List.mem_cons.mp mem with rfl | later
    · exact ⟨s, rfl, passes l _ fresh⟩
    · obtain ⟨u, same, then_⟩ := ih distinct (f m s) later
      have other : n ≠ m := fun e => fresh (e ▸ later)
      exact ⟨u, same.trans ((bystanders_iff.mp (own m s)).1 n other), then_⟩

theorem foldOver_allFin_own {f : SecId → State → State} (own : ∀ n s, bystanders n (f n s) = bystanders n s) (s : State)
    (n : SecId) : ∃ u, u.sec n = s.sec n ∧ (foldOver (allFin 256) f s).sec n = (f n u).sec n :=
  foldOver_own own (List.nodup_finRange 256) s (List.mem_finRange n)

/-! ### What a late command leaves of its section (R208) -/

/-- A section apart from its result codes and the flags of SEC_FAULT. -/
def Section.substance (x : Section) : Section := { x.unflagged with authRes := 0, statRes := 0 }

section
variable (n m : SecId) (s : State)
theorem substance_of_unflagged {x y : Section} (e : x.unflagged = y.unflagged) : x.substance = y.substance := by
  simp only [Section.substance, e]
@[simp] theorem lateCmd_substance (c : SecCmd) : ((lateCmd n c s).sec m).substance = (s.sec m).substance := by
  have completed : ∀ st d u, ((completeJob c.job st d u).sec m) = u.sec m := fun st d u =>
    sec_of_device (completeJob_device ..) m
  unfold lateCmd
  split
  · rw [completed, sec_of_device (trig_device ..), substance_of_unflagged (queueSecRec_unflagged ..), modSec_sec]
    split <;> rfl
  · rw [completed, modSec_sec]
    split <;> rfl

/-- A section that is dropped shows LATE, with nothing of its working copy, and its items again in the queue (R208). -/
theorem dropSec_substance : ((dropSec n s).sec n).substance = { (s.sec n).substance with
    eval := .dropped, priv := none, late := true, queue := (s.sec n).intake ++ (s.sec n).queue, intake := [],
    intakeCmd := [], overflow := (s.sec n).overflow || (s.sec n).cutOvf, cutOvf := false } := by
  have late : ∀ u : State, ((foldOver (s.sec n).intakeCmd (lateCmd n) u).sec n).substance = (u.sec n).substance :=
    fun u => foldOver_keeps (g := fun u : State => (u.sec n).substance) (fun c v => lateCmd_substance n n v c) u
  unfold dropSec
  extract_lets x u e v
  have dropped : v.sec n = u.sec n := rfl
  rw [late, substance_of_unflagged (flagSec_unflagged ..), dropped]
  simp only [u, modSec_sec_same]
  rfl

/-- A section that the deadline finds served is dropped, whatever the role. -/
theorem deadlineSec_served {s : State} {n : SecId} (served : (s.sec n).eval = .served) : deadlineSec n s = dropSec n s := by
  simp [deadlineSec, served]
theorem deadlineSec_committed {s : State} {n : SecId} (committed : (s.sec n).eval = .committed) : deadlineSec n s = s := by
  simp [deadlineSec, committed]
end

/-! ### The deadline (R201, R210) -/

/-- A block of the epochs apart from what a drop counts and from the records that wait. -/
def Epc.quietly (e : Epc) : Epc := { e with recs := [], cntDrop := 0, dropped := 0 }

theorem snaps_of_quietly {e f : Epc} (same : e.quietly = f.quietly) : e.snaps = f.snaps := (congrArg Epc.snaps same :)

section
variable (n : SecId) (s : State)
theorem queueSecRec_epc (b : List Byte) : (queueSecRec n b s).epc.quietly = s.epc.quietly := by
  unfold queueSecRec queueRec offerRec
  dsimp only
  split
  · split
    · rw [offer_epc]
    · rw [countDrop_epc, offer_epc]
  · rfl
@[simp] theorem completeJob_epc (job : Option Nat) (st : Status) (d : Nat) : (completeJob job st d s).epc = s.epc :=
  epc_of_device (completeJob_device ..)
theorem lateCmd_epc (c : SecCmd) : (lateCmd n c s).epc.quietly = s.epc.quietly := by
  unfold lateCmd
  split
  · simp [queueSecRec_epc]
  · simp
theorem dropSec_epc : (dropSec n s).epc.quietly = s.epc.quietly := by
  unfold dropSec
  extract_lets x u e v
  refine (foldOver_keeps (g := fun u : State => u.epc.quietly) (fun c u => lateCmd_epc n u c) _).trans ?_
  rfl
theorem deadlineSec_epc : (deadlineSec n s).epc.quietly = s.epc.quietly := by
  have missed : (missAdoption n s).epc = s.epc := by
    unfold missAdoption
    dsimp only
    split <;> rfl
  unfold deadlineSec
  split
  · split
    · exact dropSec_epc n s
    · rw [missed]
  · exact dropSec_epc n s
  · rfl

theorem surveyEpoch_keeps : (surveyEpoch s).epc = s.epc ∧ (surveyEpoch s).sections = s.sections := by
  unfold surveyEpoch
  split <;> exact ⟨rfl, rfl⟩
theorem epochRecord_keeps (w : Word) : (epochRecord w s).epc = s.epc ∧ (epochRecord w s).sections = s.sections := by
  unfold epochRecord
  split
  · exact ⟨offer_epc .., (congrArg State.sections (offer_device ..) :)⟩
  · exact ⟨rfl, rfl⟩
theorem flagEpc_keeps (w : Word) : (flagEpc w s).epc = { s.epc with fault := s.epc.fault ||| w } ∧
    (flagEpc w s).sections = s.sections :=
  ⟨(epc_of_device (flagEpc_device s w) :), (congrArg State.sections (flagEpc_device s w) :)⟩

/-- The report surveys the epoch, counts it, flags it and records it, in this order (R210). -/
theorem epochReport_steps : ∃ v w flags e, epochReport s =
      { w with epc := { w.epc with paceLow := false, epochPace := 0xFFFF, fdLateEp := false } } ∧
    w = epochRecord flags (flagEpc (flags &&& 0xF) v) ∧ v = { surveyEpoch s with epc := e } ∧
    e.snaps = (surveyEpoch s).epc.snaps := ⟨_, _, _, _, rfl, rfl, rfl, rfl⟩

/-- The report of a deadline leaves the snapshots and the sections as they are. -/
theorem epochReport_keeps : (epochReport s).epc.snaps = s.epc.snaps ∧ (epochReport s).sections = s.sections := by
  obtain ⟨v, w, flags, e, report, recorded, counted, snaps⟩ := epochReport_steps s
  rw [report, recorded, (epochRecord_keeps _ _).1, (flagEpc_keeps _ _).1, counted, snaps, (surveyEpoch_keeps _).1]
  refine ⟨rfl, ?_⟩
  show (epochRecord flags _).sections = _
  rw [(epochRecord_keeps _ _).2, (flagEpc_keeps _ _).2]
  exact (surveyEpoch_keeps s).2

/-- The quiet window opens with no record waiting; the records offered may flag their sections (R201). -/
theorem openQuiet_opens : (openQuiet s).epc = { s.epc with quiet := true, recs := [] } ∧
    ∀ m, ((openQuiet s).sec m).unflagged = (s.sec m).unflagged := by
  have epc : ∀ (r : StreamRec) (u : State), (offerRec r u).epc = u.epc := fun r u => by
    unfold offerRec
    dsimp only
    split
    · rw [offer_epc]
    · rw [countDrop_epc, offer_epc]
  have secs : ∀ (m : SecId) (r : StreamRec) (u : State), ((offerRec r u).sec m).unflagged = (u.sec m).unflagged :=
    fun m r u => by
      have offered : ((offer r.orbit r.bytes u).1.sec m) = u.sec m := sec_of_device (offer_device ..) m
      have flagged : ∀ (h : HeadId) (k : Nat) (v : State), (flagTrn h k v).sec m = v.sec m := fun h k v =>
        congrArg (fun l => tget l m) (flagHead_sections ..)
      have dropped : ∀ v : State, ((countDrop r v).sec m).unflagged = (v.sec m).unflagged := fun v => by
        unfold countDrop
        extract_lets k d w x
        have counted : x.sec m = v.sec m := by
          unfold x
          split
          · exact flagged ..
          · rfl
        split
        · rw [flagSec_unflagged, counted]
        · rw [counted]
      unfold offerRec
      dsimp only
      split
      · rw [offered]
      · rw [dropped, offered]
  refine ⟨?_, fun m => ?_⟩ <;> unfold openQuiet
  · exact foldOver_keeps (g := State.epc) epc _
  · exact foldOver_keeps (g := fun u : State => (u.sec m).unflagged) (secs m) _
end

/-- Settles O29: each section is judged as the deadline found it. -/
theorem evaluationDeadlineHolds : Obligations.Evaluation_deadline := by
  unfold Obligations.Evaluation_deadline
  intro t s running notQuiet
  refine ⟨fun due => ?_, fun early => ?_⟩
  · have runs : evaluationDeadline (s.advance t) = deadline (s.advance t) := by
      have due : (s.advance t).epc.start + us 70 ≤ (s.advance t).now := due
      have notQuiet : (s.advance t).epc.quiet = false := notQuiet
      exact if_pos (by rw [notQuiet, decide_eq_true due]; rfl)
    obtain ⟨v, swept⟩ : ∃ v, foldOver (allFin 256) deadlineSec (s.advance t) = v := ⟨_, rfl⟩
    have ends : deadline (s.advance t) = openQuiet (epochReport v) := by rw [deadline, swept]
    rw [ends] at runs
    have judged : ∀ n, ∃ u, u.sec n = s.sec n ∧
        ((openQuiet (epochReport v)).sec n).unflagged = ((deadlineSec n u).sec n).unflagged := fun n => by
      obtain ⟨u, found, last⟩ := foldOver_allFin_own bystanders_deadlineSec (s.advance t) n
      refine ⟨u, found, ((openQuiet_opens _).2 n).trans ?_⟩
      rw [← last, swept]
      exact congrArg (fun l => (tget l n).unflagged) (epochReport_keeps _).2
    have snaps : (openQuiet (epochReport v)).epc.snaps = s.epc.snaps := by
      have each := foldOver_keeps (l := allFin 256) (g := fun u : State => u.epc.quietly) (fun n u => deadlineSec_epc n u)
        (s.advance t)
      rw [(openQuiet_opens _).1, (epochReport_keeps v).1, ← swept]
      exact snaps_of_quietly each
    refine ⟨_, congrArg Host.Outcome.next ((whenRunning_advance running).trans runs), ?_, ?_, snaps, fun n served => ?_,
      fun n committed => ?_⟩
    · exact congrArg Epc.quiet (openQuiet_opens _).1
    · exact congrArg Epc.recs (openQuiet_opens _).1
    · obtain ⟨u, found, end_⟩ := judged n
      rw [deadlineSec_served (by rw [found]; exact served)] at end_
      have dropped := (substance_of_unflagged end_).trans (dropSec_substance n u)
      rw [found] at dropped
      exact ⟨(congrArg Section.eval dropped :), (congrArg Section.late dropped :), (congrArg Section.priv dropped :),
        (congrArg (fun x : Section => x.core.state) dropped :), (congrArg (fun x : Section => x.core.count) dropped :)⟩
    · obtain ⟨u, found, end_⟩ := judged n
      rw [deadlineSec_committed (by rw [found]; exact committed), found] at end_
      exact ⟨(congrArg Section.eval end_ :).trans committed, (congrArg (fun x : Section => x.core.state) end_ :)⟩
  · have waits : evaluationDeadline (s.advance t) = s.advance t := by
      have early : ¬(s.advance t).epc.start + us 70 ≤ (s.advance t).now := Nat.not_le.mpr early
      exact if_neg (by rw [decide_eq_false early, Bool.and_false]; decide)
    exact congrArg Host.Outcome.next ((whenRunning_advance running).trans waits)

end Sys2Proof.Machine
end

section
/-! SUPPORT. Which addresses hold a register, and the RW bits of each, are the same in every state (R261). -/
namespace Sys2Proof.Machine

/-- The RW mask of what a read shows, where there is a register. -/
def maskOf (r : Option RegView) : Option Word := r.map (·.rw)

@[simp] theorem maskOf_ro (v : Word) : maskOf (ro v) = some 0 := (rfl)
@[simp] theorem maskOf_rw (v m : Word) : maskOf (rw v m) = some m := (rfl)
@[simp] theorem maskOf_none : maskOf none = none := (rfl)
@[simp] theorem maskOf_ite {p : Prop} [Decidable p] (a b : Option RegView) :
    maskOf (if p then a else b) = if p then maskOf a else maskOf b := apply_ite _ _ _ _
theorem maskOf_roAt (l : List Word) (k : Nat) : maskOf (roAt l k) = if k < l.length then some 0 else none := by
  rw [maskOf, roAt, Option.map_map]
  split
  · next inside => rw [List.getElem?_eq_getElem inside]; rfl
  · next outside => rw [List.getElem?_eq_none (Nat.le_of_not_lt outside)]; rfl
theorem maskOf_roAt_three (a b c : Word) (k : Nat) : maskOf (roAt [a, b, c] k) = if k < 3 then some 0 else none :=
  maskOf_roAt ..
theorem maskOf_words (l : List Word) (k : Nat) (m : Word) :
    maskOf ((l[k]?).map fun v => { val := v, rw := m }) = if k < l.length then some m else none := by
  rw [maskOf, Option.map_map]
  split
  · next inside => rw [List.getElem?_eq_getElem inside]; rfl
  · next outside => rw [List.getElem?_eq_none (Nat.le_of_not_lt outside)]; rfl

theorem zlRegs_length (s : State) : (zlRegs s).length = 12 := by
  simp only [zlRegs, List.length_cons, List.length_nil]
theorem trnRegs_length (s : State) (h : HeadId) : (trnRegs s h).length = 18 := by
  simp only [trnRegs, List.length_cons, List.length_nil]
theorem secRegs_length (x : Section) : (secRegs x).length = 24 := by
  simp only [secRegs, List.length_append, List.length_cons, List.length_nil, Vector.length_toList]

section
variable (s u : State) (o : Nat)
theorem hpView_mask : maskOf (hpView s o) = maskOf (hpView u o) := by simp only [hpView, maskOf_ite, maskOf_ro, maskOf_rw]
theorem orbView_mask (k : Fin 16) : maskOf (orbView s k o) = maskOf (orbView u k o) := by
  simp only [orbView, maskOf_ite, maskOf_ro, maskOf_rw]
theorem irqView_masks : maskOf (irqView s o) = maskOf (irqView u o) := by
  simp only [irqView, maskOf_ite, maskOf_ro, maskOf_rw]
theorem feDieView_mask (d : DieId) : maskOf (feDieView s d o) = maskOf (feDieView u d o) := by
  simp only [feDieView, maskOf_ite, maskOf_ro]
theorem xsDevView_mask : maskOf (xsDevView s o) = maskOf (xsDevView u o) := by
  simp only [xsDevView, maskOf_ite, maskOf_ro, maskOf_rw]
theorem fltDieView_mask (d : DieId) : maskOf (fltDieView s d o) = maskOf (fltDieView u d o) := by
  simp only [fltDieView, maskOf_ite, maskOf_ro]
theorem cmpDevView_mask : maskOf (cmpDevView s o) = maskOf (cmpDevView u o) := by
  simp only [cmpDevView, maskOf_ite, maskOf_ro]
theorem trnDevView_mask : maskOf (trnDevView s o) = maskOf (trnDevView u o) := by
  simp only [trnDevView, maskOf_ite, maskOf_ro]
theorem secDevView_mask : maskOf (secDevView s o) = maskOf (secDevView u o) := by
  simp only [secDevView, maskOf_ite, maskOf_ro, maskOf_rw]
theorem epcView_mask : maskOf (epcView s o) = maskOf (epcView u o) := by
  simp only [epcView, maskOf_ite, maskOf_ro, maskOf_rw]
theorem vspView_mask : maskOf (vspView s o) = maskOf (vspView u o) := by
  simp only [vspView, maskOf_ite, maskOf_ro, maskOf_rw, maskOf_roAt_three]
theorem zlView_mask : maskOf (zlView s o) = maskOf (zlView u o) := by
  simp only [zlView, maskOf_ite, maskOf_ro, maskOf_rw, maskOf_roAt, zlRegs_length]
theorem tbView_mask : maskOf (tbView s o) = maskOf (tbView u o) := by
  simp only [tbView, maskOf_ite, maskOf_ro, maskOf_rw]
theorem recView_mask : maskOf (recView s o) = maskOf (recView u o) := by
  simp only [recView, maskOf_ite, maskOf_ro, maskOf_rw]
theorem pwrView_mask : maskOf (pwrView s o) = maskOf (pwrView u o) := by
  simp only [pwrView, maskOf_ite, maskOf_ro, maskOf_rw]
theorem clkView_mask : maskOf (clkView s o) = maskOf (clkView u o) := by
  simp only [clkView, maskOf_ite, maskOf_ro, maskOf_rw]
theorem eclView_mask : maskOf (eclView s o) = maskOf (eclView u o) := by
  simp only [eclView, maskOf_ite, maskOf_ro, maskOf_rw]
theorem feView_mask (h : HeadId) : maskOf (feView s h o) = maskOf (feView u h o) := by
  simp only [feView, maskOf_ite, maskOf_ro, maskOf_rw]
theorem xsView_mask (h : HeadId) : maskOf (xsView s h o) = maskOf (xsView u h o) := by
  simp only [xsView, xsPlanView, maskOf_ite, maskOf_ro, maskOf_rw]
theorem fltView_mask (h : HeadId) : maskOf (fltView s h o) = maskOf (fltView u h o) := by
  simp only [fltView, maskOf_ite, maskOf_ro, maskOf_rw]
theorem cmpView_mask (h : HeadId) : maskOf (cmpView s h o) = maskOf (cmpView u h o) := by
  simp only [cmpView, maskOf_ite, maskOf_ro, maskOf_rw]
theorem trnView_mask (h : HeadId) : maskOf (trnView s h o) = maskOf (trnView u h o) := by
  unfold trnView
  split
  · rw [maskOf_words, maskOf_words, trnRegs_length, trnRegs_length]
  · rfl
theorem secView_mask (n : SecId) : maskOf (secView s n o) = maskOf (secView u n o) := by
  unfold secView
  split
  · rw [maskOf_words, maskOf_words, secRegs_length, secRegs_length]
  · rfl

theorem headRegs_mask (h : HeadId) : maskOf (headRegs s h o) = maskOf (headRegs u h o) := by
  simp only [headRegs, maskOf_ite]
  rw [feView_mask s u, xsView_mask s u, fltView_mask s u, cmpView_mask s u, trnView_mask s u]

/-- A die that is off shows zeros, with the same RW bits (R332). -/
theorem headView_mask (h : HeadId) : maskOf (headView s h o) = maskOf (headView u h o) := by
  have shown : ∀ s : State, maskOf (headView s h o) = maskOf (headRegs s h o) := fun s => by
    unfold headView
    split
    · rfl
    · exact Option.map_map ..
  rw [shown, shown, headRegs_mask]

theorem devView_mask : maskOf (devView s o) = maskOf (devView u o) := by
  simp only [devView, maskOf_ite]
  rw [feDieView_mask s u, xsDevView_mask s u, fltDieView_mask s u, cmpDevView_mask s u, trnDevView_mask s u,
    secDevView_mask s u, epcView_mask s u, vspView_mask s u, zlView_mask s u, tbView_mask s u, recView_mask s u,
    pwrView_mask s u, clkView_mask s u, eclView_mask s u]

theorem regView_mask_eq : maskOf (regView s o) = maskOf (regView u o) := by
  simp only [regView, maskOf_ite]
  rw [hpView_mask s u, orbView_mask s u, irqView_masks s u, devView_mask s u, headView_mask s u, secView_mask s u]

/-- An address is mapped in every state or in none. -/
theorem regView_isSome : (regView s o).isSome = (regView u o).isSome := by
  have mapped : ∀ r : Option RegView, r.isSome = (maskOf r).isSome := fun r => Option.isSome_map.symm
  rw [mapped, mapped, regView_mask_eq s u]
theorem regView_none (empty : regView s o = none) : regView u o = none := by
  rw [← Option.not_isSome_iff_eq_none, regView_isSome u s, empty]; simp
end

end Sys2Proof.Machine
end

section
/-! SUPPORT. Admission, completion and the host-port commands (R264, R268 to R275). Settles O47, O48, O49. -/
namespace Sys2Proof.Machine

/-! ### The consumer and producer indices (R268) -/

section
variable (k : Fin 16) (s : State)
theorem stepIndex_orbits :
    (stepIndex k s).orbits = (s.modOrbit k fun o => { o with devIdx := o.devIdx + 1 }).orbits := by
  simp only [stepIndex]; split <;> rfl
theorem stepIndex_orbit (j : Fin 16) :
    (stepIndex k s).orbit j = if j = k then { s.orbit j with devIdx := (s.orbit j).devIdx + 1 } else s.orbit j := by
  rw [State.orbit, stepIndex_orbits, ← State.orbit, modOrbit_orbit]
theorem stepIndex_out : (stepIndex k s).out =
    (dmaRequests s.hp.maxPayload (s.orbit k).shadow [] (leWord ((s.orbit k).devIdx + 1))).reverse ++ s.out := by
  simp only [stepIndex]; split <;> rfl
end

/-- An admitted command is the last of those in progress. -/
theorem takeFirst_append_last {α : Type} {p : α → Bool} {l : List α} {b : α} (none_ : ∀ a ∈ l, p a = false)
    (last : p b = true) : takeFirst p (l ++ [b]) = some (b, l) := by
  induction l with
  | nil => simp [takeFirst, last]
  | cons a l ih =>
    rw [List.cons_append, takeFirst, none_ a (List.mem_cons_self ..), ih fun x m => none_ x (List.mem_cons_of_mem a m)]
    rfl

/-- A command that is not lost, whose completion can be written and whose response fits, completes in full. -/
theorem complete_writes {seq : Nat} {st : Status} {d : Nat} {resp : List Byte} {s : State} {e : InFlight}
    {rest : List InFlight} (took : takeFirst (fun c : InFlight => c.admSeq == seq) s.hp.inflight = some (e, rest))
    (kept : e.lost = false) (master : canMaster s = true) (en : (s.orbit (compOrbit e.orbit)).en = true)
    (fits : resp.length ≤ e.rlen) (st_ : st ≠ .refusedBusy) :
    ∃ w : State, complete seq st d resp s = writeCompletion e st d resp w ∧ w.hp = { s.hp with inflight := rest } ∧
      w.orbits = s.orbits ∧ w.out = s.out ∧ w.device = s.device := by
  have master' : ∀ r, canMaster { s with hp := { s.hp with inflight := rest, refused := r } } = true := fun _ => master
  have en' : ∀ h, (({ s with hp := h } : State).orbit (compOrbit e.orbit)).en = true := fun _ => en
  refine ⟨{ s with hp := { s.hp with inflight := rest } }, ?_, rfl, rfl, rfl, rfl⟩
  rw [complete, took]
  simp only [kept, master', en', Bool.not_true, Bool.or_self, Bool.false_eq_true, if_false, if_neg (Nat.not_lt.mpr fits),
    if_neg st_]

/-- A completion without a response writes its descriptor, then steps the index. -/
theorem writeCompletion_steps (e : InFlight) (st : Status) (d : Nat) (s : State) :
    ∃ w : State, writeCompletion e st d [] s = stepIndex (compOrbit e.orbit) w ∧
      w.hp = { s.hp with completed := (s.hp.completed + 1) % 65536 } ∧ w.orbits = s.orbits ∧
      w.out = (dmaRequests s.hp.maxPayload
        ((s.orbit (compOrbit e.orbit)).slot (s.orbit (compOrbit e.orbit)).devIdx) []
        (completionBytes e st d 0 s.epc.seq)).reverse ++ s.out :=
  ⟨_, rfl, rfl, rfl, rfl⟩

/-- What a completion without a response writes, and where. -/
theorem writeCompletion_bare (e : InFlight) (st : Status) (d : Nat) (s : State) :
    let k := compOrbit e.orbit
    let u := writeCompletion e st d [] s
    u.hp = { s.hp with completed := (s.hp.completed + 1) % 65536 } ∧
      (∀ j, u.orbit j = if j = k then { s.orbit j with devIdx := (s.orbit j).devIdx + 1 } else s.orbit j) ∧
      u.out = (dmaRequests s.hp.maxPayload (s.orbit k).shadow [] (leWord ((s.orbit k).devIdx + 1))).reverse ++
        ((dmaRequests s.hp.maxPayload ((s.orbit k).slot (s.orbit k).devIdx) []
          (completionBytes e st d 0 s.epc.seq)).reverse ++ s.out) := by
  intro k u
  obtain ⟨w, shape, hp, orbits, out⟩ := writeCompletion_steps e st d s
  have at_ : ∀ j, w.orbit j = s.orbit j := fun j => congrArg (fun v => tget v j) orbits
  refine ⟨?_, fun j => ?_, ?_⟩
  · rw [show u = _ from shape, stepIndex_hp, hp]
  · rw [show u = _ from shape, stepIndex_orbit, at_]
  · rw [show u = _ from shape, stepIndex_out, at_, hp, out]

theorem compOrbit_ne (k : Fin 4) : compOrbit k ≠ cmdOrbit k := by
  simp only [compOrbit, cmdOrbit, ne_eq, Fin.mk.injEq]; omega

/-- Admission frees the place of a waiting descriptor, then steps the consumer index. -/
theorem admitCmd_steps (op : BitVec 16) (long : Bool) (c : Cmd) (s : State) :
    ∃ w : State, admitCmd op long c s = stepIndex (cmdOrbit c.orbit) w ∧ w.hp.maxPayload = s.hp.maxPayload ∧
      w.orbits = (s.modOrbit (cmdOrbit c.orbit) fun o => { o with waiting := none }).orbits ∧ w.out = s.out :=
  ⟨_, rfl, rfl, rfl, rfl⟩

section
variable (op : BitVec 16) (long : Bool) (c : Cmd) (s : State)
theorem admitCmd_orbit (j : Fin 16) : (admitCmd op long c s).orbit j = if j = cmdOrbit c.orbit then
    { s.orbit j with waiting := none, devIdx := (s.orbit j).devIdx + 1 } else s.orbit j := by
  obtain ⟨w, shape, _, orbits, _⟩ := admitCmd_steps op long c s
  have at_ : w.orbit j = (s.modOrbit (cmdOrbit c.orbit) fun o => { o with waiting := none }).orbit j :=
    congrArg (fun v => tget v j) orbits
  rw [shape, stepIndex_orbit, at_, modOrbit_orbit]
  split <;> rfl
theorem admitCmd_out : (admitCmd op long c s).out =
    (dmaRequests s.hp.maxPayload (s.orbit (cmdOrbit c.orbit)).shadow []
      (leWord ((s.orbit (cmdOrbit c.orbit)).devIdx + 1))).reverse ++ s.out := by
  obtain ⟨w, shape, mps, orbits, out⟩ := admitCmd_steps op long c s
  have at_ : w.orbit (cmdOrbit c.orbit) =
      (s.modOrbit (cmdOrbit c.orbit) fun o => { o with waiting := none }).orbit (cmdOrbit c.orbit) :=
    congrArg (fun v => tget v (cmdOrbit c.orbit)) orbits
  rw [shape, stepIndex_out, mps, out, at_, modOrbit_orbit_same]
end

/-- A descriptor that may be admitted finds its orbits running and the host's memory open. -/
theorem admissible_parts {op : BitVec 16} {c : Cmd} {s : State} (h : admissible op c s = true) :
    canMaster s = true ∧ (s.orbit (compOrbit c.orbit)).en = true := by
  simp only [admissible, orbitReady, noSlot, Bool.and_eq_true, Bool.not_eq_true', Bool.or_eq_false_iff,
    Bool.not_eq_false'] at h
  exact ⟨h.1.1.1.1.1.1.1.2, h.1.1.1.2.1⟩

/-- Settles O47. -/
theorem completionOfACommand : Obligations.Completion_of_a_command := by
  intro t c s A fresh
  obtain ⟨master, en⟩ := admissible_parts A.1
  let a := admitCmd 0x0001 false c (s.advance t)
  have orbits : ∀ j, a.orbit j = if j = cmdOrbit c.orbit then
      { s.orbit j with waiting := none, devIdx := (s.orbit j).devIdx + 1 } else s.orbit j :=
    admitCmd_orbit 0x0001 false c (s.advance t)
  obtain ⟨e, he, ported⟩ : ∃ e : InFlight, e =
      { opcode := 0x0001, tag := c.tag, orbit := c.orbit, cmdIdx := (s.orbit (cmdOrbit c.orbit)).devIdx,
        rlen := c.rlen.toNat, raddr := c.raddr, epochAdm := s.epc.seq, admSeq := s.hp.admSeq, long := false,
        lost := false } ∧ a.hp = { s.hp with admSeq := s.hp.admSeq + 1, served := c.orbit.val + 1, inflight := s.hp.inflight ++ [e] } :=
    ⟨_, rfl, by simp only [a, admitCmd, stepIndex_hp]; rfl⟩
  have took : takeFirst (fun i : InFlight => i.admSeq == s.hp.admSeq) a.hp.inflight = some (e, s.hp.inflight) := by
    rw [ported]
    exact takeFirst_append_last (fun i m => beq_eq_false_iff_ne.mpr (fresh i m)) (by rw [he]; exact beq_self_eq_true _)
  have at_ : e.orbit = c.orbit := by rw [he]
  have devd : a.device = s.device := admitCmd_device ..
  have master' : canMaster a = true := by
    have ups : hostUp a = hostUp s := by rw [hostUp, hostUp, pwr_of_device devd, clk_of_device devd]
    rw [canMaster, ported, ups]
    exact master
  have comp : a.orbit (compOrbit c.orbit) = s.orbit (compOrbit c.orbit) :=
    (orbits _).trans (if_neg (compOrbit_ne c.orbit))
  obtain ⟨w, wrote, whp, worbits, wout, wdev⟩ := complete_writes (d := 0) (resp := []) (st := .ok) took (by rw [he]) master'
    (by rw [at_, comp]; exact en) (Nat.zero_le _) (by decide)
  have left : ∀ j, w.orbit j = a.orbit j := fun j => congrArg (fun v => tget v j) worbits
  obtain ⟨hp, moved, out⟩ := writeCompletion_bare e .ok 0 w
  rw [at_] at moved out
  rw [whp, ported] at hp
  refine ⟨_, congrArg Host.Outcome.next ((command_accepted A).trans wrote),
    (writeCompletion_device ..).trans (wdev.trans devd), by rw [hp], by rw [hp], by rw [hp],
    by rw [hp], by rw [hp], ?_, ?_, fun k c1 c2 => ?_, ?_⟩
  · rw [moved, if_neg (compOrbit_ne c.orbit).symm, left, orbits, if_pos rfl]
  · rw [moved, if_pos rfl, left, comp]
  · rw [moved, if_neg c2, left, orbits, if_neg c1]
  · refine out.trans ?_
    rw [left, comp, whp, ported, wout, epc_of_device (wdev.trans devd), he]
    exact congrArg₂ (· ++ ·) rfl (congrArg₂ (· ++ ·) rfl (admitCmd_out ..))

/-! ### What is not admitted (R270 to R272) -/

section
variable (op : BitVec 16) (c : Cmd) (s : State)

/-- Holding a descriptor back does no more than to keep it where its orbit had none. -/
theorem holdBack_keeps : ∃ w, holdBack op c s = s.modOrbit (cmdOrbit c.orbit) (fun o => { o with waiting := w }) ∧
    (∀ v, (s.orbit (cmdOrbit c.orbit)).waiting = some v → w = some v) ∧
    (orbitReady c.orbit s = true → (s.orbit (cmdOrbit c.orbit)).waiting = none →
      (noSlot c.orbit s = true ∨ fenceHolds c s = true) → w = some { opcode := op, desc := descOf c }) := by
  unfold holdBack
  split
  · next held =>
    simp only [Bool.and_eq_true, Option.isNone_iff_eq_none] at held
    exact ⟨_, rfl, fun v some_ => (by rw [held.1.2] at some_; cases some_), fun _ _ _ => rfl⟩
  · next free =>
    refine ⟨(s.orbit (cmdOrbit c.orbit)).waiting, ?_, fun _ some_ => some_, fun ready none_ why => ?_⟩
    · exact (modOrbit_id _ _ _ rfl).symm
    · refine (free ?_).elim
      rw [ready, none_, Bool.or_eq_true _ _ |>.mpr why]
      rfl
end

/-- A descriptor that waits lets no other of its orbit in before it. -/
theorem admissible_waiting {op : BitVec 16} {c : Cmd} {s : State} {w : Waiting}
    (waits : (s.orbit (cmdOrbit c.orbit)).waiting = some w) (other : w.opcode ≠ op ∨ w.desc ≠ descOf c) :
    admissible op c s = false := by
  have differs : (w == ({ opcode := op, desc := descOf c } : Waiting)) = false :=
    beq_eq_false_iff_ne.mpr fun e => by subst e; exact other.elim (· rfl) (· rfl)
  rw [admissible, waits, Option.all_some, differs, Bool.and_false]

/-- The host-port checks of R271 and R272, in their order. -/
theorem command_checks {op : BitVec 16} {long : Bool} {need rneed : Nat} {c : Cmd} {body : Nat → State → State} {s : State}
    (h : admissible op c s = true) :
    (c.plen.toNat < need →
      command op long need rneed c body s = complete s.hp.admSeq .badLength 0xF0 [] (admitCmd op long c s)) ∧
    (need ≤ c.plen.toNat → long = true → 8 ≤ (s.hp.inflight.filter (·.long)).length →
      command op long need rneed c body s = complete s.hp.admSeq .refusedBusy 0xF3 [] (admitCmd op long c s)) ∧
    (need ≤ c.plen.toNat → 64 ≤ s.hp.inflight.length →
      (long = true → (s.hp.inflight.filter (·.long)).length < 8) →
      command op long need rneed c body s = complete s.hp.admSeq .refusedBusy 0xF2 [] (admitCmd op long c s)) ∧
    (need ≤ c.plen.toNat → s.hp.inflight.length < 64 →
      (long = true → (s.hp.inflight.filter (·.long)).length < 8) → c.rlen.toNat < rneed →
      command op long need rneed c body s = complete s.hp.admSeq .shortBuffer 0 [] (admitCmd op long c s)) := by
  have longs : (long = true → (s.hp.inflight.filter (·.long)).length < 8) →
      ¬(long && decide (8 ≤ (s.hp.inflight.filter (·.long)).length)) = true := fun few many => by
    rw [Bool.and_eq_true, decide_eq_true_eq] at many
    exact Nat.not_le.mpr (few many.1) many.2
  simp only [command, h, Bool.not_true, Bool.false_eq_true, if_false]
  refine ⟨fun short => if_pos short, fun enough l many => ?_, fun enough many few => ?_, fun enough room few short => ?_⟩
  · rw [if_neg (Nat.not_lt.mpr enough), if_pos (by rw [l, decide_eq_true many]; rfl)]
  · rw [if_neg (Nat.not_lt.mpr enough), if_neg (longs few), if_pos many]
  · rw [if_neg (Nat.not_lt.mpr enough), if_neg (longs few), if_neg (Nat.not_le.mpr room), if_pos short]

/-- Settles O48. -/
theorem hostPortChecks : Obligations.Host_port_checks := by
  intro i s op long need rneed c shape
  obtain ⟨body, run⟩ := exec_of_commandShape s shape
  refine ⟨fun shut => ?_, fun w waits other => admissible_waiting waits other, fun open_ => ?_⟩
  · obtain ⟨w, held, stays, waits⟩ := holdBack_keeps op c (s.advance (timeOf i))
    rw [command_waits shut, held] at run
    refine ⟨_, run, rfl, rfl, rfl, rfl, fun k => ?_, fun v some_ => ?_, fun ready none_ why => ?_⟩
    · rw [modOrbit_orbit]
      split <;> rfl
    · rw [modOrbit_orbit_same]
      exact stays v some_
    · rw [modOrbit_orbit_same]
      exact waits ready none_ why
  · rw [run]
    obtain ⟨c1, c2, c3, c4⟩ := command_checks (long := long) (need := need) (rneed := rneed) (body := body) open_
    have kept : (admitCmd op long c (s.advance (timeOf i))).device = s.device := admitCmd_device ..
    exact ⟨fun a => ⟨_, congrArg _ (c1 a), kept⟩, fun a b d => ⟨_, congrArg _ (c2 a b d), kept⟩,
      fun a b d => ⟨_, congrArg _ (c3 a b d), kept⟩, fun a b d e => ⟨_, congrArg _ (c4 a b d e), kept⟩⟩

/-! ### The host-port commands (R264, R274, R275) -/

section
variable {s : State} {p : List Byte} {seq : Nat}
theorem hpSeal_first (open_ : s.hp.isSealed = false) :
    hpSeal seq s = complete seq .ok 0 [] (s.modHp fun p => { p with isSealed := true }) := by
  rw [hpSeal, if_neg (by rw [open_]; decide)]
theorem hpSeal_again (shut : s.hp.isSealed = true) : hpSeal seq s = complete seq .sealed 0 [] s := if_pos shut

theorem hpWrite_sealed (shut : s.hp.isSealed = true) : hpWrite p seq s = complete seq .sealed 0 [] s := if_pos shut
theorem hpWrite_unmapped (open_ : s.hp.isSealed = false) (none_ : regView s (field p 0 4) = none) :
    hpWrite p seq s = complete seq .conflict 0xF4 [] s := by
  simp [hpWrite, open_, none_]

/-- Before sealing a write of EPC_CFG stores its defined bits. -/
theorem writeReg_epcCfg (v : Word) (open_ : s.hp.isSealed = false) :
    writeReg 0x4700C v s = { s with epc := { s.epc with cfg := v &&& 0xFFFF } } := by
  have shown : regView s 0x4700C = some { val := s.epc.cfg, rw := 0xFFFF } := rfl
  have block : writeReg 0x4700C v s = devWrite 0x4700C v { val := s.epc.cfg, rw := 0xFFFF } s := by
    rw [writeReg, shown]
    rfl
  rw [block, devWrite]
  have quiet : devAct 0x4700C v s = none := rfl
  rw [quiet]
  simp only [open_, Bool.false_eq_true, if_false]
  rfl

theorem hpWrite_epcCfg (open_ : s.hp.isSealed = false) (at_ : field p 0 4 = 0x4700C) :
    ∃ v, hpWrite p seq s = complete seq .ok 0 [] v ∧ v.hp = { s.hp with muted := none } ∧
      v.device = ({ s with epc := { s.epc with cfg := wordArg p 4 &&& 0xFFFF } } : State).device := by
  have mapped : (regView s 0x4700C).isNone = false := rfl
  refine ⟨{ s with hp := { s.hp with muted := none }, epc := { s.epc with cfg := wordArg p 4 &&& 0xFFFF } }, ?_, rfl, rfl⟩
  rw [hpWrite, at_, if_neg (by rw [open_]; decide), mapped]
  rw [writeReg_epcCfg (s := s.modHp fun h => { h with muted := some 0 }) _ open_]
  rfl

theorem put_word (v : Nat) (small : v < 65536) : put 0 16 v = word v := by
  rw [put, Nat.mod_eq_of_lt (show v < 2 ^ 16 from small), Nat.pow_zero, Nat.mul_one, word]

theorem badOpcode_completes {op : BitVec 16} {c : Cmd} (h : admissible op c s = true) :
    badOpcode op c s = complete s.hp.admSeq .badOpcode 0 [] (admitCmd op false c s) := if_pos h
end

/-- Settles O49. -/
theorem hostPortCommands : Obligations.Host_port_commands := by
  intro t c s
  refine ⟨fun A => ?_, fun A => ⟨fun shut => ?_, fun open_ none_ => ?_, fun open_ at_ => ?_⟩, fun A => ?_, fun op h => ?_⟩
  · obtain ⟨e, ob, ir, ou, ad, run⟩ := command_runs 0x0002 hpSeal A
    refine ⟨fun open_ => ?_, fun shut => ?_⟩
    · rw [hpSeal_first (s := s.admitted t e ob ir ou) open_] at run
      exact ⟨_, congrArg Host.Outcome.next run, ad, rfl, rfl⟩
    · rw [hpSeal_again (s := s.admitted t e ob ir ou) shut] at run
      exact ⟨_, congrArg Host.Outcome.next run, ad, shut, rfl⟩
  · exact answers_of A rfl fun e ob ir ou => ⟨_, hpWrite_sealed (s := s.admitted t e ob ir ou) shut, rfl, rfl⟩
  · refine answers_of A rfl fun e ob ir ou => ⟨_, hpWrite_unmapped (s := s.admitted t e ob ir ou) open_ ?_, rfl, rfl⟩
    exact regView_none s _ _ (Option.isNone_iff_eq_none.mp none_)
  · obtain ⟨e, ob, ir, ou, ad, run⟩ := command_runs 0x0003 (fun seq => hpWrite c.payload seq) A
    obtain ⟨v, ran, hp, same⟩ := hpWrite_epcCfg (p := c.payload) (seq := s.hp.admSeq) (s := s.admitted t e ob ir ou) open_ at_
    obtain ⟨next, x, last, facts⟩ := ad
    rw [ran] at run
    exact ⟨v, congrArg Host.Outcome.next run, ⟨by rw [hp]; exact next, x, by rw [hp]; exact last, facts⟩, same⟩
  · obtain ⟨e, ob, ir, ou, ad, run⟩ := command_runs 0x0004 hpIdent A
    refine ⟨{ s.admitted t e ob ir ou with epc := { s.epc with seqHi := s.epc.seq / 2 ^ 32 % 65536 } },
      congrArg Host.Outcome.next run, ad, ?_, ?_, rfl⟩
    · rfl
    · exact put_word _ (Nat.mod_lt _ (by decide))
  · exact ⟨_, congrArg Host.Outcome.next (badOpcode_completes h), (admitCmd_admitted (s.advance t) op false c),
      admitCmd_device ..⟩

end Sys2Proof.Machine
end

section
/-! SUPPORT. Accesses of the host to registers (R4, R262 to R264, R283). Settles O50. -/
namespace Sys2Proof.Machine

/-! ### The host-port error counter (R263) -/

section
variable (cause : Nat) (bar2 : Bool) (off : Nat) (v : Word) {s : State}

/-- An event that is not muted counts once and is logged; nothing else of the host port changes. -/
theorem hpErr_hp (heard : s.hp.muted = none) : (hpErr cause bar2 off v s).hp = { s.hp with
    errCount := satNat 16 (s.hp.errCount + 1)
    errLog := put 28 4 cause ||| put 27 1 (b2n bar2) ||| put 0 23 off } := by
  simp only [hpErr, heard, Option.isSome_none, Bool.false_eq_true, if_false]
  split <;> split
  · exact (offer_hp ..).trans rfl
  · rfl
  · exact (offer_hp ..).trans rfl
  · rfl

/-- A counted refusal: the device is as it was, the counter has stepped and the log shows the cause. -/
theorem hpErr_counts (heard : s.hp.muted = none) : (hpErr cause bar2 off v s).hp.isSealed = s.hp.isSealed ∧
    (hpErr cause bar2 off v s).hp.errCount = min (s.hp.errCount + 1) 65535 ∧
    (hpErr cause bar2 off v s).hp.errLog = (put 28 4 cause ||| put 27 1 (b2n bar2) ||| put 0 23 off) ∧
    (hpErr cause bar2 off v s).device = s.device := by
  rw [hpErr_hp cause bar2 off v heard, hpErr_device]
  exact ⟨rfl, rfl, rfl, rfl⟩
end

/-! ### Single registers -/

section
variable {v : Word} {s : State}

theorem sealWrite_other (h : v ≠ 0x5EA10001) : sealWrite v s = hpErr 7 false 0x20 v s := if_neg h
theorem errClr_clears (h : bit v 0 = true) : errClr v s = s.modHp fun p => { p with errCount := 0, errLog := 0 } := if_pos h
theorem epcCtrl_clears (h : bit v 0 = true) :
    epcCtrl v s = { s with epc := { s.epc with minSlack := 0x8C, minAt := 0, paceMin := 0xFFFF } } := if_pos h

theorem endRead_none {l : Lane} (under : ∀ r, (s.vsp.lane l).read = some r → s.now < r.done) : endRead l s = s := by
  unfold endRead
  split
  · next r h => exact if_neg (Nat.not_le.mpr (under r h))
  · rfl
theorem endReads_none (under : ∀ l r, (s.vsp.lane l).read = some r → s.now < r.done) : endReads s = s := by
  rw [endReads, endRead_none (under .a), endRead_none (under .b), endRead_none (under .c)]

/-- VSP_TEST arms the lanes that it names, and no other. -/
theorem armCrcFail_arms (under : ∀ l r, (s.vsp.lane l).read = some r → s.now < r.done) :
    (∀ l : Lane, ((armCrcFail v s).vsp.lane l).crcFail = ((s.vsp.lane l).crcFail || bit v (laneIdx l)) ∧
      ((armCrcFail v s).vsp.lane l).bits = (s.vsp.lane l).bits) ∧
    armCrcFail v s = { s with vsp := (armCrcFail v s).vsp } := by
  have armed : ∀ (l : Lane) (u : State), ∃ w : LaneSt,
      (if bit v (laneIdx l) then u.modLane l (fun x => { x with crcFail := true }) else u) = u.modLane l (fun _ => w) ∧
        w.crcFail = ((u.vsp.lane l).crcFail || bit v (laneIdx l)) ∧ w.bits = (u.vsp.lane l).bits := fun l u => by
    cases bit v (laneIdx l)
    · exact ⟨u.vsp.lane l, by cases l <;> rfl, (Bool.or_false _).symm, rfl⟩
    · exact ⟨{ u.vsp.lane l with crcFail := true }, rfl, (Bool.or_true _).symm, rfl⟩
  unfold armCrcFail
  rw [endReads_none under]
  obtain ⟨a, ea, fa, ba⟩ := armed .a s
  obtain ⟨b, eb, fb, bb⟩ := armed .b (s.modLane .a fun _ => a)
  obtain ⟨c, ec, fc, bc⟩ := armed .c ((s.modLane .a fun _ => a).modLane .b fun _ => b)
  simp only [ea, eb, ec]
  refine ⟨fun l => ?_, rfl⟩
  cases l
  · exact ⟨fa, ba⟩
  · exact ⟨fb, bb⟩
  · exact ⟨fc, bc⟩

/-- The first two bytes of a word that fits in them. -/
theorem enabledBytes_low (n : Nat) : enabledBytes 3 (put 0 16 n) = le 2 n := by
  have low : ∀ w : Word, enabledBytes 3 w = le 2 w.toNat := fun w => by simp [enabledBytes, leWord, le]
  rw [low, put, BitVec.toNat_ofNat, Nat.pow_zero, Nat.mul_one, Nat.mod_eq_of_lt (by omega)]
  exact le_mod 2 n

/-- A read of EPC_SEQ_LO and the low half of EPC_SEQ_HI captures, then answers. -/
theorem busRead_seq : busRead { off := 0x47000, dwords := 2, firstBe := 15, lastBe := 3 } s = { s with
    epc := { s.epc with seqHi := s.epc.seq / 2 ^ 32 % 65536 }
    hp := { s.hp with readData := some (le 4 s.epc.seq ++ le 2 (s.epc.seq / 2 ^ 32)) } } := by
  have answer : ∀ u : State, readAnswer .bar0 { off := 0x47000, dwords := 2, firstBe := 15, lastBe := 3 } u =
      some (enabledBytes 15 (readReg u 0x47000) ++ (enabledBytes 3 (readReg u 0x47004) ++ [])) := fun _ => rfl
  have lo : ∀ u : State, readReg u 0x47000 = word u.epc.seq := fun _ => rfl
  have hi : ∀ u : State, readReg u 0x47004 = put 0 16 u.epc.seqHi := fun _ => rfl
  have bytes : ∀ n : Nat, leWord (word n) = le 4 n := fun n => by
    rw [leWord, word, BitVec.toNat_ofNat]
    exact le_mod 4 n
  have taken : busRead { off := 0x47000, dwords := 2, firstBe := 15, lastBe := 3 } s = (readSeq s).modHp (fun p =>
      { p with readData := readAnswer .bar0 { off := 0x47000, dwords := 2, firstBe := 15, lastBe := 3 } (readSeq s) }) := rfl
  rw [taken, answer, lo, hi, enabledBytes_all, enabledBytes_low, bytes, List.append_nil]
  have half : le 2 (readSeq s).epc.seqHi = le 2 (s.epc.seq / 2 ^ 32) := le_mod 2 _
  rw [half]
  rfl
end

/-! ### Writes to BAR0 -/

section
variable {off : Nat} {v : Word} {s : State}

theorem busWrite_unmapped (none_ : regView s off = none) : busWrite .bar0 off v 15 1 s = hpErr 3 false off v s := by
  have one : busWrite .bar0 off v 15 1 s = writeReg off v s := rfl
  rw [one, writeReg, none_]
theorem busWrite_bytes {be : BitVec 4} (some_ : be ≠ 15) : busWrite .bar0 off v be 1 s = hpErr 1 false off v s := by
  have missing : allEnables be = false := beq_eq_false_iff_ne.mpr some_
  simp [busWrite, missing]
theorem sealedWrite_counts {r : RegView} (changes : (v ^^^ r.val) &&& r.rw ≠ 0) :
    sealedWrite off v r s = hpErr 2 false off v s := if_neg changes

/-- Where no bit of a mask differs, the masked words are the same. -/
theorem masked_eq {a b m : Word} (h : (a ^^^ b) &&& m = 0) : a &&& m = b &&& m := by
  ext i hi
  have at_ : ((a ^^^ b) &&& m)[i] = false := by rw [h]; exact BitVec.getElem_zero hi
  simp only [BitVec.getElem_and, BitVec.getElem_xor] at at_ ⊢
  revert at_
  cases a[i] <;> cases b[i] <;> cases m[i] <;> decide

/-- After sealing a write that would change EPC_CFG is counted. -/
theorem busWrite_epcCfg (shut : s.hp.isSealed = true) (changes : v &&& 0xFFFF ≠ s.epc.cfg)
    (defined : s.epc.cfg &&& 0xFFFF = s.epc.cfg) : busWrite .bar0 0x4700C v 15 1 s = hpErr 2 false 0x4700C v s := by
  have block : busWrite .bar0 0x4700C v 15 1 s = devWrite 0x4700C v { val := s.epc.cfg, rw := 0xFFFF } s := rfl
  have quiet : devAct 0x4700C v s = none := rfl
  rw [block, devWrite, quiet]
  refine (if_pos shut).trans (sealedWrite_counts fun same => changes ?_)
  rw [← defined]
  exact masked_eq same
end

/-- Settles O50, register by register. -/
theorem hostRegisterAccesses : Obligations.Host_register_accesses := by
  intro t s host
  have run : ∀ f, (Host.Outcome.next (whenHost f (s.advance t)) : Host.Outcome State Fault Refusal) =
      .next (f (s.advance t)) := fun f => congrArg Host.Outcome.next (whenHost_advance host)
  refine ⟨fun v clr => ?_, ?_, fun r bad => ?_, fun v under => ?_, ?_, fun v wrong heard => ?_, fun v clr => ?_, fun v => ?_,
    fun off v none_ heard => ?_, fun off v be some_ heard => ?_, fun v shut changes defined heard => ?_⟩
  · exact (run _).trans (congrArg _ (epcCtrl_clears (s := s.advance t) clr))
  · exact (run _).trans (congrArg _ (busRead_seq (s := s.advance t)))
  · refine (run _).trans (congrArg _ (busRead_unanswered (s := s.advance t) (decide_eq_false fun ok => ?_)))
    obtain ⟨_, few, page⟩ := ok
    exact bad.elim (Nat.not_lt.mpr few) (· page)
  · obtain ⟨arms, alone⟩ := armCrcFail_arms (v := v) (s := s.advance t) under
    exact ⟨_, run _, arms, alone⟩
  · exact run _
  · obtain ⟨stays, count, log, same⟩ := hpErr_counts 7 false 0x20 v (s := s.advance t) heard
    exact ⟨_, (run _).trans (congrArg _ (sealWrite_other (s := s.advance t) wrong)), stays, count, log.trans rfl, same⟩
  · exact (run _).trans (congrArg _ (errClr_clears (s := s.advance t) clr))
  · exact run _
  · obtain ⟨_, count, log, same⟩ := hpErr_counts 3 false off v (s := s.advance t) heard
    exact ⟨_, (run _).trans (congrArg _ (busWrite_unmapped (regView_none s _ _ none_))), same, count, log⟩
  · obtain ⟨_, count, log, same⟩ := hpErr_counts 1 false off v (s := s.advance t) heard
    exact ⟨_, (run _).trans (congrArg _ (busWrite_bytes some_)), same, count, log⟩
  · obtain ⟨_, count, log, same⟩ := hpErr_counts 2 false 0x4700C v (s := s.advance t) heard
    exact ⟨_, (run _).trans (congrArg _ (busWrite_epcCfg (s := s.advance t) shut changes defined)), same, count, log⟩

end Sys2Proof.Machine
end

section
/-! SUPPORT. Orbits, doorbells and streams, the resets of the function, DMA errors and the splitting of writes (R266,
R267, R276 to R281). Settles O52, O53. -/
namespace Sys2Proof.Machine

/-! ### What an operation on one orbit leaves of the others -/

section
variable {k j : Fin 16} (other : j ≠ k) (s : State)
include other
theorem orbFault_orbit_other (w : Word) : (orbFault k w s).orbit j = s.orbit j := by
  have kept : ∀ f, (s.modOrbit k f).orbit j = s.orbit j := fun f => modOrbit_orbit_other s k j f other
  simp only [orbFault]
  split
  · exact kept _
  · exact kept _
theorem stepIndex_orbit_other : (stepIndex k s).orbit j = s.orbit j := (stepIndex_orbit k s j).trans (if_neg other)
theorem dropRecord_orbit_other : (dropRecord k s).orbit j = s.orbit j :=
  (orbFault_orbit_other other _ _).trans (modOrbit_orbit_other _ _ _ _ other)
theorem handBack_orbit_other (b : Buf) (n : Nat) : (handBack k b n s).orbit j = s.orbit j :=
  (stepIndex_orbit_other other _).trans (modOrbit_orbit_other _ _ _ _ other)
theorem offerFrom_orbit_other (bytes : List Byte) (l : List Buf) : (offerFrom k bytes l s).1.orbit j = s.orbit j := by
  induction l generalizing s with
  | nil => exact dropRecord_orbit_other other s
  | cons b rest ih =>
    simp only [offerFrom]
    split
    · exact (ih _).trans (handBack_orbit_other other _ _ _)
    · split
      · exact modOrbit_orbit_other _ _ _ _ other
      · exact (ih _).trans (handBack_orbit_other other _ _ _)
theorem offer_orbit_other (bytes : List Byte) : (offer k bytes s).1.orbit j = s.orbit j := by
  simp only [offer]
  split
  · exact offerFrom_orbit_other other s _ _
  · exact dropRecord_orbit_other other s
end

/-- Counting an event touches no orbit but the diagnostic stream. -/
theorem hpErr_orbit_other {j : Fin 16} (other : j ≠ 15) (cause : Nat) (bar2 : Bool) (off : Nat) (v : Word) (s : State) :
    (hpErr cause bar2 off v s).orbit j = s.orbit j := by
  simp only [hpErr]
  split
  · rfl
  · split <;> split
    · exact (offer_orbit_other other _ _).trans rfl
    · rfl
    · exact (offer_orbit_other other _ _).trans rfl
    · rfl

theorem orbFault_orbit_own (k : Fin 16) (w : Word) (s : State) :
    (orbFault k w s).orbit k = { s.orbit k with fault := (s.orbit k).fault ||| w } := by
  have own : ∀ f, (s.modOrbit k f).orbit k = f (s.orbit k) := fun f => modOrbit_orbit_same s k f
  simp only [orbFault]
  split
  · exact own _
  · exact own _

/-! ### ORB_CFG and the doorbells (R266, R267) -/

section
variable {k : Fin 16} {v : Word} {s : State}

theorem orbCfgStore_cfg (o : Orbit) : (orbCfgStore v o).cfg = v &&& 0xFF01011F := by
  simp only [orbCfgStore]
  split
  · rfl
  · split <;> rfl

/-- Enabling starts an orbit anew. -/
theorem orbCfgStore_starts (o : Orbit) (on : bit v 8 = true) (was : o.en = false) :
    (orbCfgStore v o).hostIdx = 0 ∧ (orbCfgStore v o).devIdx = 0 ∧ (orbCfgStore v o).halt = false := by
  simp [orbCfgStore, on, was]

theorem orbCfgWrite_stores (good : orbCfgTest s k v = 0) : orbCfgWrite k v s = s.modOrbit k (orbCfgStore v) := if_pos good

/-- A refused write leaves the orbit as it was, but that BUSY shows a refused clear of EN. -/
theorem orbCfgWrite_refused (bad : orbCfgTest s k v ≠ 0) (stream : k ≠ 15) :
    (orbCfgWrite k v s).orbit k = { s.orbit k with
      clrRefused := (s.orbit k).clrRefused || ((s.orbit k).en && !bit v 8 && !mayDisable s k) } := by
  unfold orbCfgWrite
  extract_lets code refused
  rw [if_neg bad, hpErr_orbit_other stream]
  show State.orbit (if refused then _ else _) k = { s.orbit k with clrRefused := (s.orbit k).clrRefused || refused }
  cases refused
  · rw [Bool.or_false]; rfl
  · rw [Bool.or_true]; exact modOrbit_orbit_same ..
theorem orbCfgWrite_device : (orbCfgWrite k v s).device = s.device := by
  unfold orbCfgWrite
  extract_lets code refused
  split
  · rfl
  · rw [hpErr_device]
    split <;> rfl

/-- An accepted doorbell of a command or completion orbit moves the host's index. -/
theorem doorbell_moves {descs : List StreamDesc} (en : (s.orbit k).en = true) (ring : k.val < 8)
    (good : doorbellFlags k (s.orbit k) v = 0) :
    doorbell k v 15 descs s = s.modOrbit k (fun o => { o with hostIdx := v, lastDb := v }) := by
  have all : allEnables 15#4 = true := rfl
  simp [doorbell, all, en, good, takeDoorbell, ring]
theorem doorbell_refused {descs : List StreamDesc} (en : (s.orbit k).en = true)
    (bad : doorbellFlags k (s.orbit k) v ≠ 0) :
    doorbell k v 15 descs s = hpErr 5 true (k.val * 0x800) v (orbFault k (doorbellFlags k (s.orbit k) v) s) := by
  have all : allEnables 15 = true := rfl
  simp only [doorbell, all, en, if_neg bad, Bool.not_true, Bool.false_eq_true, if_false]
theorem doorbell_disabled {descs : List StreamDesc} (off : (s.orbit k).en = false) :
    doorbell k v 15 descs s = hpErr 5 true (k.val * 0x800) v (orbFault k (bits 4 1) s) := by
  have all : allEnables 15#4 = true := rfl
  simp [doorbell, all, off]

/-! ### Streams (R276) -/

theorem handBack_orbit_own (b : Buf) (n : Nat) : (handBack k b n s).orbit k = { s.orbit k with
    posted := (s.orbit k).posted.tail, dropsSince := 0, devIdx := (s.orbit k).devIdx + 1 } := by
  have own : ∀ u : State, ∀ f, (u.modOrbit k f).orbit k = f (u.orbit k) := fun u f => modOrbit_orbit_same u k f
  simp only [handBack, stepIndex_orbit, own, if_true]
  rfl
theorem handBack_out (b : Buf) (n : Nat) : (handBack k b n s).out =
    (dmaRequests s.hp.maxPayload (s.orbit k).shadow [] (leWord ((s.orbit k).devIdx + 1))).reverse ++
      ((dmaRequests s.hp.maxPayload ((s.orbit k).slot (s.orbit k).devIdx + 12) []
        (le 2 b.used ++ [BitVec.ofNat 8 n, 0] ++ le 6 (b.first.getD 0) ++ le 2 (s.orbit k).dropsSince)).reverse ++ s.out) := by
  have own : ∀ u : State, ∀ f, (u.modOrbit k f).orbit k = f (u.orbit k) := fun u f => modOrbit_orbit_same u k f
  simp only [handBack, stepIndex_out, own]
  rfl

/-- The only buffer of a stream whose time has come is handed back, and none is left to skip. -/
theorem flushStream_hands {b : Buf} {e : Nat} (one : (s.orbit k).posted = [b]) (first : b.first = some e)
    (en : (s.orbit k).en = true) (runs : (s.orbit k).halt = false) (master : canMaster s = true)
    (due : e + fld (s.orbit k).cfg 24 8 < s.epc.seq) : flushStream k s = handBack k b 3 s := by
  have empty : ((handBack k b 3 s).orbit k).posted = [] := by rw [handBack_orbit_own, one]; rfl
  have none_ : skipNow k (handBack k b 3 s) = handBack k b 3 s := by
    unfold skipNow
    rw [empty]
    exact ite_self _
  simp [flushStream, one, first, en, runs, master, due, none_]
end

/-- Settles O52. -/
theorem orbitsAndDoorbells : Obligations.Orbits_and_doorbells := by
  intro t s k v
  have run : hostOk s = true → ∀ f, (Host.Outcome.next (whenHost f (s.advance t)) : Host.Outcome State Fault Refusal) =
      .next (f (s.advance t)) := fun host f => congrArg Host.Outcome.next (whenHost_advance host)
  refine ⟨fun host good => ?_, fun host bad stream => ?_, fun descs host en ring => ⟨fun good => ?_, fun bad => ?_⟩,
    fun descs host off stream => ?_, fun b e up one first en runs master due => ?_⟩
  · refine ⟨_, (run host _).trans (congrArg _ (orbCfgWrite_stores (s := s.advance t) good)), ?_, fun on was => ?_,
      fun j ne => modOrbit_orbit_other _ _ _ _ ne, rfl, rfl⟩
    · rw [modOrbit_orbit_same]; exact orbCfgStore_cfg _
    · rw [modOrbit_orbit_same]; exact orbCfgStore_starts _ on was
  · have left := orbCfgWrite_refused (s := s.advance t) bad stream
    refine ⟨orbCfgWrite k v (s.advance t), run host _, ?_, fun en clear may => ?_, orbCfgWrite_device⟩
    · rw [left]; rfl
    · have refused : mayDisable (s.advance t) k = false := may
      rw [left, advance_orbit, en, clear, refused]
      exact Bool.or_true _
  · exact ⟨_, (run host _).trans (congrArg _ (doorbell_moves (s := s.advance t) en ring good)),
      by rw [modOrbit_orbit_same], by rw [modOrbit_orbit_same]; rfl,
      fun j ne => modOrbit_orbit_other _ _ _ _ ne, rfl, rfl⟩
  · have other : k ≠ 15 := fun e => by subst e; exact absurd ring (by decide)
    refine ⟨_, (run host _).trans (congrArg _ (doorbell_refused (s := s.advance t) en bad)), ?_, ?_, ?_⟩
    · rw [hpErr_orbit_other other, orbFault_orbit_own]; rfl
    · rw [hpErr_orbit_other other, orbFault_orbit_own]; rfl
    · rw [hpErr_device, orbFault_device]; rfl
  · refine ⟨_, (run host _).trans (congrArg _ (doorbell_disabled (s := s.advance t) off)), ?_, ?_, ?_⟩
    · rw [hpErr_orbit_other stream, orbFault_orbit_own]; rfl
    · rw [hpErr_orbit_other stream, orbFault_orbit_own, bit_or]
      exact Bool.or_eq_true _ _ |>.mpr (.inr (by decide))
    · rw [hpErr_device, orbFault_device]; rfl
  · have own := handBack_orbit_own (k := k) (s := s.advance t) b 3
    refine ⟨_, congrArg Host.Outcome.next ((whenRunning_advance up).trans
      (flushStream_hands (s := s.advance t) one first en runs master due)), ?_, ?_, ?_, ?_,
      fun j ne => handBack_orbit_other ne _ _ _, handBack_device ..⟩
    · rw [own, advance_orbit, one]; rfl
    · rw [own]
    · rw [own]; rfl
    · rw [handBack_out, first]; rfl

/-! ### Resets of the function, DMA errors (R279 to R281) -/

section
variable {s : State}
theorem releaseHeld_device : (releaseHeld s).device = s.device := by
  unfold releaseHeld
  split
  · split
    · split <;> rfl
    · rfl
  · rfl
theorem releaseHeld_hp : (releaseHeld s).hp = s.hp := by
  unfold releaseHeld
  split
  · split
    · split <;> rfl
    · rfl
  · rfl
theorem releaseHeld_shut (no : canMaster s = false) : releaseHeld s = s := by
  simp [releaseHeld, no]

/-- A failed read of a descriptor halts its orbit. -/
theorem descriptorError_halts {k : Fin 4} (ready : orbitReady k s = true)
    (none_ : (s.orbit (cmdOrbit k)).waiting = none) : descriptorError (cmdOrbit k) s =
      hpErr 8 false 0 0 (orbFault (cmdOrbit k) (bits 2 1)
        (logAer (s.modOrbit (cmdOrbit k) (fun o => { o with halt := true })))) := by
  have low : (cmdOrbit k).val < 4 := k.isLt
  have back : Fin.ofNat 4 (cmdOrbit k).val = k := Fin.ofNat_val_eq_self k
  simp only [descriptorError, low, back, ready, none_, if_true]
  rfl

theorem payloadError_completes {op : BitVec 16} {c : Cmd} (h : admissible op c s = true) : payloadError op c s =
    complete s.hp.admSeq .badLength 0xF1 [] (hpErr 8 false 0 0 (logAer (admitCmd op false c s))) := if_pos h

theorem awake_of_orbitReady {k : Fin 4} (ready : orbitReady k s = true) : awake s = true := by
  simp only [orbitReady, Bool.and_eq_true] at ready
  exact awake_of_running (by simpa [running] using ready.1.1.1.1)
end

/-- An event counts in the error counter, the log or the muted cause: all else of the host port is kept. -/
theorem hpErr_port (cause : Nat) (bar2 : Bool) (off : Nat) (v : Word) (s : State) : ∃ n l m,
    (hpErr cause bar2 off v s).hp = { s.hp with errCount := n, errLog := l, muted := m } := by
  cases heard : s.hp.muted with
  | none => exact ⟨_, _, none, (hpErr_hp cause bar2 off v heard).trans (by rw [← heard])⟩
  | some x =>
    refine ⟨s.hp.errCount, s.hp.errLog, some cause, ?_⟩
    simp only [hpErr, heard, Option.isSome_some, if_true]

/-! ### Splitting a write (R279) -/

/-- The requests of a write carry its bytes in order, each short enough, in its page, and at its place. -/
structure SplitWrite (mps : Nat) (a : BitVec 64) (bytes : List Byte) (l : List (BitVec 64 × List Byte)) : Prop where
  whole : l.flatMap (·.2) = bytes
  short : ∀ r ∈ l, 1 ≤ r.2.length ∧ r.2.length ≤ mps ∧ r.1.toNat % 4096 + r.2.length ≤ 4096
  placed : ∀ l1 r l2, l = l1 ++ r :: l2 → r.1 = a + BitVec.ofNat 64 (l1.flatMap (·.2)).length

theorem SplitWrite.nil (mps : Nat) (a : BitVec 64) : SplitWrite mps a [] [] :=
  ⟨rfl, fun _ m => absurd m List.not_mem_nil, fun _ _ _ e => by simp at e⟩

/-- A first request goes before the requests of the bytes after it. -/
theorem SplitWrite.cons {mps : Nat} {a : BitVec 64} {first rest : List Byte} {l : List (BitVec 64 × List Byte)}
    (some_ : 1 ≤ first.length) (fits : first.length ≤ mps) (page : a.toNat % 4096 + first.length ≤ 4096)
    (h : SplitWrite mps (a + BitVec.ofNat 64 first.length) rest l) : SplitWrite mps a (first ++ rest) ((a, first) :: l) where
  whole := by rw [List.flatMap_cons, h.whole]
  short r m := by
    rcases List.mem_cons.mp m with rfl | m
    · exact ⟨some_, fits, page⟩
    · exact h.short r m
  placed l1 r l2 e := by
    cases l1 with
    | nil =>
      obtain ⟨rfl, _⟩ := List.cons.inj e
      exact (BitVec.add_zero a).symm
    | cons x l1 =>
      obtain ⟨rfl, tail⟩ := List.cons.inj e
      rw [h.placed l1 r l2 tail, List.flatMap_cons, List.length_append, BitVec.ofNat_add, BitVec.add_assoc]

/-- The address after n bytes of a write, within its page. -/
theorem page_step (a : BitVec 64) (n : Nat) : (a + BitVec.ofNat 64 n).toNat % 4096 = (a.toNat + n) % 4096 := by
  rw [BitVec.toNat_add, BitVec.toNat_ofNat, Nat.add_mod_mod]
  exact Nat.mod_mod_of_dvd _ (by decide)

/-- Bytes gathered so far, which fill neither a request nor the page, go out before the rest. -/
theorem dmaRequests_split {mps : Nat} (some_ : 0 < mps) (bytes acc : List Byte) (a : BitVec 64)
    (fits : acc.length < mps) (page : a.toNat % 4096 + acc.length < 4096) : ∃ l : List (BitVec 64 × List Byte),
    dmaRequests mps a acc bytes = l.map (fun r => .dma r.1 r.2) ∧ SplitWrite mps a (acc.reverse ++ bytes) l := by
  induction bytes generalizing a acc with
  | nil =>
    cases acc with
    | nil => exact ⟨[], rfl, SplitWrite.nil mps a⟩
    | cons b acc =>
      refine ⟨[(a, (b :: acc).reverse)], rfl, SplitWrite.cons ?_ ?_ ?_ (SplitWrite.nil ..)⟩
      · rw [List.length_reverse]; exact Nat.succ_pos _
      · rw [List.length_reverse]; exact fits.le
      · rw [List.length_reverse]; exact page.le
  | cons b bs ih =>
    have here := page_step a (acc.length + 1)
    have same : (b :: acc).reverse ++ bs = acc.reverse ++ b :: bs := by rw [List.reverse_cons, List.append_assoc]; rfl
    have size : (b :: acc).reverse.length = acc.length + 1 := List.length_reverse
    rw [← same, dmaRequests]
    split
    · next full =>
      obtain ⟨l, e, h⟩ := ih [] (a + BitVec.ofNat 64 (acc.length + 1)) some_ (Nat.mod_lt _ (by decide))
      refine ⟨(a, (b :: acc).reverse) :: l, by rw [e]; rfl, SplitWrite.cons ?_ ?_ ?_ (by rw [size]; exact h)⟩
      · rw [size]; exact Nat.succ_pos _
      · rw [size]; exact fits
      · rw [size]; exact page
    · next room =>
      obtain ⟨more, inside⟩ := not_or.mp room
      refine ih (b :: acc) a ?_ ?_
      · exact lt_of_le_of_ne fits more
      · show a.toNat % 4096 + (acc.length + 1) < 4096
        rw [here] at inside
        omega

/-- Settles O53. -/
theorem functionResetsAndDmaErrors : Obligations.Function_resets_and_dma_errors := by
  intro t s
  refine ⟨fun up => ⟨fun host => ?_, ?_⟩, fun k ready none_ => ?_, fun op c h => ?_, fun host => ?_, fun mps a bytes some_ => ?_⟩
  · have run : ∀ f, (Host.Outcome.next (whenHostUp f (s.advance t)) : Host.Outcome State Fault Refusal) =
        .next (f (s.advance t)) := fun f => congrArg Host.Outcome.next (whenHostUp_open (s := s.advance t) up host)
    refine ⟨⟨_, run _, rfl, rfl, rfl, rfl, rfl, rfl, rfl, rfl, rfl, rfl⟩, fun sleeps => ?_, fun wakes => ?_, ?_, ?_⟩
    · have leaves : leaveD3 (s.advance t) = (endpointReset (s.advance t)).modHp (fun p =>
          { p with flrCount := (p.flrCount + 1) % 65536 }) := if_pos sleeps
      exact ⟨_, (run _).trans (congrArg _ leaves), rfl, rfl, rfl, rfl, rfl, rfl, rfl⟩
    · have enters : enterD3 (s.advance t) = (s.advance t).modHp (fun p =>
          { p with d3hot := true, flrLost := 0, inflight := loseInflight p.inflight }) :=
        if_neg (by rw [advance_hp, wakes]; decide)
      exact (run _).trans (congrArg _ enters)
    · exact (run _).trans (congrArg _ (releaseHeld_shut rfl))
    · exact ⟨_, run _, releaseHeld_hp, releaseHeld_device⟩
  · exact ⟨_, congrArg Host.Outcome.next (whenAwake_advance up), rfl, rfl, rfl, rfl, rfl⟩
  · have ring : cmdOrbit k ≠ 15 := fun e => absurd (congrArg Fin.val e) (by simp only [cmdOrbit]; omega)
    have run : exec (.dmaReadError t (.descriptor (cmdOrbit k))) s = .next (descriptorError (cmdOrbit k) (s.advance t)) :=
      congrArg Host.Outcome.next (whenAwake_advance (awake_of_orbitReady ready))
    rw [descriptorError_halts (s := s.advance t) ready none_] at run
    have own := orbFault_orbit_own (cmdOrbit k) (bits 2 1)
      (logAer ((s.advance t).modOrbit (cmdOrbit k) (fun o => { o with halt := true })))
    have halted : (logAer ((s.advance t).modOrbit (cmdOrbit k) (fun o => { o with halt := true }))).orbit (cmdOrbit k) =
        { s.orbit (cmdOrbit k) with halt := true } := modOrbit_orbit_same ..
    rw [halted] at own
    refine ⟨_, run, ?_, ?_, ?_, ?_, ?_⟩
    · rw [hpErr_orbit_other ring, own]
    · rw [hpErr_orbit_other ring, own, bit_or]
      exact Bool.or_eq_true _ _ |>.mpr (.inr (by decide))
    · rw [hpErr_orbit_other ring, own]
    · obtain ⟨n, l, m, port⟩ := hpErr_port 8 false 0 0 (orbFault (cmdOrbit k) (bits 2 1)
        (logAer ((s.advance t).modOrbit (cmdOrbit k) (fun o => { o with halt := true }))))
      rw [port, orbFault_hp]
      rfl
    · rw [hpErr_device, orbFault_device]; rfl
  · have up : awake s = true := by
      have parts := h
      simp only [admissible, Bool.and_eq_true] at parts
      exact awake_of_orbitReady (s := s.advance t) parts.1.1.1.1
    have run : exec (.dmaReadError t (.payload op c)) s = .next (payloadError op c (s.advance t)) :=
      congrArg Host.Outcome.next (whenAwake_advance up)
    rw [payloadError_completes h] at run
    obtain ⟨n, l, m, port⟩ := hpErr_port 8 false 0 0 (logAer (admitCmd op false c (s.advance t)))
    obtain ⟨next, e, last, facts⟩ := admitCmd_admitted (s.advance t) op false c
    refine ⟨_, run, ⟨by rw [port]; exact next, e, by rw [port]; exact last, facts⟩, ?_, ?_⟩
    · rw [port]
      show (admitCmd op false c (s.advance t)).hp.aerLogged + 1 = s.hp.aerLogged + 1
      rw [admitCmd, stepIndex_hp]
      rfl
    · rw [hpErr_device]
      exact admitCmd_device ..
  · exact congrArg Host.Outcome.next (whenHost_advance host)
  · obtain ⟨l, e, h⟩ := dmaRequests_split some_ bytes [] a some_ (Nat.mod_lt _ (by decide))
    exact ⟨l, e, h.whole, h.short, h.placed⟩

end Sys2Proof.Machine
end

section
/-! SUPPORT. The event recorder (R310 to R323): its triggers, its ring, its writes and its commands. Settles O44, O45,
O46. -/
namespace Sys2Proof.Machine

/-! ### Triggers act in the recorder alone (R312) -/

/-- Nothing but the recorder, the messages and the free counter differs. -/
def InRecorder (s u : State) : Prop := ∃ r q n, u = { s with rcd := r, irq := q, free := n }

theorem InRecorder.refl (s : State) : InRecorder s s := ⟨s.rcd, s.irq, s.free, rfl⟩
theorem InRecorder.trans {s u v : State} (a : InRecorder s u) (b : InRecorder u v) : InRecorder s v := by
  obtain ⟨_, _, _, rfl⟩ := a
  obtain ⟨r, q, n, rfl⟩ := b
  exact ⟨r, q, n, rfl⟩
theorem InRecorder.modRec (s : State) (f : Rec → Rec) : InRecorder s (s.modRec f) := ⟨_, s.irq, s.free, rfl⟩

theorem flagRec_inRecorder (n : Nat) (s : State) : InRecorder s (flagRec n s) := by
  unfold flagRec
  extract_lets new u
  split
  · exact ⟨_, s.irq, s.free, rfl⟩
  · exact ⟨_, _, s.free, rfl⟩
theorem enterQueue_inRecorder (t : Trigger) (ecl : Bool) (s : State) : InRecorder s (enterQueue t ecl s) := by
  unfold enterQueue
  split
  · exact (InRecorder.modRec ..).trans (flagRec_inRecorder ..)
  · exact ⟨_, s.irq, _, rfl⟩
theorem service_inRecorder (t : Trigger) (s : State) : InRecorder s (service t s) := by
  unfold service
  split
  · split
    · exact InRecorder.modRec ..
    · exact enterQueue_inRecorder ..
  · split
    · split
      · exact InRecorder.modRec ..
      · exact enterQueue_inRecorder ..
    · exact enterQueue_inRecorder ..
theorem handleTrigger_inRecorder (t : Trigger) (s : State) : InRecorder s (handleTrigger t s) := by
  unfold handleTrigger
  extract_lets m u
  have counted : InRecorder s u := by
    unfold u
    split
    · exact InRecorder.modRec ..
    · exact InRecorder.refl s
  split
  · exact InRecorder.refl s
  · refine counted.trans ?_
    split
    · exact enterQueue_inRecorder ..
    · split
      · exact service_inRecorder ..
      · exact InRecorder.refl u
theorem nextTrigger_inRecorder (s : State) : InRecorder s (nextTrigger s) := by
  unfold nextTrigger
  split
  · exact InRecorder.refl s
  · exact (InRecorder.modRec ..).trans (handleTrigger_inRecorder ..)
theorem settleTriggers_inRecorder (s : State) : InRecorder s (settleTriggers s) := by
  unfold settleTriggers
  generalize s.rcd.raised = l
  induction l generalizing s with
  | nil => exact InRecorder.refl s
  | cons t l ih => exact (nextTrigger_inRecorder s).trans (ih (nextTrigger s))
theorem settleTriggers_none {s : State} (none_ : s.rcd.raised = []) : settleTriggers s = s := by
  rw [settleTriggers, none_]
  rfl

/-! ### The open record and the flags -/

section
variable (s : State)
/-- Closing the open record writes its repeats back: nothing but that and the open record changes. -/
theorem closeOpen_shape : ∃ m, closeOpen s = s.modRec (fun r => { r with mem := m, open_ := none }) ∧
    m = (closeOpen s).rcd.mem ∧ (s.rcd.open_ = none → m = s.rcd.mem) ∧
    (∀ o, s.rcd.open_ = some o → m = memWrite s.rcd.mem (slotAddr o.recno + 48) (repeatBytes o.rep o.lastEp)) := by
  unfold closeOpen writeBack
  cases s.rcd.open_ with
  | none => exact ⟨s.rcd.mem, rfl, rfl, fun _ => rfl, fun o h => absurd h (by simp)⟩
  | some o =>
    refine ⟨_, rfl, rfl, fun h => absurd h (by simp), fun w h => ?_⟩
    rw [← Option.some.inj h]
    rfl

theorem flagRec_fault (n : Nat) : (flagRec n s).rcd = { s.rcd with fault := s.rcd.fault ||| bits n 1 } := by
  unfold flagRec
  extract_lets new u
  split <;> rfl
theorem flagRec_aon (n : Nat) : (flagRec n s).aon = s.aon := by
  obtain ⟨r, q, k, e⟩ := flagRec_inRecorder n s
  rw [e]
theorem flagRec_hp (n : Nat) : (flagRec n s).hp = s.hp := by
  obtain ⟨r, q, k, e⟩ := flagRec_inRecorder n s
  rw [e]
theorem flagRec_heads (n : Nat) : (flagRec n s).heads = s.heads := by
  obtain ⟨r, q, k, e⟩ := flagRec_inRecorder n s
  rw [e]
theorem flagRec_sections (n : Nat) : (flagRec n s).sections = s.sections := by
  obtain ⟨r, q, k, e⟩ := flagRec_inRecorder n s
  rw [e]
end

/-! ### REC_SET and REC_SELECT (R313, R323) -/

section
variable (cfg period trigEn eclEn : Word) (s : State)

/-- The set-up takes the defined bits and closes the open record; outside the recorder nothing but messages and the free
counter moves. -/
theorem recSet_stores : ∃ r q n, recSet cfg period trigEn eclEn s = { s with rcd := r, irq := q, free := n } ∧
    r.cfg = cfg &&& 0xFFFFFF0F ∧ r.period = period &&& 0xFFFF ∧ r.trigEn = trigEn &&& 0x7FFE ∧
    r.eclEn = eclEn &&& 0x7FFE ∧ r.open_ = none := by
  obtain ⟨r, q, n, settled⟩ := settleTriggers_inRecorder s
  obtain ⟨m, closed, _⟩ := closeOpen_shape (settleTriggers s)
  rw [settled] at closed
  unfold recSet
  rw [settled, closed]
  extract_lets u c p fresh w
  split
  · exact ⟨_, q, n, rfl, rfl, rfl, rfl, rfl, rfl⟩
  · exact ⟨_, q, n, rfl, rfl, rfl, rfl, rfl, rfl⟩
end

/-- The offsets of a selection, each of which holds a register. -/
theorem recSelect_stores {p : List Byte} {seq : Nat} {s : State} (none_ : s.rcd.raised = []) (few : field p 0 1 ≤ 16)
    (mapped : ∀ i, i < field p 0 1 → (regView s (field p (4 + 4 * i) 4)).isSome = true) :
    recSelect p seq s = complete seq .ok 0 [] (s.modRec fun r => { r with
      selgen := (r.selgen + 1) % 256
      sel := tabulate 16 (fun k => if k < field p 0 1 then put 31 1 1 |||
        put 0 23 (((List.range (field p 0 1)).map (fun i => field p (4 + 4 * i) 4)).getD k 0) else 0) }) := by
  have all : ((List.range (field p 0 1)).map (fun i => field p (4 + 4 * i) 4)).any
      (fun o => (regView s o).isNone) = false := by
    rw [List.any_eq_false]
    intro o mem
    obtain ⟨i, small, rfl⟩ := List.mem_map.mp mem
    rw [Option.isNone_iff_eq_none, ← Option.not_isSome_iff_eq_none, mapped i (List.mem_range.mp small)]
    decide
  simp only [recSelect, all, Nat.not_lt.mpr few, settleTriggers_none none_, false_or, Bool.false_eq_true, if_false, done]

theorem recSelect_long {p : List Byte} {seq : Nat} {s : State} (many : 16 < field p 0 1) :
    recSelect p seq s = complete seq .conflict 1 [] s := if_pos (.inl many)

/-! ### Reading (R319) -/

/-- A RECNO lies from OLDEST to NEXT: the distances to it and from it make up the ring in use. -/
def Ahead (oldest next x : Nat) : Prop := x < 2 ^ 32 ∧ recDist oldest x + recDist x next = recDist oldest next

section
variable {oldest next x : Nat}
theorem recDist_lt (a b : Nat) : recDist a b < 2 ^ 32 := Nat.mod_lt _ (by decide)
theorem recDist_zero (hx : x < 2 ^ 32) (hn : next < 2 ^ 32) : recDist x next = 0 ↔ x = next := by
  simp only [recDist]
  omega
theorem Ahead.step (ho : oldest < 2 ^ 32) (hn : next < 2 ^ 32) (h : Ahead oldest next x) (more : x ≠ next) :
    Ahead oldest next ((x + 1) % 2 ^ 32) ∧ recDist ((x + 1) % 2 ^ 32) next + 1 = recDist x next := by
  obtain ⟨hx, h⟩ := h
  simp only [Ahead, recDist] at *
  omega
theorem Ahead.reachable {s : State} (h : Ahead s.aon.oldest s.aon.next x) (hn : s.aon.next < 2 ^ 32)
    (more : x ≠ s.aon.next) : reachable s x = true := by
  obtain ⟨hx, h⟩ := h
  have pos := (recDist_zero hx hn).not.mpr more
  exact decide_eq_true (by omega)
end

theorem field_lt (p : List Byte) (i n : Nat) : field p i n < 256 ^ n := unle_lt ..

/-- Reading starts between OLDEST and NEXT. -/
theorem readStart_ahead {s : State} {first : Nat} (small : first < 2 ^ 32) (ho : s.aon.oldest < 2 ^ 32)
    (hn : s.aon.next < 2 ^ 32) : Ahead s.aon.oldest s.aon.next (readStart s first) := by
  unfold readStart
  split
  · next here =>
    have here : recDist s.aon.oldest first < recDist s.aon.oldest s.aon.next := of_decide_eq_true here
    refine ⟨small, ?_⟩
    simp only [recDist] at *
    omega
  · split
    · refine ⟨hn, ?_⟩
      simp only [recDist]
      omega
    · refine ⟨ho, ?_⟩
      simp only [recDist]
      omega

/-- A reading that has gone on by k records, d of the offered ones dropped in all. -/
def ReadJob.on (j : ReadJob) (k d : Nat) : ReadJob :=
  { j with
    next := (j.next + k) % 2 ^ 32, left := j.left - k, first := if k = 0 then j.first else some (j.first.getD j.next)
    offered := j.offered + k, dropped := d }

theorem ReadJob.on_none {j : ReadJob} (small : j.next < 2 ^ 32) : j.on 0 j.dropped = j := by
  rw [ReadJob.on, Nat.add_zero, Nat.mod_eq_of_lt small]
  rfl

/-- A reading between OLDEST and NEXT goes on by as many records as are asked for and there are. -/
theorem readSome_reads (m : Nat) (j : ReadJob) (s : State) (ho : s.aon.oldest < 2 ^ 32) (hn : s.aon.next < 2 ^ 32)
    (ahead : Ahead s.aon.oldest s.aon.next j.next) :
    ∃ k d u, readSome m j s = (j.on k d, u) ∧ k = min m (min j.left (recDist j.next s.aon.next)) ∧
      u.device = s.device ∧ u.hp = s.hp ∧ u.rcd = s.rcd := by
  induction m generalizing j s with
  | zero => exact ⟨0, j.dropped, s, by rw [ReadJob.on_none ahead.1]; rfl, (Nat.zero_min _).symm, rfl, rfl, rfl⟩
  | succ m ih =>
    have there : skipOverrun s j = j := by
      unfold skipOverrun
      by_cases e : j.next = s.aon.next
      · rw [e, beq_self_eq_true, Bool.or_true]
        rfl
      · rw [ahead.reachable hn e]
        rfl
    simp only [readSome, there]
    split
    · next ends =>
      refine ⟨0, j.dropped, s, by rw [ReadJob.on_none ahead.1], ?_, rfl, rfl, rfl⟩
      rcases ends with e | e
      · omega
      · have := (recDist_zero ahead.1 hn).mpr e
        omega
    · next goes =>
      obtain ⟨left, more⟩ := not_or.mp goes
      have same := offer_device 13 (recordBytes s j.next) s
      have aon := aon_of_device same
      obtain ⟨next, shorter⟩ := ahead.step ho hn more
      obtain ⟨k, d, u, read, hk, device, hp, rcd⟩ := ih
        { j with
          next := (j.next + 1) % 2 ^ 32, left := j.left - 1, first := some (j.first.getD j.next)
          offered := j.offered + 1
          dropped := if (offer 13 (recordBytes s j.next) s).2 then j.dropped else j.dropped + 1 }
        (offer 13 (recordBytes s j.next) s).1 (by rw [aon]; exact ho) (by rw [aon]; exact hn) (by rw [aon]; exact next)
      rw [aon] at hk
      refine ⟨k + 1, d, u, read.trans ?_, ?_, device.trans same, hp.trans (offer_hp ..), rcd.trans (offer_rcd ..)⟩
      · have at_ : ((j.next + 1) % 2 ^ 32 + k) % 2 ^ 32 = (j.next + (k + 1)) % 2 ^ 32 := by omega
        have first : (if k = 0 then some (j.first.getD j.next) else some ((some (j.first.getD j.next)).getD
            ((j.next + 1) % 2 ^ 32))) = some (j.first.getD j.next) := ite_self _
        simp only [ReadJob.on, at_, first, Nat.succ_ne_zero, if_false, Nat.sub_sub, Nat.add_assoc, Nat.add_comm 1 k]
      · simp only at hk
        omega

/-- What a reading does after its turn. -/
theorem readChunk_turn {j j' : ReadJob} {s u : State} (read : readSome 20 j s = (j', u)) : readChunk j s =
    if j'.left = 0 ∨ j'.next = u.aon.next then finishRead j' u else u.modRec (fun b => { b with reads := b.reads ++ [j'] }) := by
  rw [readChunk, read]

/-- Where no record is left, or the reading has come to NEXT. -/
theorem read_ends {start count next n : Nat} (hs : start < 2 ^ 32) (hn : next < 2 ^ 32)
    (n_eq : n = min count (recDist start next)) : count - n = 0 ∨ (start + n) % 2 ^ 32 = next := by
  simp only [recDist] at n_eq
  omega
theorem read_goes {start count next n : Nat} (hs : start < 2 ^ 32) (hn : next < 2 ^ 32)
    (n_eq : n = min count (recDist start next)) (many : 20 < n) : ¬(count - 20 = 0 ∨ (start + 20) % 2 ^ 32 = next) := by
  simp only [recDist] at n_eq
  omega

/-- A reading as it begins. -/
def ReadJob.begin_ (seq start count oldest : Nat) : ReadJob :=
  { seq := seq, next := start, left := count, first := none, offered := 0, dropped := 0, overrun := 0, oldest := oldest }

section
variable {p : List Byte} {seq : Nat} {s : State}

theorem recRead_refuses (bad : field p 4 2 = 0 ∨ 8192 < field p 4 2) :
    recRead p seq s = complete seq .conflict 1 [] s := if_pos bad

/-- The recorder apart, the same device. -/
theorem device_with_rcd {s u : State} (e : u.device = s.device) (r : Rec) :
    ({ u with rcd := r } : State).device = ({ s with rcd := r } : State).device :=
  (congrArg (fun x : State => ({ x with rcd := { r with raised := [] } } : State)) e :)

theorem recRead_begins (some_ : 1 ≤ field p 4 2) (most : field p 4 2 ≤ 8192) : recRead p seq s =
    readChunk (ReadJob.begin_ seq (readStart s (field p 0 4)) (field p 4 2) s.aon.oldest) s := if_neg (by omega)

section
variable {start n : Nat} (ho : s.aon.oldest < 2 ^ 32) (hn : s.aon.next < 2 ^ 32) (some_ : 1 ≤ field p 4 2)
  (most : field p 4 2 ≤ 8192) (from_ : start = readStart s (field p 0 4))
  (count : n = min (field p 4 2) (recDist start s.aon.next))
include ho hn some_ most from_ count

/-- A reading of at most twenty records is answered at once. -/
theorem recRead_short (few : n ≤ 20) : ∃ v first dropped, recRead p seq s = complete seq .ok 0 (le 4 first ++ le 2 n ++
      le 2 dropped ++ le 4 s.aon.oldest ++ le 4 s.aon.next ++ le 4 0) v ∧ (n ≠ 0 → first = start) ∧ v.hp = s.hp ∧
      v.device = s.device := by
  have ahead : Ahead s.aon.oldest s.aon.next start := from_ ▸ readStart_ahead (field_lt p 0 4) ho hn
  obtain ⟨k, d, u, read, hk, device, hp, _⟩ :=
    readSome_reads 20 (ReadJob.begin_ seq start (field p 4 2) s.aon.oldest) s ho hn ahead
  have all : k = n := by rw [hk, count]; exact Nat.min_eq_right (count ▸ few)
  have aon := aon_of_device device
  have turn := readChunk_turn read
  rw [aon, all] at turn
  replace turn := turn.trans (if_pos (read_ends ahead.1 hn count))
  rw [recRead_begins some_ most, ← from_, turn, finishRead]
  refine ⟨{ u with free := u.free + 1 }, (ReadJob.on (ReadJob.begin_ seq start (field p 4 2) s.aon.oldest) n d).first.getD
    (Config.live 0x02A2 u.free).toNat, d, ?_, fun pos => ?_, hp, device⟩
  · simp only [ReadJob.on, ReadJob.begin_, Nat.zero_add, aon]
  · rw [ReadJob.on, if_neg pos]
    rfl

/-- A longer one stays under way, twenty records further. -/
theorem recRead_long (many : 20 < n) : ∃ j u, recRead p seq s = u ∧ u.rcd.reads = s.rcd.reads ++ [j] ∧ j.seq = seq ∧
      j.next = (start + 20) % 2 ^ 32 ∧ j.left = field p 4 2 - 20 ∧ j.first = some start ∧ j.offered = 20 ∧ j.overrun = 0 ∧
      u.hp = s.hp ∧ u.device = ({ s with rcd := u.rcd } : State).device := by
  have ahead : Ahead s.aon.oldest s.aon.next start := from_ ▸ readStart_ahead (field_lt p 0 4) ho hn
  obtain ⟨k, d, u, read, hk, device, hp, rcd⟩ :=
    readSome_reads 20 (ReadJob.begin_ seq start (field p 4 2) s.aon.oldest) s ho hn ahead
  have all : k = 20 := by rw [hk]; exact Nat.min_eq_left (Nat.le_of_lt (count ▸ many))
  have turn := readChunk_turn read
  rw [aon_of_device device, all] at turn
  replace turn := turn.trans (if_neg (read_goes ahead.1 hn count many))
  rw [recRead_begins some_ most, ← from_, turn]
  refine ⟨(ReadJob.begin_ seq start (field p 4 2) s.aon.oldest).on 20 d, _, rfl, ?_, rfl, rfl, rfl, rfl, rfl, rfl, hp, ?_⟩
  · rw [← rcd]; rfl
  · exact device_with_rcd device _
end
end

/-! ### REC_CLEAR (R321) -/

section
variable {p key : List Byte} {seq : Nat} {s : State}

theorem recClear_noKey (none_ : s.key = none) : recClear p seq s =
    complete seq .notAuthorised 3 [] (s.modRec fun r => { r with authRes := 3 }) := by
  rw [recClear, none_]

/-- Under a right token the open record closes and a good CLEAR record is staged. -/
theorem recClear_right (raised : s.rcd.raised = []) (some_ : s.key = some key)
    (window : tokenWindow s (field p 0 6) = true) (right : slice p 8 8 = token key 0x02A3 0 (field p 0 6) s.rcd.nonce) :
    recClear p seq s = queueClear seq .ok 0
      (closeOpen (s.draw.2.modRec fun r => { r with nonce := Config.random s.free })) := by
  have inside : tokenWindow (s.draw.2.modRec fun r => { r with nonce := s.draw.1 }) (field p 0 6) = true := window
  rw [recClear, some_]
  simp only [settleTriggers_none raised, inside, Bool.not_true, Bool.false_eq_true, if_false, right, ne_eq,
    not_true_eq_false]
  rfl

/-- Under a wrong one a bad CLEAR record is staged, counted and flagged. -/
theorem recClear_wrong (raised : s.rcd.raised = []) (some_ : s.key = some key)
    (window : tokenWindow s (field p 0 6) = true) (wrong : slice p 8 8 ≠ token key 0x02A3 0 (field p 0 6) s.rcd.nonce) :
    recClear p seq s = queueClear seq .notAuthorised 5 (flagRec 1
      (s.draw.2.modRec fun r => { r with nonce := Config.random s.free, fails := satNat 16 (r.fails + 1) })) := by
  have inside : tokenWindow (s.draw.2.modRec fun r => { r with nonce := s.draw.1 }) (field p 0 6) = true := window
  rw [recClear, some_]
  simp only [settleTriggers_none raised, inside, Bool.not_true, Bool.false_eq_true, if_false, if_pos wrong]
  rfl
end

/-- Settles O44, command by command. -/
theorem recorderCommands : Obligations.Recorder_commands := by
  intro t c s
  refine ⟨fun A => ?_, fun A raised => ⟨fun few mapped => ?_, fun many => ?_⟩, fun A ring => ⟨fun start n some_ most from_ count =>
    ⟨fun few => ?_, fun many => ?_⟩, fun bad => ?_⟩, fun A raised => ⟨fun none_ => ?_, fun key some_ window =>
    ⟨fun right => ?_, fun wrong => ?_⟩⟩⟩
  · obtain ⟨e, ob, ir, ou, ad, run⟩ := command_runs 0x02A0 (fun seq s => done seq (recSet (wordArg c.payload 0)
      (wordArg c.payload 4) (wordArg c.payload 8) (wordArg c.payload 12) s)) A
    obtain ⟨r, q, n, stored, cfg, period, trigEn, eclEn, shut⟩ := recSet_stores (wordArg c.payload 0) (wordArg c.payload 4) (wordArg c.payload 8)
      (wordArg c.payload 12) (s.admitted t e ob ir ou)
    rw [stored] at run
    exact ⟨_, congrArg Host.Outcome.next run, ad.congr rfl, cfg, period, trigEn, eclEn, shut, rfl, rfl⟩
  · obtain ⟨e, ob, ir, ou, ad, run⟩ := command_runs 0x02A1 (fun seq => recSelect c.payload seq) A
    rw [recSelect_stores (s := s.admitted t e ob ir ou) raised few fun i small =>
      (regView_isSome _ s _).trans (mapped i small)] at run
    refine ⟨_, congrArg Host.Outcome.next run, ad.congr rfl, rfl, fun k => ?_, rfl⟩
    refine (tget_tabulate _ k).trans ?_
    by_cases small : k.val < field c.payload 0 1
    · have entry : ((List.range (field c.payload 0 1)).map (fun i => field c.payload (4 + 4 * i) 4)).getD k.val 0 =
          field c.payload (4 + 4 * k.val) 4 := by
        rw [List.getD_eq_getElem?_getD, List.getElem?_map, List.getElem?_range small]
        rfl
      rw [if_pos small, if_pos small, entry]
    · rw [if_neg small, if_neg small]
  · exact answers_of A rfl fun e ob ir ou => ⟨_, recSelect_long many, rfl, rfl⟩
  · obtain ⟨⟨hn, ho, _⟩, _⟩ := ring
    obtain ⟨e, ob, ir, ou, ad, run⟩ := command_runs 0x02A2 (fun seq => recRead c.payload seq) A
    obtain ⟨v, first, dropped, ran, begins, hp, same⟩ := recRead_short (seq := s.hp.admSeq) (s := s.admitted t e ob ir ou)
      ho hn some_ most from_ count few
    exact ⟨v, first, dropped, congrArg Host.Outcome.next (run.trans ran), ad.congr hp, begins, same⟩
  · obtain ⟨⟨hn, ho, _⟩, _⟩ := ring
    obtain ⟨e, ob, ir, ou, ad, run⟩ := command_runs 0x02A2 (fun seq => recRead c.payload seq) A
    obtain ⟨j, u, ran, reads, f1, f2, f3, f4, f5, f6, hp, same⟩ := recRead_long (seq := s.hp.admSeq)
      (s := s.admitted t e ob ir ou) ho hn (by have := count ▸ many; omega) most from_ count many
    exact ⟨u, j, congrArg Host.Outcome.next (run.trans ran), ad.congr hp, reads, f1, f2, f3, f4, f5, f6, same⟩
  · exact answers_of A rfl fun e ob ir ou => ⟨_, recRead_refuses bad, rfl, rfl⟩
  · exact answers_of A rfl fun e ob ir ou => ⟨_, recClear_noKey (s := s.admitted t e ob ir ou) none_, rfl, rfl⟩
  · obtain ⟨e, ob, ir, ou, ad, run⟩ := command_runs 0x02A3 (fun seq => recClear c.payload seq) A
    have cleared := recClear_right (seq := s.hp.admSeq) (s := s.admitted t e ob ir ou) raised some_ window right
    obtain ⟨m, closed, _, idle, _⟩ := closeOpen_shape
      ((s.admitted t e ob ir ou).draw.2.modRec fun r => { r with nonce := Config.random (s.admitted t e ob ir ou).free })
    rw [closed] at cleared
    exact ⟨_, _, congrArg Host.Outcome.next (run.trans cleared), ad.congr rfl, rfl, rfl, rfl, rfl, rfl, rfl, rfl, idle, rfl⟩
  · obtain ⟨e, ob, ir, ou, ad, run⟩ := command_runs 0x02A3 (fun seq => recClear c.payload seq) A
    have cleared := recClear_wrong (seq := s.hp.admSeq) (s := s.admitted t e ob ir ou) raised some_ window wrong
    have flagged : ∀ u : State, ∃ r q n, flagRec 1 u = { u with rcd := r, irq := q, free := n } ∧
        r = { u.rcd with fault := u.rcd.fault ||| bits 1 1 } := fun u => by
      obtain ⟨r, q, n, f⟩ := flagRec_inRecorder 1 u
      exact ⟨r, q, n, f, (congrArg State.rcd f).symm.trans (flagRec_fault u 1)⟩
    obtain ⟨r, q, n, f, rfl⟩ := flagged ((s.admitted t e ob ir ou).draw.2.modRec fun r => { r with
      nonce := Config.random (s.admitted t e ob ir ou).free, fails := satNat 16 (r.fails + 1) })
    rw [f] at cleared
    refine ⟨_, _, congrArg Host.Outcome.next (run.trans cleared), ad.congr rfl, rfl, rfl, rfl, rfl, rfl, ?_, rfl, rfl, rfl⟩
    exact (bit_or _ _ 1).trans (Bool.or_eq_true _ _ |>.mpr (.inr (by decide)))

end Sys2Proof.Machine
end

section
/-! SUPPORT. What the recorder writes (R310, R314, R316, R317) and what its triggers and cursor do (R312 to R320). Settles
O45, O46. -/
namespace Sys2Proof.Machine

/-! ### Triggers, survey and cursor -/

section
variable {g : Trigger} {rest : List Trigger} {s : State}

/-- In SERVICE without coalescing a trigger of a class that does not ask for eclipse goes to the queue. -/
theorem handleTrigger_queues (mode : recMode s = 1) (alone : coalesce s = 0) (awake_ : bit s.rcd.eclEn g.cls = false) :
    handleTrigger g s = enterQueue g false s := by
  have never : ∀ ty cls source detail latest, repeats s g ty cls source detail latest = false :=
    fun _ _ _ _ _ => decide_eq_false fun all => all.1 alone
  have served : service g s = enterQueue g false s := by
    unfold service
    split
    · rw [never]; rfl
    · split
      · rw [never]; rfl
      · rfl
  simp [handleTrigger, mode, awake_, served]

theorem nextTrigger_takes (raised : s.rcd.raised = g :: rest) :
    nextTrigger s = handleTrigger g (s.modRec fun r => { r with raised := rest }) := by
  rw [nextTrigger, raised]

theorem enterQueue_room (room : stageFill s < 32) : enterQueue g false s = { s with
    rcd := { s.rcd with staging := s.rcd.staging ++ [eventEntry s g false] }, free := s.free + 1 } :=
  if_neg (Nat.not_le.mpr room)
theorem enterQueue_full (full : 32 ≤ stageFill s) : enterQueue g false s =
    flagRec 0 (s.modRec (fun r => { r with ovf := satNat 16 (r.ovf + 1), lost := satNat 16 (r.lost + 1) })) := if_pos full

theorem surveyPeriod_ends (mode : fld s.rcd.cfg 0 2 = 2) (none_ : s.rcd.raised = [])
    (due : s.rcd.survey.startSeq + 100 * max 1 (fld s.rcd.period 0 16) ≤ s.epc.seq) : surveyPeriod s =
    { surveyStart (s.rcd.survey.startSeq + surveyLen s) (stage (surveyEntry s) s) with free := s.free + 1 } := by
  rw [surveyPeriod, if_pos ⟨mode, due⟩, settleTriggers_none none_]

theorem trig_raises {cls source : Nat} {detail : Word} (en : bit s.rcd.trigEn cls = true) :
    trig cls source detail s = { s with rcd := { s.rcd with raised := s.rcd.raised ++
      [{ cls := cls, source := source, detail := detail, epoch := s.epc.seq, tbGen := (tbNowStamp s).2,
         tbTime := (tbNowStamp s).1, role := s.zl.role }] } } := if_pos en
end

/-- Settles O45. -/
theorem recorderTriggers : Obligations.Recorder_triggers := by
  intro t s
  refine ⟨fun g rest up raised mode alone awake_ => ⟨fun room => ?_, fun full => ?_⟩, fun up mode none_ due => ?_,
    fun v host => ⟨fun en => ?_, fun reach => ?_, fun gone => ?_⟩⟩
  · let q := (s.advance t).modRec fun r => { r with raised := rest }
    have run : exec (.recTrigger t) s = .next (enterQueue g false q) :=
      (congrArg Host.Outcome.next (whenAwake_advance up)).trans (congrArg _ ((nextTrigger_takes (s := s.advance t) raised).trans
        (handleTrigger_queues (s := q) mode alone awake_)))
    rw [enterQueue_room (s := q) room] at run
    exact ⟨_, _, run, rfl, rfl, rfl, rfl, rfl, rfl, rfl, rfl, rfl, rfl, rfl, rfl⟩
  · let q := (s.advance t).modRec fun r => { r with raised := rest }
    have run : exec (.recTrigger t) s = .next (enterQueue g false q) :=
      (congrArg Host.Outcome.next (whenAwake_advance up)).trans (congrArg _ ((nextTrigger_takes (s := s.advance t) raised).trans
        (handleTrigger_queues (s := q) mode alone awake_)))
    rw [enterQueue_full (s := q) full] at run
    refine ⟨_, run, ?_, ?_, ?_, ?_, ?_, flagRec_mem .., flagRec_heads .., flagRec_aon ..⟩
    · rw [flagRec_fault]; rfl
    · rw [flagRec_fault]; rfl
    · rw [flagRec_fault]; rfl
    · rw [flagRec_fault]; rfl
    · rw [flagRec_fault]
      exact (bit_or _ _ 0).trans (Bool.or_eq_true _ _ |>.mpr (.inr (by decide)))
  · have run : exec (.recSurveyPeriod t) s = .next (surveyPeriod (s.advance t)) :=
      congrArg Host.Outcome.next (whenRunning_advance up)
    rw [surveyPeriod_ends (s := s.advance t) mode none_ due] at run
    exact ⟨_, _, run, rfl, rfl, rfl, rfl, rfl, rfl⟩
  · have run : exec (.recMarkWrite t v 15) s = .next (trig 14 0xFFFF v (s.advance t)) :=
      congrArg Host.Outcome.next (whenHost_advance host)
    rw [trig_raises (s := s.advance t) en] at run
    exact ⟨_, _, run, rfl, rfl, rfl, rfl, rfl, rfl⟩
  · have run : exec (.recCursorWrite t v 15) s = .next (recCursor v (s.advance t)) :=
      congrArg Host.Outcome.next (whenHost_advance host)
    have reach' : reachable (s.advance t) v.toNat = true := reach
    rw [run]
    simp only [recCursor, reach']
    rfl
  · have run : exec (.recCursorWrite t v 15) s = .next (recCursor v (s.advance t)) :=
      congrArg Host.Outcome.next (whenHost_advance host)
    have gone' : reachable (s.advance t) v.toNat = false := gone
    rw [run]
    simp only [recCursor, gone']
    rfl

/-! ### What follows a written record -/

/-- Only the vital port may differ, and what every command touches in passing. -/
def InPort (s u : State) : Prop := ∃ v, u.device = ({ s with vsp := v } : State).device

theorem InPort.refl (s : State) : InPort s s := ⟨s.vsp, rfl⟩
theorem InPort.trans {s u w : State} (a : InPort s u) (b : InPort u w) : InPort s w := by
  obtain ⟨_, a⟩ := a
  obtain ⟨v, b⟩ := b
  exact ⟨v, b.trans (congrArg (fun x : State => ({ x with vsp := v } : State)) a :)⟩
theorem modLane_inPort (l : Lane) (f : LaneSt → LaneSt) (s : State) : InPort s (s.modLane l f) := ⟨_, rfl⟩
theorem flagVsp_inPort (w : Word) (s : State) : InPort s (flagVsp w s) := ⟨_, flagVsp_device ..⟩
theorem endRead_inPort (l : Lane) (s : State) : InPort s (endRead l s) := by
  unfold endRead
  split
  · split
    · exact (modLane_inPort ..).trans (flagVsp_inPort ..)
    · exact InPort.refl s
  · exact InPort.refl s
theorem cutRead_inPort (l : Lane) (s : State) : InPort s (cutRead l s) := by
  unfold cutRead
  extract_lets u
  split
  · exact (endRead_inPort l s).trans (modLane_inPort ..)
  · exact endRead_inPort l s
theorem cutReads_inPort (s : State) : InPort s (cutReads s) :=
  ((cutRead_inPort .a s).trans (cutRead_inPort .b _)).trans (cutRead_inPort .c _)

/-- The recorder's queue and clock, where its ring stands, the heads and the sections. -/
def State.written (s : State) : List RecEntry × Nat × Option Nat × Nat × Vector Head 256 × Vector Section 256 :=
  (s.rcd.staging, s.rcd.lost, s.rcd.lastWrite, s.aon.next, s.heads, s.sections)

section
variable (s : State)
theorem written_of_device {s u : State} (e : u.device = s.device) : u.written = s.written :=
  (congrArg State.written e :)
theorem flagRec_written (n : Nat) : (flagRec n s).written = s.written := by
  rw [State.written, flagRec_fault, flagRec_aon, flagRec_heads, flagRec_sections]
  rfl
theorem enterEclipse_written (cause cls : Nat) : (enterEclipse cause cls s).written = s.written := by
  obtain ⟨v, e⟩ := cutReads_inPort s
  have cut : (cutReads s).written = s.written := (written_of_device e).trans rfl
  exact Eq.trans rfl cut
theorem requestEclipse_written (cause cls : Nat) : (requestEclipse cause cls s).written = s.written := by
  unfold requestEclipse
  split
  · rfl
  · split <;> rfl
  · exact enterEclipse_written ..
theorem afterWrite_written (e : RecEntry) (b : List Byte) : (afterWrite e b s).written = s.written := by
  unfold afterWrite
  extract_lets u v w
  have hu : u.written = s.written := by
    unfold u
    split
    · exact written_of_device (offer_device ..)
    · rfl
  have hv : v.written = u.written := by
    unfold v
    split
    · exact flagRec_written ..
    · rfl
  have hw : w.written = s.written := ((written_of_device (completeJob_device ..)).trans hv).trans hu
  split
  · exact (requestEclipse_written ..).trans hw
  · exact hw

/-- The ring steps by one record. -/
theorem stepRing_written (e : RecEntry) : (stepRing e s).written =
    ({ s with aon := { s.aon with next := (s.aon.next + 1) % 2 ^ 32 } } : State).written := by
  unfold stepRing
  extract_lets n next oldest passes _ _ u v
  have hv : v.written = ({ s with aon := { s.aon with next := (s.aon.next + 1) % 2 ^ 32 } } : State).written := by
    unfold v
    split <;> rfl
  split
  · exact (flagRec_written ..).trans hv
  · exact hv

theorem writeEntry_written (e : RecEntry) : (writeEntry e s).written =
    (s.rcd.staging, 0, some s.now, (s.aon.next + 1) % 2 ^ 32, s.heads, s.sections) := by
  unfold writeEntry
  extract_lets u n bytes o w
  obtain ⟨m, closed, _⟩ := closeOpen_shape s
  refine (afterWrite_written ..).trans ((stepRing_written ..).trans ?_)
  unfold w u
  rw [closed]
  rfl
end

/-! ### The bytes of a record -/

theorem le_length (n v : Nat) : (le n v).length = n := by
  induction n generalizing v with
  | zero => rfl
  | succ n ih => rw [le, List.length_cons, ih]
theorem slice_length (l : List Byte) (i n : Nat) : (slice l i n).length = n := le_length ..
theorem repeatBytes_length (rep ep : Nat) : (repeatBytes rep ep).length = 6 := by
  rw [repeatBytes, List.length_append, le_length, le_length]
theorem entryBytes_length (e : RecEntry) (n lost : Nat) (d : Word) : (entryBytes e n lost d).length = 128 := by
  simp only [entryBytes, entryBody, List.length_append, le_length, slice_length, repeatBytes_length, leWord, zeros,
    List.length_replicate]

section
variable {s : State}

/-- Closing the open record changes no byte but its REPEAT and LAST_EPOCH. -/
theorem closeOpen_outside (wf : Memory.wf s.rcd.mem = true) {a : Nat} (out : ∀ o, s.rcd.open_ = some o →
    a < slotAddr o.recno + 48 ∨ slotAddr o.recno + 54 ≤ a) : memGet (closeOpen s).rcd.mem a = memGet s.rcd.mem a := by
  obtain ⟨m, _, same, idle, wrote⟩ := closeOpen_shape s
  rw [← same]
  cases h : s.rcd.open_ with
  | none => rw [idle h]
  | some o =>
    rw [wrote o h]
    refine memGet_memWrite_of_outside wf ((out o h).imp_right fun far => ?_)
    rw [repeatBytes_length]
    omega

theorem recWrite_writes {e : RecEntry} {rest : List RecEntry} (next : s.rcd.staging = e :: rest)
    (may : mayWrite s = true) : recWrite s = writeEntry e (s.modRec fun r => { r with staging := rest }) := by
  rw [recWrite, next]
  exact if_pos may

/-- What a record's bytes rest on is untouched by closing the one before it. -/
theorem writeEntry_bytes (e : RecEntry) : (writeEntry e s).rcd.mem =
    memWrite (closeOpen s).rcd.mem (slotAddr s.aon.next) (entryBytes e s.aon.next s.rcd.lost (writtenDetail s e)) := by
  obtain ⟨m, closed, _⟩ := closeOpen_shape s
  rw [writeEntry_mem, closed]
  rfl
end

/-- Settles O46. -/
theorem recorderWriting : Obligations.Recorder_writing := by
  intro t s up wf
  refine ⟨fun e rest next may => ?_, fun o open_ due => ?_⟩
  · let q := (s.advance t).modRec fun r => { r with staging := rest }
    have run : exec (.recWrite t) s = .next (writeEntry e q) := (congrArg Host.Outcome.next (whenAwake_advance up)).trans
      (congrArg _ (recWrite_writes (s := s.advance t) next may))
    have shows := writeEntry_written q e
    simp only [State.written, Prod.mk.injEq] at shows
    obtain ⟨staging, lost, last, ring, heads, sections⟩ := shows
    have bytes := writeEntry_bytes (s := q) e
    have closed : Memory.wf (closeOpen q).rcd.mem = true := closeOpen_wf wf
    refine ⟨_, run, staging, ring, lost, last, ?_, fun a out far => ?_, heads, sections⟩
    · have back := memRead_memWrite (a := slotAddr q.aon.next)
        (bs := entryBytes e q.aon.next q.rcd.lost (writtenDetail q e)) closed
      rw [entryBytes_length, ← bytes] at back
      exact back
    · rw [bytes, memGet_memWrite_of_outside closed (by rw [entryBytes_length]; exact out)]
      exact closeOpen_outside (s := q) wf far
  · have run : exec (.recWriteBack t) s = .next (closeOpen (s.advance t)) := by
      refine (congrArg Host.Outcome.next (whenAwake_advance up)).trans (congrArg _ ?_)
      have open' : (s.advance t).rcd.open_ = some o := open_
      rw [recWriteBack, open']
      exact if_pos due
    obtain ⟨m, closed, same, _, wrote⟩ := closeOpen_shape (s.advance t)
    have written : (closeOpen (s.advance t)).rcd.mem = memWrite s.rcd.mem (slotAddr o.recno + 48)
        (repeatBytes o.rep o.lastEp) := same.symm.trans (wrote o open_)
    refine ⟨_, run, by rw [closed]; rfl, ?_, fun a out => ?_, ?_⟩
    · have back := memRead_memWrite (a := slotAddr o.recno + 48) (bs := repeatBytes o.rep o.lastEp) wf
      rw [repeatBytes_length, ← written] at back
      exact back
    · rw [written]
      exact memGet_memWrite_of_outside wf (by rw [repeatBytes_length]; exact out)
    · rw [closed]
      rfl

end Sys2Proof.Machine
end

section
/-! SUPPORT. Clock supervision (R305, R334 to R343). Settles O41. -/
namespace Sys2Proof.Machine

/-! ### Clocks -/

/-- Only the time base may differ, and what every command touches in passing. -/
def InTimeBase (s u : State) : Prop := ∃ b, u.device = ({ s with tb := b } : State).device

theorem InTimeBase.trans {s u w : State} (a : InTimeBase s u) (b : InTimeBase u w) : InTimeBase s w := by
  obtain ⟨_, a⟩ := a
  obtain ⟨v, b⟩ := b
  exact ⟨v, b.trans (congrArg (fun x : State => ({ x with tb := v } : State)) a :)⟩
theorem flagTb_inTimeBase (n : Nat) (s : State) : InTimeBase s (flagTb n s) := ⟨_, flagTb_device ..⟩
theorem tbEnter_inTimeBase (st : TbState) (s : State) : InTimeBase s (tbEnter st s) := by
  have entered : InTimeBase s { s with tb := { s.tb with st := st, ppsGood := 0, freqHeld := false } } := ⟨_, rfl⟩
  cases st
  case locked => exact entered.trans (flagTb_inTimeBase ..)
  case holdover => exact entered.trans (flagTb_inTimeBase ..)
  all_goals exact entered
theorem refLost_inTimeBase (n : Nat) (s : State) : InTimeBase s (refLost n s) := by
  unfold refLost
  split
  · exact (tbEnter_inTimeBase ..).trans (flagTb_inTimeBase ..)
  · exact ⟨s.tb, rfl⟩

/-- A device that differs from another in its clocks alone, and how. -/
theorem onlyClocks {s w u : State} {f : Clk → Clk} (base : w.device = s.device) (e : u.device = (w.modClk f).device) :
    u.clk = f s.clk ∧ u.device = ({ s with clk := u.clk } : State).device := by
  have clk : u.clk = f s.clk := (clk_of_device e).trans (congrArg f (clk_of_device base))
  refine ⟨clk, e.trans ?_⟩
  rw [clk, ← clk_of_device base]
  exact (congrArg (fun x : State => ({ x with clk := f w.clk } : State)) base :)

/-- A flag that has been set. -/
theorem bit_flagged (w v : Word) {n : Nat} (on : bit v n = true) : bit (w ||| v) n = true := by
  rw [bit_or, on, Bool.or_true]

section
variable {s : State}
theorem clkTest_refuses {p : List Byte} {seq : Nat} (bad : clkTest s (wordArg p 0) ≠ 0) : clkSet p seq s =
    complete seq .conflict (clkTest s (wordArg p 0)) [] (s.modClk fun c => { c with result := clkTest s (wordArg p 0) }) :=
  if_pos bad

/-- An admitted CLK_SET stores its word, completing at once or waiting for the PLL. -/
theorem clkSet_stores {p : List Byte} {seq : Nat} (good : clkTest s (wordArg p 0) = 0) : ∃ jobs : List Nat → List Nat,
    (clkSet p seq s).device =
      (s.modClk fun c => { c with cfg := wordArg p 0 &&& 0xFF01, result := 0, jobs := jobs c.jobs }).device := by
  have stored : clkSet p seq s = clkStore (wordArg p 0) (some seq) s := if_neg (not_not_intro good)
  rw [stored]
  refine ⟨fun l => if zclkAsked (wordArg p 0) s then l else l ++ (some seq).toList, ?_⟩
  unfold clkStore
  extract_lets there u
  exact (ite_proj State.device (x := u.device) (completeJob_device ..) rfl).trans rfl

theorem flagClk_modClk (f : Clk → Clk) (w : Word) : (flagClk w (s.modClk f)).device =
    (s.modClk fun c => { f c with fault := (f c).fault ||| w }).device := flagClk_device ..

theorem refclkLoss_device : (refclkLoss s).device = (s.modClk fun c => { c with
    hclkOk := false, vsHclk := 0x8000, fault := c.fault ||| bits 4 1 }).device := flagClk_device ..

/-- TB_10M missing: heads, sections and clock flags stay. -/
theorem tenMhzLoss_keeps : (tenMhzLoss s).heads = s.heads ∧ (tenMhzLoss s).sections = s.sections ∧
    (tenMhzLoss s).clk.fault = s.clk.fault := by
  have shape : ∃ u, (tenMhzLoss s = u ∨ tenMhzLoss s = refLost 3 u) ∧ u.heads = s.heads ∧ u.sections = s.sections ∧
      u.clk.fault = s.clk.fault := by
    refine ⟨{ s with tb := { s.tb with refOk := false }, clk := { s.clk with vsTb := 0x8000 } }, ?_, rfl, rfl, rfl⟩
    unfold tenMhzLoss
    extract_lets u
    split
    · exact .inr rfl
    · exact .inl rfl
  obtain ⟨u, e | e, heads, sections, fault⟩ := shape
  · rw [e]; exact ⟨heads, sections, fault⟩
  · obtain ⟨b, kept⟩ := refLost_inTimeBase 3 u
    rw [e]
    exact ⟨(heads_of_device kept).trans heads, (sections_of_device kept).trans sections,
      (congrArg Clk.fault (clk_of_device kept)).trans fault⟩

/-- TB_10M missing in a mode that uses it costs the lock. -/
theorem tenMhzLoss_holds (uses : uses10M s.tb.mode = true) (locked : s.tb.st = .locked) :
    (tenMhzLoss s).tb.st = .holdover := by
  have lost : tenMhzLoss s = refLost 3 { s with
      tb := { s.tb with refOk := false }, clk := { s.clk with vsTb := 0x8000 } } := if_pos uses
  have held : ∀ u : State, u.tb.st = .locked → (refLost 3 u).tb.st = .holdover := fun u l =>
    congrArg Tb.st (refLost_holds l).1
  exact (congrArg (fun x : State => x.tb.st) lost).trans (held _ locked)

/-- What the comparison shows of the clocks, once those that went missing are lost. -/
def checkedState (vsHclk vsTb : Option Int) (s : State) : State :=
  { s with
    clk := { s.clk with vsHclk := ppmCode vsHclk, vsTb := ppmCode vsTb, hclkOk := vsHclk.isSome }
    tb := { s.tb with refOk := vsTb.isSome } }

/-- The losses that a comparison finds. -/
def lostHclk (vsHclk : Option Int) (s : State) : State := if s.clk.hclkOk && vsHclk.isNone then refclkLoss s else s
def lostTen (vsTb : Option Int) (s : State) : State := if s.tb.refOk && vsTb.isNone then tenMhzLoss s else s

theorem freqCheck_steps (a b : Option Int) : freqCheck a b s =
    flagClk (put 1 1 (b2n (beyondTol (lostTen b (lostHclk a s)) a)) ||| put 2 1 (b2n (beyondTol (lostTen b (lostHclk a s)) b)))
      (checkedState a b (lostTen b (lostHclk a s))) := rfl

/-- With both clocks absent the ones that were there are lost. -/
theorem lost_absent (there : s.clk.hclkOk = true) : ∃ w, lostTen none (lostHclk none s) = w ∧ bit w.clk.fault 4 = true ∧
    w.heads = s.heads ∧ w.sections = s.sections ∧
      (s.tb.refOk = true → uses10M s.tb.mode = true → s.tb.st = .locked → w.tb.st = .holdover) := by
  have dev := refclkLoss_device (s := s)
  have fault : bit (refclkLoss s).clk.fault 4 = true := by
    rw [clk_of_device dev]
    exact bit_flagged _ _ (by decide)
  have tb : (refclkLoss s).tb = s.tb := (tb_of_device dev :)
  have heads : (refclkLoss s).heads = s.heads := (heads_of_device dev :)
  have sections : (refclkLoss s).sections = s.sections := (sections_of_device dev :)
  have first : lostHclk none s = refclkLoss s := if_pos (by rw [there]; rfl)
  rw [first, lostTen, tb]
  cases ok : s.tb.refOk
  · exact ⟨_, rfl, fault, heads, sections, fun no => nomatch no⟩
  · obtain ⟨heads', sections', flags⟩ := tenMhzLoss_keeps (s := refclkLoss s)
    refine ⟨_, rfl, ?_, heads'.trans heads, sections'.trans sections, fun _ uses locked =>
      tenMhzLoss_holds (s := refclkLoss s) (by rw [tb]; exact uses) (by rw [tb]; exact locked)⟩
    exact (congrArg (fun w : Word => bit w 4) flags).trans fault

/-- Where PCIE_REFCLK is present and TB_10M is not lost, nothing is. -/
theorem lost_present {d : Int} {e : Option Int} (kept : s.tb.refOk = true → e.isSome = true) :
    lostTen e (lostHclk (some d) s) = s := by
  have first : lostHclk (some d) s = s := if_neg (by rw [Option.isNone_some, Bool.and_false]; decide)
  rw [first, lostTen]
  cases ok : s.tb.refOk
  · rfl
  · obtain ⟨v, rfl⟩ := Option.isSome_iff_exists.mp (kept ok)
    rfl

theorem beyondTol_far {d : Int} (far : 100 * fld s.clk.cfg 8 8 < d.natAbs) : beyondTol s (some d) = true :=
  decide_eq_true far

theorem ppmCode_small {e : Int} (small : e.natAbs ≤ 32767) : ppmCode (some e) = BitVec.ofInt 16 e := by
  have inside : satInt 16 e = e := by
    simp only [satInt]
    omega
  rw [ppmCode, inside, twos]
  apply BitVec.eq_of_toNat_eq
  rw [BitVec.toNat_ofNat, BitVec.toNat_ofInt]
  omega

theorem zclkLock_device : ∃ z seen, (zclkLock s).device = (s.modClk fun c => { c with
    zlock := bit c.cfg 0, zrelock := z, zSeen := seen, jobs := [] }).device ∧
    (bit s.clk.cfg 0 = true → s.clk.zlock = false → s.clk.zSeen = true → z = (s.clk.zrelock + 1) % 65536) := by
  unfold zclkLock
  extract_lets run jobs u
  refine ⟨if run && !s.clk.zlock && s.clk.zSeen then (s.clk.zrelock + 1) % 65536 else s.clk.zrelock, s.clk.zSeen || run,
    (foldOver_keeps (g := State.device) (fun _ _ => complete_device ..) u).trans rfl, fun on off seen => ?_⟩
  have on' : run = true := on
  rw [on', off, seen]
  rfl

/-- A lost ZCLK lock takes a link that was up back to training. -/
theorem linkToTrain_up (up : s.zl.link = .up) : (linkToTrain s).zl.link = .train ∧ bit (linkToTrain s).zl.fault 0 = true := by
  have flagged : ∀ u : State, (unsyncAll (flagZl 0 u)).zl = { u.zl with fault := u.zl.fault ||| bits 0 1 } :=
    fun u => zl_of_device (flagZl_device u 0)
  unfold linkToTrain
  rw [up]
  dsimp only
  rw [flagged]
  exact ⟨rfl, bit_flagged _ _ (by decide)⟩
theorem linkToTrain_heads : (linkToTrain s).heads = s.heads := by
  unfold linkToTrain
  split
  · exact (heads_of_device (flagZl_device _ 0)).trans rfl
  · rfl
  · rfl
theorem linkToTrain_clk : (linkToTrain s).clk = s.clk := by
  unfold linkToTrain
  split
  · exact (clk_of_device (flagZl_device _ 0)).trans rfl
  · rfl
  · rfl
end

/-- Settles O41. -/
theorem clockSupervision : Obligations.Clock_supervision := by
  intro t s
  refine ⟨fun c A => ⟨fun good => ?_, fun bad => ?_⟩, fun up => ?_⟩
  · obtain ⟨e, ob, ir, ou, ad, run⟩ := command_runs 0x02C0 (fun seq => clkSet c.payload seq) A
    obtain ⟨jobs, stored⟩ := clkSet_stores (seq := s.hp.admSeq) (s := s.admitted t e ob ir ou) (p := c.payload) good
    obtain ⟨clk, only⟩ := onlyClocks (s := s) (w := s.admitted t e ob ir ou) rfl stored
    exact ⟨_, congrArg Host.Outcome.next run, congrArg Clk.cfg clk, congrArg Clk.result clk, only⟩
  · exact answers_of A rfl fun e ob ir ou => ⟨_, clkTest_refuses (s := s.admitted t e ob ir ou) bad, rfl, rfl⟩
  have run : ∀ f, (Host.Outcome.next (whenAwake f (s.advance t)) : Host.Outcome State Fault Refusal) =
      .next (f (s.advance t)) := fun f => congrArg Host.Outcome.next (whenAwake_advance up)
  refine ⟨?_, fun d far => ⟨fun gone => ?_, fun e => ?_⟩, fun there => ?_, ?_, ?_, ?_⟩
  · obtain ⟨clk, only⟩ := onlyClocks (s := s) (w := s.advance t) rfl (flagClk_modClk (fun c =>
      { c with glitch := (c.glitch + 1) % 65536 }) (bits 0 1))
    exact ⟨_, run _, congrArg Clk.glitch clk, (congrArg (fun c : Clk => bit c.fault 0) clk).trans
      (bit_flagged _ _ (by decide)), only⟩
  · have checked := freqCheck_steps (s := s.advance t) (some d) none
    rw [lost_present (s := s.advance t) fun ok => absurd (gone.symm.trans ok) (by decide),
      beyondTol_far (s := s.advance t) far] at checked
    have same : (checkedState (some d) none (s.advance t)).device =
        (s.modClk fun c => { c with vsHclk := ppmCode (some d), vsTb := ppmCode none, hclkOk := true }).device := by
      have tb : ({ s.tb with refOk := false } : Tb) = s.tb := by rw [← gone]
      exact (congrArg (fun b : Tb => ({ s with
        clk := { s.clk with vsHclk := ppmCode (some d), vsTb := ppmCode none, hclkOk := true }, tb := b } : State).device) tb :)
    have flagged : ∀ v, (flagClk v (checkedState (some d) none (s.advance t))).device = (s.modClk fun c => { c with
        vsHclk := ppmCode (some d), vsTb := ppmCode none, hclkOk := true, fault := c.fault ||| v }).device := fun v =>
      (flagClk_device _ _).trans (congrArg (fun x : State => ({ x with clk := { x.clk with fault := x.clk.fault ||| v } } :
        State)) same :)
    obtain ⟨clk, only⟩ := onlyClocks (s := s) (w := s) rfl (flagged _)
    exact ⟨_, (run _).trans (congrArg _ checked), (congrArg (fun c : Clk => bit c.fault 1) clk).trans
      (bit_flagged _ _ (by rw [bit_or]; rfl)), congrArg Clk.hclkOk clk, congrArg Clk.vsTb clk, only⟩
  · have checked := freqCheck_steps (s := s.advance t) (some d) (some e)
    rw [lost_present (s := s.advance t) fun _ => rfl, beyondTol_far (s := s.advance t) far] at checked
    have dev := flagClk_device (checkedState (some d) (some e) (s.advance t))
      (put 1 1 (b2n true) ||| put 2 1 (b2n (beyondTol (s.advance t) (some e))))
    have clk := clk_of_device dev
    refine ⟨_, (run _).trans (congrArg _ checked), (congrArg (fun c : Clk => bit c.fault 1) clk).trans ?_, fun farE =>
      (congrArg (fun c : Clk => bit c.fault 2) clk).trans ?_, congrArg Clk.hclkOk clk, congrArg Tb.refOk (tb_of_device dev),
      fun small => (congrArg Clk.vsTb clk).trans (ppmCode_small small), (heads_of_device dev :), (sections_of_device dev :)⟩
    · exact bit_flagged _ _ (by rw [bit_or]; rfl)
    · rw [beyondTol_far (s := s.advance t) farE]
      exact bit_flagged _ _ (by decide)
  · obtain ⟨w, is_, fault, heads, sections, holds⟩ := lost_absent (s := s.advance t) there
    have checked := freqCheck_steps (s := s.advance t) none none
    rw [is_] at checked
    have flagged : ∀ v, (flagClk v (checkedState none none w)).clk = { (checkedState none none w).clk with
        fault := w.clk.fault ||| v } ∧ (flagClk v (checkedState none none w)).tb = { w.tb with refOk := false } ∧
        (flagClk v (checkedState none none w)).heads = w.heads ∧
        (flagClk v (checkedState none none w)).sections = w.sections := fun v =>
      have dev := flagClk_device (checkedState none none w) v
      ⟨(clk_of_device dev :), (tb_of_device dev :), (heads_of_device dev :), (sections_of_device dev :)⟩
    obtain ⟨clk, tb, heads', sections'⟩ := flagged _
    refine ⟨_, (run _).trans (congrArg _ checked), (congrArg (fun c : Clk => bit c.fault 4) clk).trans ?_,
      congrArg Clk.hclkOk clk, congrArg Clk.vsHclk clk, congrArg Clk.vsTb clk, congrArg Tb.refOk tb, ?_,
      fun ok uses locked => (congrArg Tb.st tb).trans (holds ok uses locked), heads'.trans heads, sections'.trans sections⟩
    · exact (bit_or _ _ 4).trans (Bool.or_eq_true _ _ |>.mpr (.inl fault))
    · exact (congrArg (fun b => _ && b) (congrArg Clk.hclkOk clk)).trans (Bool.and_false _)
  · obtain ⟨clk, only⟩ := onlyClocks (s := s) (w := s.advance t) rfl refclkLoss_device
    exact ⟨_, run _, (congrArg (fun c : Clk => bit c.fault 4) clk).trans (bit_flagged _ _ (by decide)),
      (congrArg (fun b => _ && b) (congrArg Clk.hclkOk clk)).trans (Bool.and_false _), congrArg Clk.vsHclk clk, only⟩
  · have dev := flagClk_device (linkToTrain ((s.advance t).modClk fun c => { c with zlock := false })) (bits 3 1)
    have clk := clk_of_device dev
    have zl := zl_of_device dev
    refine ⟨_, run _, ?_, ?_, fun linked => ?_, (heads_of_device dev).trans linkToTrain_heads⟩
    · exact (congrArg Clk.zlock clk).trans (congrArg Clk.zlock linkToTrain_clk)
    · exact (congrArg (fun c : Clk => bit c.fault 3) clk).trans (bit_flagged _ _ (by decide))
    · have fell := linkToTrain_up (s := (s.advance t).modClk fun c => { c with zlock := false }) linked
      exact ⟨(congrArg Zl.link zl).trans fell.1, (congrArg (fun z : Zl => bit z.fault 0) zl).trans fell.2⟩
  · obtain ⟨z, seen, dev, relocks⟩ := zclkLock_device (s := s.advance t)
    obtain ⟨clk, only⟩ := onlyClocks (s := s) (w := s.advance t) rfl dev
    exact ⟨_, run _, congrArg Clk.zlock clk, congrArg Clk.jobs clk, fun on off seen =>
      (congrArg Clk.zrelock clk).trans (relocks on off seen), only⟩

end Sys2Proof.Machine
end

section
/-! SUPPORT. The entry into eclipse (R344, R345) and the TAP (R348 to R351). Settles O42, O43. -/
namespace Sys2Proof.Machine

/-! ### The entry -/

section
variable (s : State)
theorem flagVsp_hp (w : Word) : (flagVsp w s).hp = s.hp := announce_hp ..
theorem endRead_hp (l : Lane) : (endRead l s).hp = s.hp := by
  unfold endRead
  split
  · split
    · exact flagVsp_hp ..
    · rfl
  · rfl
theorem cutRead_hp (l : Lane) : (cutRead l s).hp = s.hp := by
  unfold cutRead
  extract_lets u
  split <;> exact endRead_hp s l
theorem cutReads_hp : (cutReads s).hp = s.hp := by rw [cutReads, cutRead_hp, cutRead_hp, cutRead_hp]

/-- What an entry keeps, and what it writes in AON. -/
theorem enterEclipse_shows (cause cls : Nat) :
    (enterEclipse cause cls s).aon = { s.aon with
      eclLast := put 31 1 1 ||| put 8 8 cls ||| put 0 3 cause, eclEpoch := s.epc.seq, eclCnt := (s.aon.eclCnt + 1) % 65536 } ∧
    (enterEclipse cause cls s).hp = s.hp ∧ (enterEclipse cause cls s).heads = s.heads ∧
    (enterEclipse cause cls s).sections = s.sections ∧
    { (enterEclipse cause cls s).rcd with raised := [] } = { s.rcd with raised := [] } := by
  obtain ⟨v, e⟩ := cutReads_inPort s
  have aon : (cutReads s).aon = s.aon := (aon_of_device e :)
  have epc : (cutReads s).epc = s.epc := (epc_of_device e :)
  have shown : (enterEclipse cause cls s).aon = { (cutReads s).aon with
      eclLast := put 31 1 1 ||| put 8 8 cls ||| put 0 3 cause, eclEpoch := (cutReads s).epc.seq
      eclCnt := ((cutReads s).aon.eclCnt + 1) % 65536 } := rfl
  rw [shown, aon, epc]
  exact ⟨rfl, cutReads_hp s, (heads_of_device e :), (sections_of_device e :), (congrArg State.rcd e :)⟩
end

section
variable {cause cls : Nat} {s : State}
theorem requestEclipse_awake (up : awake s = true) : requestEclipse cause cls s = enterEclipse cause cls s := by
  unfold requestEclipse
  split
  · next h => simp [awake, h] at up
  · next h => simp [awake, h] at up
  · rfl
theorem requestEclipse_reset (down : s.phase = .reset) : requestEclipse cause cls s = s := by
  rw [requestEclipse, down]
theorem requestEclipse_dark (dark : s.phase = .eclipse) : requestEclipse cause cls s =
    if entering s then { s with aon := { s.aon with eclLast := s.aon.eclLast ||| put 0 3 cause } } else s := by
  rw [requestEclipse, dark]

theorem eclEnter_requests {p : List Byte} {seq : Nat} (on : bit s.ecl.cfg 0 = true) (key : wordArg p 0 = 0x0EC11950) :
    eclEnter p seq s = requestEclipse 2 0 s := by
  simp [eclEnter, on, key]
theorem eclEnter_refuses {p : List Byte} {seq : Nat} (no : bit s.ecl.cfg 0 = false ∨ wordArg p 0 ≠ 0x0EC11950) :
    eclEnter p seq s = complete seq .conflict 0 [] s := by
  unfold eclEnter
  split
  · rfl
  · next on =>
    rw [if_pos (no.resolve_left fun off => on (by rw [off]; rfl))]
    rfl
end

/-- Settles O42. -/
theorem eclipseEntry : Obligations.Eclipse_entry := by
  intro t s
  let q : State := { s.advance t with ecl := { (s.advance t).ecl with pinLow := true } }
  have run : exec (.eclipseRequest t) s = .next (requestEclipse 1 0 q) := rfl
  refine ⟨fun up => ?_, fun dark => ⟨fun soon => ?_, fun late => ?_⟩, fun down => ?_, fun c A => ⟨fun on key => ?_, fun no => ?_⟩⟩
  · obtain ⟨aon, _, heads, sections, rcd⟩ := enterEclipse_shows q 1 0
    rw [requestEclipse_awake (s := q) up] at run
    exact ⟨_, run, rfl, (congrArg Aon.eclLast aon).trans rfl, congrArg Aon.eclEpoch aon, congrArg Aon.eclCnt aon,
      rfl, rfl, heads, sections, rcd, fun l => cutReads_read q l⟩
  · rw [requestEclipse_dark (s := q) dark, if_pos (show entering q = true by
      rw [entering, show q.phase = .eclipse from dark]; exact decide_eq_true soon)] at run
    exact run
  · rw [requestEclipse_dark (s := q) dark, if_neg (show ¬entering q = true by
      rw [entering, show q.phase = .eclipse from dark, Bool.and_eq_true, not_and]
      exact fun _ => of_decide_eq_true.mt (Nat.not_le.mpr late))] at run
    exact run
  · rw [requestEclipse_reset (s := q) down] at run
    exact run
  · obtain ⟨e, ob, ir, ou, ad, ran⟩ := command_runs 0x02D0 (fun seq => eclEnter c.payload seq) A
    have parts := A.1
    simp only [admissible, Bool.and_eq_true] at parts
    have up : awake (s.admitted t e ob ir ou) = true := awake_of_orbitReady (s := s.advance t) parts.1.1.1.1
    obtain ⟨aon, hp, heads, sections, _⟩ := enterEclipse_shows (s.admitted t e ob ir ou) 2 0
    rw [eclEnter_requests (s := s.admitted t e ob ir ou) on key, requestEclipse_awake up] at ran
    exact ⟨_, congrArg Host.Outcome.next ran, ad.congr hp, rfl, (congrArg Aon.eclLast aon).trans rfl,
      congrArg Aon.eclEpoch aon, rfl, heads, sections⟩
  · exact answers_of A rfl fun e ob ir ou => ⟨_, eclEnter_refuses (s := s.admitted t e ob ir ou) no, rfl, rfl⟩

/-! ### The read-out -/

/-- CELL steps in its field; the rest of the path stays. -/
theorem nextCell_steps (p : BitVec 48) : (nextCell p).toNat / 2 ^ 24 = p.toNat / 2 ^ 24 ∧
    (nextCell p).toNat % 2 ^ 24 = (p.toNat % 2 ^ 24 + 1) % 2 ^ 24 := by
  have small := p.isLt
  rw [nextCell, BitVec.toNat_ofNat]
  constructor <;> omega

section
variable {s : State}

/-- A capture without data shows its status alone. -/
theorem eclCapture_status {st : Nat} (few : st < 4) : (BitVec.ofNat 40 (st * 2 ^ 38 + 0)).toNat = st * 2 ^ 38 := by
  rw [BitVec.toNat_ofNat]
  omega

theorem eclCapture_lit (lit : s.phase ≠ .eclipse) : (eclCapture s).toNat = 2 * 2 ^ 38 := by
  simp only [eclCapture, if_pos lit]
  exact eclCapture_status (st := 2) (by decide)
theorem eclCapture_noPath (dark : s.phase = .eclipse) (none_ : pathOk s.tap.path = false) :
    (eclCapture s).toNat = 2 ^ 38 := by
  simp only [eclCapture, dark, none_]
  exact (eclCapture_status (st := 1) (by decide)).trans (Nat.one_mul _)
theorem eclCapture_noPower (dark : s.phase = .eclipse) (path : pathOk s.tap.path = true)
    (off : cellOff s s.tap.path = true) : (eclCapture s).toNat = 3 * 2 ^ 38 := by
  simp only [eclCapture, dark, path, off]
  exact eclCapture_status (st := 3) (by decide)
theorem eclCapture_word (dark : s.phase = .eclipse) (path : pathOk s.tap.path = true)
    (on : cellOff s s.tap.path = false) : (eclCapture s).toNat = (cellWord (stalled s) s.tap.path).toNat := by
  have small := (cellWord (stalled s) s.tap.path).isLt
  simp only [eclCapture, dark, path, on]
  refine (BitVec.toNat_ofNat ..).trans ?_
  show (0 * 2 ^ 38 + (cellWord (stalled s) s.tap.path).toNat) % 2 ^ 40 = _
  omega
end

/-- A pin of the chain is captured at its level. -/
theorem scanCapture_mem {s : State} {p : ScanPin} (there : p ∈ scanPins) : (p, scanLevel s p) ∈ scanCapture s :=
  List.mem_map_of_mem (f := fun p => (p, scanLevel s p)) there

/-- Settles O43, instruction by instruction. -/
theorem tapInstructions : Obligations.Tap_instructions := by
  intro t s
  refine ⟨rfl, fun up => ?_⟩
  intro out
  have run : ∀ f, (Host.Outcome.next (whenTap f (s.advance t)) : Host.Outcome State Fault Refusal) =
      .next (f (s.advance t)) := fun f => congrArg Host.Outcome.next (if_neg up)
  have stall : stalled (s.advance t) = stalled s := rfl
  refine ⟨run _, fun code => run _, run _, run _, fun cells => ⟨fun lit => ?_, fun dark => ?_, ?_⟩, fun v => run _, run _, ?_⟩
  · exact (run _).trans (congrArg Host.Outcome.next (if_neg lit))
  · refine ⟨_, (run _).trans (congrArg Host.Outcome.next (if_pos dark)), rfl, rfl, ?_, ?_, rfl, rfl⟩
    · exact scanCapture_mem (s := s.advance t) (p := .role1) (by decide)
    · exact scanCapture_mem (s := s.advance t) (p := .deposeN) (by decide)
  · refine ⟨_, run _, rfl, rfl, rfl, ?_, ?_, ?_, ?_, ?_, rfl, rfl⟩
    · exact scanCapture_mem (s := s.advance t) (p := .role1) (by decide)
    · exact scanCapture_mem (s := s.advance t) (p := .role0) (by decide)
    · exact scanCapture_mem (s := s.advance t) (p := .deposeN) (by decide)
    · exact scanCapture_mem (s := s.advance t) (p := .eclipseN) (by decide)
    · exact scanCapture_mem (s := s.advance t) (p := .holdOut) (by decide)
  · obtain ⟨die, cell⟩ := nextCell_steps s.tap.path
    refine ⟨_, run _, rfl, rfl, die, cell, fun lit => ?_, fun dark none_ => ?_, fun dark path off => ?_, fun dark path on => ?_,
      rfl⟩
    · exact eclCapture_lit (s := s.advance t) lit
    · exact eclCapture_noPath (s := s.advance t) dark none_
    · exact eclCapture_noPower (s := s.advance t) dark path off
    · rw [← stall]
      exact eclCapture_word (s := s.advance t) dark path on

end Sys2Proof.Machine
end

section
/-! SUPPORT. The link: its states, what it sends, ZL_SET and the drive age (R235 to R257). Settles O35 and O37. -/
namespace Sys2Proof.Machine

section
variable {s : State}

/-! ### Link states -/

/-- A link that leaves UP, before its flag and its sections. -/
def State.retrained (s : State) : State :=
  { s with zl := { s.zl with link := .train, upCount := 0, alignRun := 0, downCnt := (s.zl.downCnt + 1) % 65536 } }

theorem linkToTrain_flags (up : s.zl.link = .up) : linkToTrain s = unsyncAll (flagZl 0 s.retrained) := by
  unfold linkToTrain
  rw [up]
  rfl

theorem unsyncAll_sec (n : SecId) : (unsyncAll s).sec n =
    if (s.sec n).core.service then { s.sec n with synced := false } else s.sec n := by
  have same : (Fin.ofNat 256 n.val : SecId) = n := Fin.ext (Nat.mod_eq_of_lt n.isLt)
  exact (tget_tabulate _ n).trans (by simp only [same])

theorem unsyncAll_core (n : SecId) : ((unsyncAll s).sec n).core = (s.sec n).core := by
  rw [unsyncAll_sec]
  split <;> rfl

theorem linkLoss_up {lanes : BitVec 4} (up : s.zl.link = .up) :
    linkLoss lanes s = linkToTrain { s with zl := { s.zl with laneLock := lanes } } := by
  simp [linkLoss, up]

/-- A link that is up, lost with these lanes still locked. -/
theorem linkLoss_retrains {lanes : BitVec 4} (up : s.zl.link = .up) : ∃ w, linkLoss lanes s = unsyncAll w ∧
    w.zl = { s.zl with
      link := .train, upCount := 0, alignRun := 0, downCnt := (s.zl.downCnt + 1) % 65536, laneLock := lanes,
      fault := s.zl.fault ||| bits 0 1 } ∧ w.sections = s.sections ∧ w.heads = s.heads := by
  have dev := flagZl_device (State.retrained { s with zl := { s.zl with laneLock := lanes } }) 0
  exact ⟨_, (linkLoss_up up).trans (linkToTrain_flags up), (zl_of_device dev :), (sections_of_device dev :),
    (heads_of_device dev :)⟩

theorem statusTimeout_retrains (up : s.zl.link = .up) (missed : 4 ≤ s.zl.statusMiss) : statusTimeout s = linkToTrain s :=
  if_pos ⟨up, missed⟩

theorem linkReceives_iff : linkReceives s = true ↔ s.zl.link = .wait ∨ s.zl.link = .up := by
  simp [linkReceives]

theorem messageDiscarded_counts (receives : s.zl.link = .wait ∨ s.zl.link = .up) :
    messageDiscarded s = { s with zl := { s.zl with crcErr := (s.zl.crcErr + 1) % 65536 } } :=
  if_pos (linkReceives_iff.mpr receives)

theorem alignedNow_aligns {p : PartnerStatus} (partner : s.zl.partner = some p) (no : s.zl.aligned = false)
    (role : s.zl.role ≠ 2) (up : s.zl.link = .up) (run : 16 ≤ s.zl.alignRun) :
    alignedNow s = { s with zl := { s.zl with aligned := true, offset := p.ahead } } := by
  have now : (!s.zl.aligned && s.zl.role != 2 && s.zl.link == .up && decide (16 ≤ s.zl.alignRun)) = true := by
    simp only [no, up, bne_iff_ne.mpr role, run, decide_true]
    rfl
  unfold alignedNow
  rw [partner]
  exact if_pos now

/-! ### Sending -/

theorem statusSend_sends (receives : s.zl.link = .wait ∨ s.zl.link = .up) (first : s.zl.sent = false)
    (due : s.epc.start + 1000000 ≤ s.now) (follows : s.zl.setRole ≠ 2) :
    statusSend s = sendLink (linkBytes 1 0 true s.aon.gen s.epc.seq
      (statusPayload { s with zl := { s.zl with sent := true } })) { s with zl := { s.zl with sent := true } } := by
  have due' : s.epc.start + us 1 ≤ s.now := due
  have now : (linkReceives s && !s.zl.sent && decide (s.epc.start + us 1 ≤ s.now)) = true := by
    rw [linkReceives_iff.mpr receives, first, decide_eq_true due']
    rfl
  unfold statusSend
  rw [if_pos now, if_neg follows]
  exact if_neg follows

theorem statusSend_once (sent : s.zl.sent = true) : statusSend s = s :=
  if_neg (by rw [sent, Bool.not_true, Bool.and_false, Bool.false_and]; decide)

theorem doorbellSend_sends {n : Nat} {rest : List Nat} (receives : s.zl.link = .wait ∨ s.zl.link = .up)
    (waiting : s.zl.doorbells = n :: rest) : doorbellSend s =
      sendLink (linkBytes 6 0 true s.aon.gen s.epc.seq (le 2 n)) { s with zl := { s.zl with doorbells := rest } } := by
  unfold doorbellSend
  rw [waiting]
  exact if_pos (linkReceives_iff.mpr receives)

theorem pdbWrite_queues {v : Word} (software : 288 ≤ fld v 0 9) :
    pdbWrite v s = { s with zl := { s.zl with doorbells := s.zl.doorbells ++ [fld v 0 9] } } :=
  if_pos ⟨software, Nat.le_of_lt_succ (fld_lt v 0 9)⟩
end

/-- Settles O35. -/
theorem linkStatesAndSending : Obligations.Link_states_and_sending := by
  intro t s running
  have up : awake s = true := awake_of_running running
  have run : ∀ f, (Host.Outcome.next (whenRunning f (s.advance t)) : Host.Outcome State Fault Refusal) =
      .next (f (s.advance t)) := fun f => congrArg Host.Outcome.next (whenRunning_advance running)
  have live : ∀ f, (Host.Outcome.next (whenAwake f (s.advance t)) : Host.Outcome State Fault Refusal) =
      .next (f (s.advance t)) := fun f => congrArg Host.Outcome.next (whenAwake_advance up)
  refine ⟨fun trains => ?_, fun lanes isUp => ?_, fun isUp missed => ?_, fun receives => ?_,
    fun p partner no role isUp aligns => ?_, fun receives first due follows => ?_, fun sent => ?_,
    fun n rest receives waiting => ?_, fun v host software => ?_⟩
  · exact (live _).trans (congrArg Host.Outcome.next (if_pos trains))
  · obtain ⟨w, e, zl, sections, heads⟩ := linkLoss_retrains (s := s.advance t) (lanes := lanes) isUp
    have sec : ∀ n, w.sec n = s.sec n := fun n => congrArg (fun v => tget v n) sections
    refine ⟨unsyncAll w, (live _).trans (congrArg Host.Outcome.next e), congrArg Zl.link zl, congrArg Zl.laneLock zl,
      congrArg Zl.downCnt zl, ?_, fun n served => ?_, fun n => ?_, heads⟩
    · exact (congrArg (fun z : Zl => bit z.fault 0) zl).trans (bit_flagged _ _ (by decide))
    · rw [unsyncAll_sec, sec, if_pos served]
    · rw [unsyncAll_core, sec]
  · obtain ⟨trains, flagged⟩ := linkToTrain_up (s := s.advance t) isUp
    exact ⟨_, (run _).trans (congrArg Host.Outcome.next (statusTimeout_retrains isUp missed)), trains, flagged,
      linkToTrain_heads⟩
  · exact (run _).trans (congrArg Host.Outcome.next (messageDiscarded_counts receives))
  · exact (run _).trans (congrArg Host.Outcome.next (alignedNow_aligns partner no role isUp aligns))
  · exact (run _).trans (congrArg Host.Outcome.next (statusSend_sends receives first due follows))
  · exact (run _).trans (congrArg Host.Outcome.next (statusSend_once sent))
  · exact (run _).trans (congrArg Host.Outcome.next (doorbellSend_sends (s := s.advance t) receives waiting))
  · exact congrArg Host.Outcome.next ((whenHost_advance host).trans (pdbWrite_queues software))

section
variable {s : State}

/-! ### ZL_SET and ZL_STATUS -/

/-- ZL_CFG as ZL_SET stores it. -/
def State.linkSet (paired unit : Bool) (age : Nat) (s : State) : State :=
  { s with zl := { s.zl with cfg := put 16 8 age ||| put 8 1 (b2n unit) ||| put 0 1 (b2n paired) } }

theorem linkSet_paired (unit : Bool) (age : Nat) : bit (s.linkSet true unit age).zl.cfg 0 = true := by
  change bit (put 16 8 age ||| put 8 1 (b2n unit) ||| put 0 1 (b2n true)) 0 = true
  rw [bit_or, show bit (put 0 1 (b2n true)) 0 = true from by decide, Bool.or_true]

/-- Everything but the link's own state, which may start or stop. -/
theorem linkToDown_device : ∃ f, (linkToDown s).device = ({ s with zl := { s.zl with
    link := .down, upCount := 0, laneLock := 0, alignRun := 0, fault := f } } : State).device := by
  unfold linkToDown
  extract_lets was z u
  split
  · exact ⟨_, flagZl_device u 0⟩
  · exact ⟨s.zl.fault, rfl⟩
theorem linkToDown_hp : (linkToDown s).hp = s.hp := by
  unfold linkToDown
  extract_lets was z u
  split
  · exact flagZl_hp ..
  · rfl

theorem zlStore_unpaired (unit : Bool) (age : Nat) : ∃ u, zlStore false unit age s = linkToDown u ∧
    u = s.linkSet false unit age := ⟨_, rfl, rfl⟩

/-- ZL_SET, stored: the configuration word, and the link as PAIRED asks. -/
theorem zlStore_stores (paired unit : Bool) (age : Nat) : ∃ z : Zl,
    (zlStore paired unit age s).device = ({ s with zl := z } : State).device ∧ (zlStore paired unit age s).hp = s.hp ∧
    z.cfg = put 16 8 age ||| put 8 1 (b2n unit) ||| put 0 1 (b2n paired) ∧ (paired = false → z.link = .down) ∧
    (paired = true → s.zl.link = .down → s.pwr.linkUp = true → z.link = .train) := by
  cases paired
  · obtain ⟨f, dev⟩ := linkToDown_device (s := s.linkSet false unit age)
    exact ⟨_, dev, linkToDown_hp, rfl, fun _ => rfl, nofun⟩
  · change ∃ z : Zl, (linkStart (s.linkSet true unit age)).device = _ ∧ (linkStart (s.linkSet true unit age)).hp = _ ∧ _
    unfold linkStart
    split
    · exact ⟨_, rfl, rfl, rfl, nofun, fun _ _ _ => rfl⟩
    next stays =>
      exact ⟨_, rfl, rfl, rfl, nofun, fun _ down powered => absurd ⟨down, linkSet_paired unit age, powered⟩ stays⟩

theorem zlSet_refuses {p : List Byte} {seq : Nat}
    (busy : zlSetRefused ((field p 0 1).testBit 0) ((field p 0 1).testBit 1) s = true) :
    zlSet p seq s = complete seq .conflict 0 [] s := if_pos busy

theorem zlSet_stores {p : List Byte} {seq : Nat}
    (free : zlSetRefused ((field p 0 1).testBit 0) ((field p 0 1).testBit 1) s = false) :
    zlSet p seq s = complete seq .ok 0 []
      (zlStore ((field p 0 1).testBit 0) ((field p 0 1).testBit 1) (field p 1 1) s) := if_neg (by rw [free]; decide)

/-! ### Drive age -/

theorem whenAwake_of_same {f : State → State} (same : f s = s) : whenAwake f s = s := ite_eq_right_iff.mpr fun _ => same

theorem driveIntervalDone_iff {t0 : Nat} (from_ : s.zl.driveFrom = some t0) : driveIntervalDone s = true ↔
    drivesAll s = true ∧ t0 + 10000000000000 ≤ s.now ∧
      ∀ h : HeadId, inRun s h = true → (s.head h).xs.spoilAt + 10000000000000 ≤ s.now := by
  simp only [driveIntervalDone, from_, Bool.and_eq_true, decide_eq_true_eq, List.all_eq_true, Bool.or_eq_true,
    Bool.not_eq_true', show ms 10000 = 10000000000000 from rfl, and_assoc]
  refine and_congr_right fun _ => and_congr_right fun _ => forall_congr' fun h => ?_
  simp only [allFin, List.mem_finRange, true_imp_iff]
  cases inRun s h <;> simp

theorem driveComplete_restarts (done_ : driveIntervalDone s = true) : driveComplete s = { s with
    aon := { s.aon with driveAge := 0, hourAt := s.now }, zl := { s.zl with driveFrom := some s.now } } := if_pos done_

theorem driveComplete_waits {t0 : Nat} (from_ : s.zl.driveFrom = some t0)
    (not_ : ¬ (t0 + 10000000000000 ≤ s.now ∧
      ∀ h : HeadId, inRun s h = true → (s.head h).xs.spoilAt + 10000000000000 ≤ s.now)) : driveComplete s = s :=
  if_neg fun d => not_ ((driveIntervalDone_iff from_).mp d).2

theorem driveComplete_idle (idle : drivesAll s = false ∨ s.zl.driveFrom = none) : driveComplete s = s := by
  refine if_neg ?_
  rcases idle with no | no <;> simp [driveIntervalDone, no]

theorem driveHour_early (early : s.now < s.aon.hourAt + 3600000000000000) : driveHour s = s := if_pos early

/-- A whole hour counts; AGE is set as the count reaches AGE_WARN. -/
theorem driveHour_counts (due : s.aon.hourAt + 3600000000000000 ≤ s.now) :
    (driveHour s).aon = { s.aon with driveAge := min (s.aon.driveAge + 1) 65535, hourAt := s.aon.hourAt + 3600000000000000 } ∧
    (driveHour s).heads = s.heads ∧ (driveHour s).sections = s.sections ∧
    (awake s = true → s.aon.driveAge < max 1 (fld s.zl.cfg 16 8) →
      max 1 (fld s.zl.cfg 16 8) ≤ min (s.aon.driveAge + 1) 65535 → bit (driveHour s).zl.fault 8 = true) := by
  have later : ¬ s.now < s.aon.hourAt + hour := Nat.not_lt.mpr due
  unfold driveHour
  rw [if_neg later]
  extract_lets old a u
  have flagged : ∀ w : State, awake w = true → (whenAwake (flagZl 8) w) = flagZl 8 w := fun w a => if_pos a
  split
  next reach =>
    cases a : awake s
    · have asleep : whenAwake (flagZl 8) u = u := if_neg (by change ¬ awake s = true; rw [a]; decide)
      rw [asleep]
      exact ⟨rfl, rfl, rfl, nofun⟩
    · have dev := flagZl_device u 8
      rw [flagged u a]
      exact ⟨(aon_of_device dev :), (heads_of_device dev :), (sections_of_device dev :), fun _ _ _ =>
        (congrArg (fun z : Zl => bit z.fault 8) (zl_of_device dev)).trans (bit_flagged _ _ (by decide))⟩
  next short => exact ⟨rfl, rfl, rfl, fun _ below reaches => absurd ⟨below, reaches⟩ short⟩
end

/-- Settles O37. -/
theorem linkCommandsAndDriveAge : Obligations.Link_commands_and_drive_age := by
  intro t s
  refine ⟨fun c A => ⟨fun free => ?_, fun busy => ?_⟩, fun c A => ?_, fun t0 up all from_ passed => ?_,
    fun t0 from_ early => ?_, fun idle => ?_, fun early => ?_, fun due => ?_⟩
  · obtain ⟨e, ob, ir, ou, ad, run⟩ := command_runs 0x0280 (fun seq => zlSet c.payload seq) A
    obtain ⟨z, dev, hp, cfg, down, train⟩ := zlStore_stores (s := s.admitted t e ob ir ou) ((field c.payload 0 1).testBit 0)
      ((field c.payload 0 1).testBit 1) (field c.payload 1 1)
    have stored := zlSet_stores (s := s.admitted t e ob ir ou) (seq := s.hp.admSeq) free
    have zl := (zl_of_device dev :)
    refine ⟨_, congrArg Host.Outcome.next (run.trans stored), ad.congr hp, (congrArg Zl.cfg zl).trans cfg,
      fun no => (congrArg Zl.link zl).trans (down no), fun yes isDown powered => (congrArg Zl.link zl).trans (train yes isDown powered),
      (heads_of_device dev :), (sections_of_device dev :)⟩
  · exact answers_of A rfl fun e ob ir ou => ⟨_, zlSet_refuses (s := s.admitted t e ob ir ou) busy, rfl, rfl⟩
  · obtain ⟨e, ob, ir, ou, ad, run⟩ := command_runs 0x0281 zlStatus A
    exact ⟨_, congrArg Host.Outcome.next run, ad.congr rfl, rfl⟩
  · have live : ∀ f, (Host.Outcome.next (whenAwake f (s.advance t)) : Host.Outcome State Fault Refusal) =
        .next (f (s.advance t)) := fun f => congrArg Host.Outcome.next (whenAwake_advance up)
    refine ⟨fun well => ?_, fun h run spoilt => ?_⟩
    · exact (live _).trans (congrArg Host.Outcome.next (driveComplete_restarts (s := s.advance t)
        ((driveIntervalDone_iff (s := s.advance t) from_).mpr ⟨all, passed, well⟩)))
    · exact (live _).trans (congrArg Host.Outcome.next (driveComplete_waits (s := s.advance t) from_ fun ⟨_, well⟩ =>
        absurd (well h run) (Nat.not_le.mpr spoilt)))
  · exact congrArg Host.Outcome.next ((whenAwake_of_same (driveComplete_waits (s := s.advance t) from_ fun ⟨passed, _⟩ =>
      absurd passed (Nat.not_le.mpr early))))
  · exact congrArg Host.Outcome.next ((whenAwake_of_same (driveComplete_idle (s := s.advance t) idle)))
  · exact congrArg Host.Outcome.next (driveHour_early (s := s.advance t) early)
  · obtain ⟨aon, heads, sections, flag⟩ := driveHour_counts (s := s.advance t) due
    exact ⟨_, rfl, congrArg Aon.driveAge aon, congrArg Aon.hourAt aon, heads, sections, flag⟩

end Sys2Proof.Machine
end

section
/-! SUPPORT. What the device receives from its partner (R234, R237 to R243). Settles O36. -/
namespace Sys2Proof.Machine

section
variable {s : State} {m : LinkMsg}

/-! ### The generation test -/

theorem judge_current {status : Bool} (same : m.gen = s.aon.gen) : judge m status s = (true, s) := by
  have zero : genDiff s m.gen = 0 := by
    rw [genDiff, same]
    exact congrArg BitVec.toNat (BitVec.sub_self _)
  exact if_pos zero

theorem judge_older {status : Bool} (older : 32768 ≤ (m.gen - s.aon.gen).toNat) : judge m status s =
    (false, flagZl 1 { s with zl := { s.zl with stale := satNat 32 (s.zl.stale + 1) } }) := by
  have far : ¬ genDiff s m.gen = 0 := fun z => absurd (Nat.le_trans older (Nat.le_of_eq z)) (by decide)
  have not_ : ¬ genDiff s m.gen ≤ 32767 := fun l => absurd (Nat.le_trans older l) (by decide)
  unfold judge
  extract_lets d
  rw [if_neg far, if_neg not_]

theorem receive_used {lo hi : Nat} {status : Bool} {f : State → State} (fits : lo ≤ m.payload.length)
    (fits' : m.payload.length ≤ hi) (receives : s.zl.link = .wait ∨ s.zl.link = .up) (same : m.gen = s.aon.gen) :
    receive lo hi m status f s = f s := by
  unfold receive
  rw [if_neg (by omega), if_pos (linkReceives_iff.mpr receives), judge_current same]
  rfl

theorem receive_discards {lo hi : Nat} {status : Bool} {f : State → State}
    (receives : s.zl.link = .wait ∨ s.zl.link = .up) (bad : m.payload.length < lo ∨ hi < m.payload.length) :
    receive lo hi m status f s = { s with zl := { s.zl with crcErr := (s.zl.crcErr + 1) % 65536 } } :=
  (if_pos bad).trans (messageDiscarded_counts receives)

theorem receive_stale {lo hi : Nat} {status : Bool} {f : State → State} (fits : lo ≤ m.payload.length)
    (fits' : m.payload.length ≤ hi) (receives : s.zl.link = .wait ∨ s.zl.link = .up)
    (older : 32768 ≤ (m.gen - s.aon.gen).toNat) : receive lo hi m status f s =
      flagZl 1 { s with zl := { s.zl with stale := satNat 32 (s.zl.stale + 1) } } := by
  unfold receive
  rw [if_neg (by omega), if_pos (linkReceives_iff.mpr receives), judge_older older]
  rfl

/-! ### STATUS -/

/-- The measurement, the partner and the set of a used STATUS leave the link as it is. -/
theorem measureSkew_link (p : PartnerStatus) (consecutive : Bool) : ∃ z, (measureSkew p consecutive s).device =
    ({ s with zl := z } : State).device ∧ z.link = s.zl.link ∧ z.statusMiss = s.zl.statusMiss ∧ z.partner = s.zl.partner := by
  unfold measureSkew
  split
  · exact ⟨_, rfl, rfl, rfl, rfl⟩
  · split
    · extract_lets k run z u
      split
      · exact ⟨_, flagZl_device .., rfl, rfl, rfl⟩
      · exact ⟨_, rfl, rfl, rfl, rfl⟩
    · exact ⟨_, rfl, rfl, rfl, rfl⟩

theorem useStatus_keeps (first consecutive : Bool) : ∃ z, (useStatus m first consecutive s).device =
    ({ s with zl := z } : State).device ∧ z.link = s.zl.link ∧ z.statusMiss = s.zl.statusMiss ∧
      z.partner = some (statusOf m s) := by
  obtain ⟨v, used⟩ : ∃ v, v = ({ s with zl := { s.zl with
    partner := some (statusOf m s), meas := some (((s.now - s.epc.start) / 1000 : Nat) : Int) } } : State) := ⟨_, rfl⟩
  have measured : ∃ z, (if first then measureSkew (statusOf m s) consecutive v else v).device =
      ({ s with zl := z } : State).device ∧ z.link = s.zl.link ∧ z.statusMiss = s.zl.statusMiss ∧
        z.partner = some (statusOf m s) := by
    subst used
    split
    · exact measureSkew_link (s := { s with zl := { s.zl with
        partner := some (statusOf m s), meas := some (((s.now - s.epc.start) / 1000 : Nat) : Int) } }) ..
    · exact ⟨_, rfl, rfl, rfl, rfl⟩
  obtain ⟨z, dev, link, miss, partner⟩ := measured
  have eq : useStatus m first consecutive s =
      if inSet m (if first then measureSkew (statusOf m s) consecutive v else v) then
        putRx (fun r => { r with status := true }) (if first then measureSkew (statusOf m s) consecutive v else v)
      else if first then measureSkew (statusOf m s) consecutive v else v := by
    subst used
    rfl
  rw [eq]
  generalize (if first then measureSkew (statusOf m s) consecutive v else v) = w at dev
  split
  · refine ⟨{ z with rx := (putRx (fun r => { r with status := true }) w).zl.rx }, ?_, link, miss, partner⟩
    have zl : w.zl = z := zl_of_device dev
    have put : putRx (fun r => { r with status := true }) w = { w with zl := { w.zl with
      rx := (putRx (fun r => { r with status := true }) w).zl.rx } } := rfl
    generalize (putRx (fun r => { r with status := true }) w).zl.rx = rx at put
    rw [put, zl]
    exact (congrArg (fun x : State => ({ x with zl := { z with rx := rx } } : State)) dev :)
  · exact ⟨z, dev, link, miss, partner⟩

theorem countStatus_second (waits : s.zl.link = .wait) (one : 1 ≤ s.zl.upCount) :
    countStatus s = { s with zl := { s.zl with upCount := s.zl.upCount + 1, link := .up } } :=
  (if_pos waits).trans (congrArg (fun l => ({ s with zl := { s.zl with upCount := s.zl.upCount + 1, link := l } } : State))
    (if_pos (Nat.succ_le_succ one)))

/-- The second STATUS of the generation in force brings the link up. -/
theorem statusMessage_second (fits : m.payload.length = 32) (waits : s.zl.link = .wait) (one : 1 ≤ s.zl.upCount)
    (same : m.gen = s.aon.gen) : ∃ first consecutive, statusMessage m s = useStatus m first consecutive
      { s with zl := { s.zl with statusMiss := 0, upCount := s.zl.upCount + 1, link := .up } } := by
  have receives : linkReceives s = true := linkReceives_iff.mpr (.inl waits)
  have zero : genDiff s m.gen ≤ 32767 := by
    rw [genDiff, same, BitVec.sub_self]
    decide
  have counted : countStatus { s with zl := { s.zl with statusMiss := 0 } } =
      { s with zl := { s.zl with statusMiss := 0, upCount := s.zl.upCount + 1, link := .up } } :=
    countStatus_second (s := { s with zl := { s.zl with statusMiss := 0 } }) waits one
  refine ⟨decide (1 ≤ s.zl.statusMiss), decide (s.zl.statusMiss ≤ 1), ?_⟩
  unfold statusMessage
  rw [if_neg (by rw [receives]; decide), if_neg (not_not_intro fits), if_pos zero, counted]
  exact receive_used (Nat.le_of_eq fits.symm) (Nat.le_of_eq fits) (.inr rfl) same

/-! ### Parts of the set -/

theorem ephMessage_kept (fits : m.payload.length = 1024) (receives : s.zl.link = .wait ∨ s.zl.link = .up)
    (same : m.gen = s.aon.gen) (set_ : inSet m s = true) : ephMessage m s = putRx (fun r => { r with
      eph := putPart r.eph m.part m.payload }) s :=
  (receive_used (Nat.le_of_eq fits.symm) (Nat.le_of_eq fits) receives same).trans (if_pos set_)

theorem coverMessage_kept (fits : m.payload.length = 2048) (receives : s.zl.link = .wait ∨ s.zl.link = .up)
    (same : m.gen = s.aon.gen) (set_ : inSet m s = true) : coverMessage m s = putRx (fun r => { r with
      cover := some m.payload }) s :=
  (receive_used (Nat.le_of_eq fits.symm) (Nat.le_of_eq fits) receives same).trans (if_pos set_)

theorem ldeltaMessage_kept (fits : m.payload.length ≤ 1024) (receives : s.zl.link = .wait ∨ s.zl.link = .up)
    (same : m.gen = s.aon.gen) (set_ : inSet m s = true) : ldeltaMessage m s = putRx (fun r => { r with
      ldelta := putPart r.ldelta m.part m.payload
      ldLast := if m.last then some m.part else r.ldLast }) s :=
  (receive_used (Nat.zero_le _) fits receives same).trans (if_pos set_)

/-! ### LFULL -/


theorem lfullMessage_applies {n : SecId} (lo : 16 ≤ m.payload.length) (hi : m.payload.length ≤ 20496)
    (receives : s.zl.link = .wait ∨ s.zl.link = .up) (same : m.gen = s.aon.gen) (follows : s.zl.role ≠ 2)
    (named : field m.payload 0 2 = n.val) : lfullMessage m s = applyFull m n s := by
  refine (receive_used lo hi receives same).trans ?_
  have less : field m.payload 0 2 < 256 := named ▸ n.isLt
  rw [dif_pos less, if_pos follows]
  exact congrArg (fun k => applyFull m k s) (Fin.ext named)

/-! ### DOORBELL -/

theorem doorbellMessage_raises (fits : m.payload.length = 2) (receives : s.zl.link = .wait ∨ s.zl.link = .up)
    (same : m.gen = s.aon.gen) (software : 288 ≤ field m.payload 0 2 ∧ field m.payload 0 2 ≤ 511) :
    doorbellMessage m s = raise (field m.payload 0 2) s :=
  (receive_used (Nat.le_of_eq fits.symm) (Nat.le_of_eq fits) receives same).trans (if_pos software)
end

/-- Settles O36. -/
theorem linkReceiving : Obligations.Link_receiving := by
  intro t s m running receives
  have run : ∀ f, (Host.Outcome.next (whenRunning f (s.advance t)) : Host.Outcome State Fault Refusal) =
      .next (f (s.advance t)) := fun f => congrArg Host.Outcome.next (whenRunning_advance running)
  have rx : (s.advance t).zl.link = .wait ∨ (s.advance t).zl.link = .up := receives
  refine ⟨fun same => ⟨fun fits waits one => ?_, fun set_ => ⟨fun fits => ?_, fun fits => ?_, fun fits => ?_⟩,
    fun n lo hi follows named => ?_, fun fits lo hi => ?_⟩, ⟨fun bad => ?_, fun bad => ?_, fun bad => ?_, fun bad => ?_,
      fun bad => ?_, fun bad => ?_⟩, fun older fits => ?_⟩
  · obtain ⟨first, consecutive, e⟩ := statusMessage_second (s := s.advance t) fits waits one same
    obtain ⟨z, dev, link, miss, partner⟩ := useStatus_keeps (s := { s.advance t with zl := { s.zl with
      statusMiss := 0, upCount := s.zl.upCount + 1, link := .up } }) (m := m) first consecutive
    have zl := (zl_of_device dev :)
    exact ⟨_, (run _).trans (congrArg Host.Outcome.next e), (congrArg Zl.link zl).trans link,
      (congrArg Zl.statusMiss zl).trans miss, (congrArg Zl.partner zl).trans partner, (heads_of_device dev :),
      (sections_of_device dev :)⟩
  · exact (run _).trans (congrArg Host.Outcome.next (ephMessage_kept fits rx same set_))
  · exact (run _).trans (congrArg Host.Outcome.next (coverMessage_kept fits rx same set_))
  · exact (run _).trans (congrArg Host.Outcome.next (ldeltaMessage_kept fits rx same set_))
  · refine ⟨_, (run _).trans (congrArg Host.Outcome.next (lfullMessage_applies lo hi rx same follows named)), ?_⟩
    obtain ⟨f, e⟩ : ∃ f, applyFull m n (s.advance t) = { (s.advance t).modSec n f with zl := { s.zl with
        lfull := (s.zl.lfull + 1) % 65536 } } ∧ ∀ x, (f x).core = { x.core with
          ledger := (List.range (field m.payload 4 2)).map (entryAt m.payload), gen := field m.payload 8 4 } :=
      ⟨_, rfl, fun _ => rfl⟩
    obtain ⟨e, core⟩ := e
    rw [e]
    have own : (({ (s.advance t).modSec n f with zl := { s.zl with lfull := (s.zl.lfull + 1) % 65536 } } : State).sec n) =
      f (s.sec n) := modSec_sec_same ..
    rw [own, core]
    exact ⟨rfl, rfl, rfl, rfl, rfl, fun k other => modSec_sec_other _ _ _ _ other, rfl⟩
  · exact ⟨_, (run _).trans (congrArg Host.Outcome.next (doorbellMessage_raises fits rx same ⟨lo, hi⟩)), rfl, rfl⟩
  · refine (run _).trans (congrArg Host.Outcome.next ?_)
    unfold statusMessage
    rw [if_neg (by rw [linkReceives_iff.mpr rx]; decide), if_pos bad]
    exact messageDiscarded_counts rx
  · exact (run _).trans (congrArg Host.Outcome.next (receive_discards rx (Nat.lt_or_gt_of_ne bad)))
  · exact (run _).trans (congrArg Host.Outcome.next (receive_discards rx (Nat.lt_or_gt_of_ne bad)))
  · exact (run _).trans (congrArg Host.Outcome.next (receive_discards rx (.inr bad)))
  · exact (run _).trans (congrArg Host.Outcome.next (receive_discards rx bad))
  · exact (run _).trans (congrArg Host.Outcome.next (receive_discards rx (Nat.lt_or_gt_of_ne bad)))
  · refine ⟨_, (run _).trans (congrArg Host.Outcome.next (receive_stale (Nat.le_of_eq fits.symm) (Nat.le_of_eq fits) rx
      older)), ?_⟩
    have dev := flagZl_device ({ s.advance t with zl := { s.zl with stale := satNat 32 (s.zl.stale + 1) } } : State) 1
    have zl := (zl_of_device dev :)
    exact ⟨(congrArg Zl.stale zl :), (congrArg (fun z : Zl => bit z.fault 1) zl).trans (bit_flagged _ _ (by decide)),
      (congrArg Zl.rx zl :), (aon_of_device dev :), (heads_of_device dev :), (sections_of_device dev :)⟩

end Sys2Proof.Machine
end

section
/-! SUPPORT. What happens at heads and sections leaves the timetable of the device: the grid, the role, its claim and the
frame stay, no command comes in progress, and what goes to the host only grows. -/
namespace Sys2Proof.Machine

/-- Of the device: the run phase, the grid with its quiet window and the snapshots that wait, the role with the pins and the
claim, the flags of the claim and of DEPOSE_N, and the frames. -/
structure Timetable where
  phase : Phase
  seq : Nat
  start : Nat
  tick : Nat
  quiet : Bool
  snaps : List Snap
  role : BitVec 2
  pins : BitVec 2
  roleIn : BitVec 2
  deposed : Bool
  claim : Claim
  claimAt : Nat
  wantSince : Option Nat
  wonAt : Option Nat
  holdOut : Bool
  faults : Word
  frame : Option Frame
  old : Option Frame

def timetable (s : State) : Timetable :=
  { phase := s.phase, seq := s.epc.seq, start := s.epc.start, tick := s.epc.tick, quiet := s.epc.quiet, snaps := s.epc.snaps
    role := s.zl.role, pins := s.zl.pins, roleIn := s.zl.roleIn, deposed := s.zl.deposed, claim := s.zl.claim
    claimAt := s.zl.claimAt, wantSince := s.zl.wantSince, wonAt := s.zl.wonAt, holdOut := s.zl.holdOut
    faults := s.zl.fault &&& 0x1808
    frame := s.vsp.frame, old := s.vsp.old }

/-- A state comes after another within one event. -/
structure Later (a s : State) : Prop where
  table : timetable s = timetable a
  idle : a.hp.inflight = [] → s.hp.inflight = []
  out : a.out <:+ s.out

theorem Later.refl (s : State) : Later s s := ⟨rfl, id, List.suffix_refl _⟩

theorem Later.trans {a b c : State} (x : Later a b) (y : Later b c) : Later a c :=
  ⟨y.table.trans x.table, fun e => y.idle (x.idle e), x.out.trans y.out⟩

/-- A state with the same table, port and writes as one that comes later comes later too. -/
theorem later_iff {a s u : State} (table : timetable u = timetable s) (hp : u.hp = s.hp)
    (out : u.out = s.out) : Later a u ↔ Later a s := by
  constructor
  · exact fun l => ⟨table.symm.trans l.table, fun e => by rw [← hp]; exact l.idle e, by rw [← out]; exact l.out⟩
  · exact fun l => ⟨table.trans l.table, fun e => by rw [hp]; exact l.idle e, by rw [out]; exact l.out⟩

theorem later_same {a s u : State} (l : Later a s) (table : timetable u = timetable s) (hp : u.hp = s.hp)
    (out : u.out = s.out) : Later a u := (later_iff table hp out).mpr l

theorem timetable_of_device {u s : State} (e : u.device = s.device) : timetable u = timetable s :=
  (congrArg timetable e :)

@[simp] theorem later_ite {a u v : State} {p : Prop} [Decidable p] :
    Later a (if p then u else v) ↔ if p then Later a u else Later a v := by split <;> rfl

/-! ### What changes no table, port or write -/

section
variable {a : State} (s : State)
theorem later_foldOver {α : Type} {f : α → State → State} (each : ∀ x u, Later a (f x u) ↔ Later a u) (xs : List α) :
    Later a (foldOver xs f s) ↔ Later a s := by
  induction xs generalizing s with
  | nil => rfl
  | cons x xs ih => exact (ih (f x s)).trans (each x s)
theorem later_onBoth {f : Sys → State → State} (each : ∀ x u, Later a (f x u) ↔ Later a u) :
    Later a (onBoth f s) ↔ Later a s := (each _ _).trans (each _ _)
@[simp] theorem later_modHead (h : HeadId) (f : Head → Head) : Later a (s.modHead h f) ↔ Later a s := later_iff rfl rfl rfl
@[simp] theorem later_modFe (h : HeadId) (f : FeHead → FeHead) : Later a (s.modFe h f) ↔ Later a s := later_iff rfl rfl rfl
@[simp] theorem later_modXs (h : HeadId) (f : XsHead → XsHead) : Later a (s.modXs h f) ↔ Later a s := later_iff rfl rfl rfl
@[simp] theorem later_modFlt (h : HeadId) (f : FltHead → FltHead) : Later a (s.modFlt h f) ↔ Later a s := later_iff rfl rfl rfl
@[simp] theorem later_modCmp (h : HeadId) (f : CmpHead → CmpHead) : Later a (s.modCmp h f) ↔ Later a s := later_iff rfl rfl rfl
@[simp] theorem later_modTrn (h : HeadId) (f : TrnHead → TrnHead) : Later a (s.modTrn h f) ↔ Later a s := later_iff rfl rfl rfl
@[simp] theorem later_modXsSlice (h : HeadId) (x : Sys) (f : XsSlice → XsSlice) :
    Later a (s.modXsSlice h x f) ↔ Later a s := later_iff rfl rfl rfl
@[simp] theorem later_modFltSlice (h : HeadId) (x : Sys) (f : FltSlice → FltSlice) :
    Later a (s.modFltSlice h x f) ↔ Later a s := later_iff rfl rfl rfl
@[simp] theorem later_modCmpSlice (h : HeadId) (x : Sys) (f : CmpSlice → CmpSlice) :
    Later a (s.modCmpSlice h x f) ↔ Later a s := later_iff rfl rfl rfl
@[simp] theorem later_modTrnSlice (h : HeadId) (x : Sys) (f : TrnSlice → TrnSlice) :
    Later a (s.modTrnSlice h x f) ↔ Later a s := later_iff rfl rfl rfl
@[simp] theorem later_modDie (d : DieId) (f : Die → Die) : Later a (s.modDie d f) ↔ Later a s := later_iff rfl rfl rfl
@[simp] theorem later_modSec (n : SecId) (f : Section → Section) : Later a (s.modSec n f) ↔ Later a s := later_iff rfl rfl rfl
@[simp] theorem later_modRec (f : Rec → Rec) : Later a (s.modRec f) ↔ Later a s := later_iff rfl rfl rfl
@[simp] theorem later_modOrbit (k : Fin 16) (f : Orbit → Orbit) : Later a (s.modOrbit k f) ↔ Later a s := later_iff rfl rfl rfl
@[simp] theorem later_dev (v : Dev) : Later a { s with dev := v } ↔ Later a s := later_iff rfl rfl rfl
@[simp] theorem later_tb (v : Tb) : Later a { s with tb := v } ↔ Later a s := later_iff rfl rfl rfl
@[simp] theorem later_raise (n : Nat) : Later a (raise n s) ↔ Later a s := later_iff rfl rfl rfl
@[simp] theorem later_trig (cls source : Nat) (detail : Word) : Later a (trig cls source detail s) ↔ Later a s :=
  later_iff (timetable_of_device (trig_device ..)) (trig_hp ..) (trig_out ..)
@[simp] theorem later_announce (src cls : Nat) (old new : Word) : Later a (announce src cls old new s) ↔ Later a s :=
  later_iff (timetable_of_device (announce_device ..)) (announce_hp ..) (announce_out ..)
@[simp] theorem later_flagHead (r : HeadReg) (h : HeadId) (w : Word) : Later a (flagHead r h w s) ↔ Later a s :=
  later_iff ((congrArg timetable (flagHead_device s r h w) :)) (flagHead_hp ..) (flagHead_out ..)
@[simp] theorem later_flagFe (h : HeadId) (n : Nat) : Later a (flagFe h n s) ↔ Later a s := later_flagHead ..
@[simp] theorem later_flagXs (h : HeadId) (n : Nat) : Later a (flagXs h n s) ↔ Later a s := later_flagHead ..
@[simp] theorem later_flagFlt (h : HeadId) (n : Nat) : Later a (flagFlt h n s) ↔ Later a s := later_flagHead ..
@[simp] theorem later_flagCmp (h : HeadId) (n : Nat) : Later a (flagCmp h n s) ↔ Later a s := later_flagHead ..
@[simp] theorem later_flagTrn (h : HeadId) (n : Nat) : Later a (flagTrn h n s) ↔ Later a s := later_flagHead ..
theorem later_flagZl {n : Nat} (apart : bits n 1 &&& 0x1808 = 0) : Later a (flagZl n s) ↔ Later a s := by
  refine (later_announce { s with zl := { s.zl with fault := s.zl.fault ||| bits n 1 } } ..).trans (later_iff ?_ rfl rfl)
  have same : (s.zl.fault ||| bits n 1) &&& 0x1808 = s.zl.fault &&& 0x1808 := by
    rw [BitVec.and_or_distrib_right, apart]
    exact BitVec.or_zero
  exact congrArg (fun w : Word => ({ timetable s with faults := w } : Timetable)) same
@[simp] theorem later_flagTb (n : Nat) : Later a (flagTb n s) ↔ Later a s :=
  (later_announce { s with tb := { s.tb with fault := s.tb.fault ||| bits n 1 } } ..).trans (later_iff rfl rfl rfl)
@[simp] theorem later_flagVsp (w : Word) : Later a (flagVsp w s) ↔ Later a s :=
  (later_announce { s with vsp := { s.vsp with fault := s.vsp.fault ||| w } } ..).trans (later_iff rfl rfl rfl)
@[simp] theorem later_flagSec (n : SecId) (k : Nat) : Later a (flagSec n k s) ↔ Later a s := later_iff rfl rfl rfl
@[simp] theorem later_orbFault (k : Fin 16) (w : Word) : Later a (orbFault k w s) ↔ Later a s := by
  unfold orbFault; dsimp only; split <;> simp
@[simp] theorem later_dropRecord (k : Fin 16) : Later a (dropRecord k s) ↔ Later a s := by simp [dropRecord]
@[simp] theorem later_countDrop (r : StreamRec) : Later a (countDrop r s) ↔ Later a s := by
  simp only [countDrop]
  split <;> split <;> simp
@[simp] theorem later_activity (h : HeadId) : Later a (activity h s) ↔ Later a s :=
  later_foldOver s (fun _ _ => by exact later_iff rfl rfl rfl) _
@[simp] theorem later_setLatches (h : HeadId) : Later a (setLatches h s) ↔ Later a s :=
  later_foldOver s (fun _ _ => by exact later_iff rfl rfl rfl) _
@[simp] theorem later_pushItem (it : Item) (n : SecId) : Later a (pushItem it n s) ↔ Later a s := by
  unfold pushItem
  have flagged : ∀ u, Later a (flagZl 7 u) ↔ Later a u := fun u => later_flagZl u (by decide)
  split <;> simp [flagged]
@[simp] theorem later_pushItems (it : Item) (l : List SecId) : Later a (foldOver l (pushItem it) s) ↔ Later a s :=
  later_foldOver s (fun n u => later_pushItem u it n) l
@[simp] theorem later_headNotice (h : HeadId) (reason : Nat) : Later a (headNotice h reason s) ↔ Later a s := by
  simp [headNotice]
@[simp] theorem later_faultNotice (h : HeadId) : Later a (faultNotice h s) ↔ Later a s := later_headNotice ..
@[simp] theorem later_countPassage (h : HeadId) (seq : Nat) (i : Issued) : Later a (countPassage h seq i s) ↔ Later a s := by
  unfold countPassage
  extract_lets u _ v
  have counted : Later a u ↔ Later a s := later_modTrn ..
  have rejected : Later a v ↔ Later a s := (later_iff rfl rfl rfl : Later a v ↔ Later a u).trans counted
  clear_value v u
  simp [counted, rejected]
@[simp] theorem later_deliverPassage (h : HeadId) (seq : Nat) (i : Issued) :
    Later a (deliverPassage h seq i s) ↔ Later a s := by
  unfold deliverPassage
  extract_lets it item z u
  have kept : Later a u ↔ Later a s := later_iff rfl rfl rfl
  clear_value u
  simp [kept]
@[simp] theorem later_surveyPassage (h : HeadId) (i : Issued) : Later a (surveyPassage h i s) ↔ Later a s := by
  unfold surveyPassage
  split
  · exact later_iff rfl rfl rfl
  · rfl

variable (h : HeadId) (x : Sys)
@[simp] theorem later_anchorSlice : Later a (anchorSlice h x s) ↔ Later a s := later_iff rfl rfl rfl
@[simp] theorem later_loseLock : Later a (loseLock h x s) ↔ Later a s := by simp [loseLock]
@[simp] theorem later_holdSettle : Later a (holdSettle h x s) ↔ Later a s := by simp [holdSettle]
@[simp] theorem later_restartSettle : Later a (restartSettle h x s) ↔ Later a s := by simp [restartSettle]
@[simp] theorem later_releaseSettle : Later a (releaseSettle h x s) ↔ Later a s := by simp [releaseSettle]
@[simp] theorem later_forceSlice : Later a (forceSlice h x s) ↔ Later a s := by simp [forceSlice]
@[simp] theorem later_makeSlice : Later a (makeSlice h x s) ↔ Later a s := by
  simp [makeSlice, retune, dropNotches, bankFollow, lowerEnvbw]
theorem later_withLines {f : State → State} : Later a (withLines h f s) ↔ Later a (f s) := by simp [withLines]
end

/-! ### What writes to the host or completes a command -/

section
variable {a s : State} (l : Later a s)
include l
theorem later_each {α : Type} {f : α → State → State} (each : ∀ x u, Later a u → Later a (f x u)) (xs : List α) :
    Later a (foldOver xs f s) := by
  induction xs generalizing s with
  | nil => exact l
  | cons x xs ih => exact ih (each x s l)
@[simp] theorem later_dma (x : BitVec 64) (bytes : List Byte) : Later a (dma x bytes s) :=
  l.trans ⟨rfl, id, List.suffix_append ..⟩
@[simp] theorem later_stepIndex (k : Fin 16) : Later a (stepIndex k s) := by simp [stepIndex, l]
@[simp] theorem later_handBack (k : Fin 16) (b : Buf) (n : Nat) : Later a (handBack k b n s) := by simp [handBack, l]
@[simp] theorem later_offerFrom (k : Fin 16) (bytes : List Byte) (bufs : List Buf) :
    Later a (offerFrom k bytes bufs s).1 := by
  induction bufs generalizing s with
  | nil => simp [offerFrom, l]
  | cons b rest ih =>
    simp only [offerFrom]
    split
    · exact ih (later_handBack l ..)
    · split
      · simp [l]
      · exact ih (later_handBack l ..)
@[simp] theorem later_offer (k : Fin 16) (bytes : List Byte) : Later a (offer k bytes s).1 := by
  unfold offer; dsimp only; split <;> simp [l]
/-- A port that has written nothing, and has no more commands in progress. -/
theorem later_port {u : State} (idle : s.hp.inflight = [] → u.hp.inflight = [])
    (table : timetable u = timetable s) (out : u.out = s.out) : Later a u :=
  l.trans ⟨table, idle, by rw [out]⟩
theorem later_writeCompletion (c : InFlight) (st : Status) (d : Nat) (resp : List Byte) :
    Later a (writeCompletion c st d resp s) := by
  obtain ⟨u, served, e⟩ : ∃ u, Later a u ∧ writeCompletion c st d resp s = stepIndex (compOrbit c.orbit) u := by
    refine ⟨_, ?_, rfl⟩
    exact later_port (later_dma (later_dma l ..) ..) id rfl rfl
  rw [e]
  exact later_stepIndex served _
@[simp] theorem later_complete (seq : Nat) (st : Status) (d : Nat) (resp : List Byte) :
    Later a (complete seq st d resp s) := by
  unfold complete
  split
  · exact l
  · next c rest taken =>
    have begun : ∀ u : State, u.hp.inflight = rest → timetable u = timetable s → u.out = s.out → Later a u :=
      fun u same table out => later_port l (fun none_ => by rw [none_] at taken; cases taken) table out
    extract_lets p u q held
    have gone : Later a u := begun u rfl rfl rfl
    clear_value u
    split
    · exact later_port gone id rfl rfl
    · split <;> exact later_writeCompletion gone ..
@[simp] theorem later_completeJob (job : Option Nat) (st : Status) (d : Nat) : Later a (completeJob job st d s) := by
  cases job <;> simp [completeJob, l]
@[simp] theorem later_offerRec (r : StreamRec) : Later a (offerRec r s) := by simp [offerRec, l]
@[simp] theorem later_queueRec (r : StreamRec) : Later a (queueRec r s) := by
  unfold queueRec
  split
  · exact later_offerRec l r
  · exact later_same l rfl rfl rfl
@[simp] theorem later_queueSecRec (n : SecId) (b : List Byte) : Later a (queueSecRec n b s) := later_queueRec l _
@[simp] theorem later_recordPassage (h : HeadId) (seq : Nat) (i : Issued) : Later a (recordPassage h seq i s) := by
  unfold recordPassage
  extract_lets g want
  exact (later_ite ..).mpr (by split <;> simp [l])
@[simp] theorem later_issue (h : HeadId) (i : Issued) : Later a (issue h i s) := by simp [issue, l]
@[simp] theorem later_abortHead (h : HeadId) (reason : Nat) : Later a (abortHead h reason s) := by
  simp only [abortHead]; split <;> simp [l]

/-! ### Heads: settling, swaps, the regulator and a route that completes -/

variable (h : HeadId) (x : Sys)
@[simp] theorem later_wiringFault : Later a (wiringFault h x s) := by simp [wiringFault, l]
@[simp] theorem later_swapDone (w : Swap) : Later a (swapDone h w s) := by simp [swapDone, l]
@[simp] theorem later_endSwaps : Later a (endSwaps h s) := by
  simp only [endSwaps]
  repeat' split
  all_goals simp [l]
@[simp] theorem later_realign : Later a (realign h s) := by
  unfold realign
  extract_lets l1 l2 d n u d' err was w
  have delayed : Later a u := by
    unfold u
    split
    · exact l
    · exact (later_modFlt ..).mpr l
  have aligned : Later a w := (later_modFlt ..).mpr delayed
  clear_value w
  split
  · exact (later_onBoth _ fun y u => later_holdSettle u h y).mpr (later_abortHead ((later_flagFlt ..).mpr aligned) ..)
  · exact aligned
@[simp] theorem later_restartHead : Later a (restartHead h s) :=
  (later_onBoth _ fun y u => later_restartSettle u h y).mpr (later_realign l h)
@[simp] theorem later_closeWindow : Later a (closeWindow h s) := by
  simp only [closeWindow]
  split
  · refine later_each ((later_modFe ..).mpr l) (fun y u m => ?_) _
    split
    · exact later_wiringFault m ..
    · exact m
  · exact l
@[simp] theorem later_completeRoute : Later a (completeRoute h s) := by
  have begun : ∀ f, Later a (flagFe h 10 (s.modFe h f)) := fun f => by simp [l]
  exact later_closeWindow (later_restartHead (later_completeJob (begun _) ..) h) h
@[simp] theorem later_completeChange : Later a (completeChange h s) := by
  have begun : ∀ f, Later a (flagXs h 7 (s.modXs h f)) := fun f => by simp [l]
  unfold completeChange
  split
  · exact l
  · refine later_closeWindow (later_each (later_realign (later_completeJob (begun _) ..) h) (fun y u m => ?_) _) h
    split <;> simp [m]
@[simp] theorem later_afterRegulated : Later a (afterRegulated h x s) := by
  unfold afterRegulated
  extract_lets u v all w
  have begun : Later a u := (later_modXs ..).mpr l
  have changed : Later a v := by
    unfold v
    split
    · split
      · exact begun
      · exact later_completeChange begun h
    · exact begun
  have released : Later a w := by
    unfold w
    split
    · exact (later_onBoth _ fun y u => later_releaseSettle u h y).mpr ((later_modXs ..).mpr changed)
    · exact changed
  split
  · exact later_completeRoute released h
  · exact released
end

end Sys2Proof.Machine
end

section
/-! SUPPORT. The role input, the claim of the interlock and the drivers that follow them (R72, R229 to R232, R250).
Settles O32 and O33. -/
namespace Sys2Proof.Machine

/-! ### The timetable through marks, withdrawals and the pick-up -/

section
variable {a s : State} (l : Later a s)
include l
theorem later_unbridge (h : HeadId) (x : Sys) : Later a (unbridge h x s) := by
  have gone : ∀ (f : FltSlice → FltSlice) (n : Word), Later a (abortHead h 2 (holdSettle h x (flagHead .flt h n
      (s.modFltSlice h x f)))) := fun f n => later_abortHead (by simp [l]) ..
  unfold unbridge
  split
  · split
    · exact (later_ite ..).mpr (by simp [gone])
    · exact l
  · exact l
theorem later_beginGap (h : HeadId) (x : Sys) (from_ : Nat) : Later a (beginGap h x from_ s) := by
  have opened : ∀ f, Later a (s.modFltSlice h x f) := fun f => (later_modFltSlice ..).mpr l
  simp only [beginGap]
  split
  · split
    · exact (later_holdSettle ..).mpr (opened _)
    · exact later_unbridge (opened _) h x
  · exact opened _
theorem later_raiseMark (h : HeadId) (x : Sys) : Later a (raiseMark h x s) := by
  simp only [raiseMark]
  split
  · exact (later_modCmpSlice ..).mpr ((later_modFltSlice ..).mpr (later_beginGap l ..))
  · exact l
theorem later_raiseMarks : Later a (raiseMarks s) :=
  later_each l (fun h _ m => later_raiseMark (later_raiseMark m h .sys1) h .sys2) _
theorem later_withdrawSlice (h : HeadId) (x : Sys) : Later a (withdrawSlice h x s) := by
  simp only [withdrawSlice]
  split
  · exact later_afterRegulated ((later_anchorSlice ..).mpr ((later_modXsSlice ..).mpr ((later_loseLock ..).mpr l))) h x
  · exact l
theorem later_withdrawHead (h : HeadId) : Later a (withdrawHead h s) :=
  (later_withLines ..).mpr (later_withdrawSlice (later_withdrawSlice l h .sys1) h .sys2)
theorem later_abortDrive (h : HeadId) : Later a (abortDrive h s) := by
  unfold abortDrive
  split
  · exact later_abortHead l ..
  · exact l
theorem later_withdrawAll (won : Bool) : Later a (withdrawAll won s) := by
  unfold withdrawAll
  extract_lets u
  have marked : Later a u := by
    unfold u
    split
    · exact later_raiseMarks l
    · split
      · exact later_each l (fun h _ m => later_abortDrive m h) _
      · exact l
  exact later_each marked (fun h _ m => later_withdrawHead m h) _
theorem later_whenAwake {f : State → State} (each : Later a (f s)) : Later a (whenAwake f s) := by
  unfold whenAwake
  split
  · exact each
  · exact l
end

/-! ### Drivers withdrawn (R72, R230) -/

/-- No stage of a head drives. -/
def Undriven (h : HeadId) (s : State) : Prop :=
  ∀ x : Sys, ((s.head h).xs.slice.get x).reg ∉ [RegState.rampUp, .acquire, .track, .hold]

section
variable (h : HeadId) (x y : Sys) (s : State)

theorem pair_get_mod_ne {α : Type} {p : Pair α} {f : α → α} {x y : Sys} (other : y ≠ x) : (p.mod x f).get y = p.get y := by
  rw [pair_get_mod, if_neg other]

/-- A withdrawal touches the regulator of its own slice alone. -/
theorem withdrawSlice_reg : (((withdrawSlice h x s).head h).xs.slice.get y).reg =
    if y = x ∧ ((s.head h).xs.slice.get x).reg ∈ [RegState.rampUp, .acquire, .track, .hold] then
      if inRun s h then .listen else .off
    else ((s.head h).xs.slice.get y).reg := by
  have drives : (((s.head h).xs.slice.get x).reg == .rampUp || ((s.head h).xs.slice.get x).reg == .acquire ||
      ((s.head h).xs.slice.get x).reg == .track || ((s.head h).xs.slice.get x).reg == .hold) = true ↔
        ((s.head h).xs.slice.get x).reg ∈ [RegState.rampUp, .acquire, .track, .hold] := by
    simp [or_assoc]
  unfold withdrawSlice
  extract_lets r next
  split
  next yes =>
    rw [afterRegulated_hidden slices_steady, anchorSlice, modXsSlice_head_same, modXsSlice_head_same]
    have member := drives.mp yes
    simp only [loseLock_slices, member, and_true]
    by_cases same : y = x
    · subst same
      simp [XsSlice.anchor, next]
    · rw [pair_get_mod_ne same, pair_get_mod_ne same, pair_get_mod_ne same]
      exact (if_neg same).symm
  next no => rw [if_neg fun both => no (drives.mpr both.2)]

theorem withdrawSlice_undriven (only : ∀ z, z ≠ x → ((s.head h).xs.slice.get z).reg ∉ [RegState.rampUp, .acquire, .track, .hold]) :
    Undriven h (withdrawSlice h x s) := fun y => by
  rw [withdrawSlice_reg]
  split
  · split <;> decide
  next other =>
    by_cases same : y = x
    · subst same
      exact fun member => other ⟨rfl, member⟩
    · exact only y same

theorem withdrawHead_undriven : Undriven h (withdrawHead h s) := by
  have one : Undriven h (onBoth (withdrawSlice h) s) := by
    refine withdrawSlice_undriven h .sys2 _ fun z other => ?_
    cases z
    · rw [withdrawSlice_reg]
      split
      · split <;> decide
      next no => exact fun member => no ⟨rfl, member⟩
    · exact absurd rfl other
  intro x
  rw [withdrawHead, withLines_hidden (V := fun b => (b.xs.slice.get x).reg) (fun _ _ _ => rfl)]
  exact one x
end

/-- A loop establishes of each of its indices what one turn does and no turn undoes. -/
theorem foldOver_establishes {α : Type} {f : α → State → State} {P : α → State → Prop} (makes : ∀ i u, P i (f i u))
    (keeps : ∀ i j u, P j u → P j (f i u)) {l : List α} {i : α} (mem : i ∈ l) (s : State) : P i (foldOver l f s) := by
  have lasts : ∀ (l : List α) (u : State), P i u → P i (foldOver l f u) := fun l => by
    induction l with
    | nil => exact fun _ p => p
    | cons j l ih => exact fun u p => ih _ (keeps j i u p)
  induction l generalizing s with
  | nil => cases mem
  | cons j l ih =>
    rcases List.mem_cons.mp mem with rfl | later
    · exact lasts l _ (makes i s)
    · exact ih later _

@[simp] theorem rest_withdrawSlice {F : Rest} {h : HeadId} (own : F.own h) (x : Sys) (s : State) :
    F.view (withdrawSlice h x s) = F.view s := by simp [withdrawSlice, own]

theorem withdrawHead_others (h : HeadId) (s : State) : OtherHeadsKept h s (withdrawHead h s) :=
  otherHeads_of (rest_withLines (h := h) _ rfl trivial fun u => rest_onBoth u fun x v => rest_withdrawSlice (h := h) rfl x v)

theorem withdrawAll_undriven (won : Bool) (s : State) (h : HeadId) : Undriven h (withdrawAll won s) := by
  refine foldOver_establishes (P := Undriven) withdrawHead_undriven (fun g h u p x => ?_) (List.mem_finRange h) _
  by_cases same : h = g
  · subst same
    exact withdrawHead_undriven h u x
  · rw [withdrawHead_others g u h same]
    exact p x

/-! ### The role input (R229, R230) -/

section
variable {r : BitVec 2} {s : State}

/-- The state in which a role input of 10 raises its marks. -/
def State.claims (s : State) : State :=
  let s := { s with zl := { s.zl with roleIn := 2, roleAt := s.now, wonAt := none, lastHo := newGapMax s } }
  if s.phase = .eclipse then s else { s with zl := { s.zl with wantSince := some s.now, claim := .waiting } }

/-- The state in which a role input that leaves 10 withdraws the drivers. -/
def State.yields (r : BitVec 2) (s : State) : State :=
  { s with zl := { s.zl with
    roleIn := r, roleAt := s.now, wantSince := none, claim := .none, holdOut := false, wonAt := none, driveFrom := none,
    lastHo := newGapMax s } }

theorem setRoleIn_claims (was : s.zl.roleIn ≠ 2) :
    setRoleIn 2 s = whenAwake (fun s => if handOverReady s then raiseMarks s else s) s.claims :=
  if_pos (c := (2 : BitVec 2) = 2 ∧ s.zl.roleIn ≠ 2) ⟨rfl, was⟩

theorem setRoleIn_yields (leaves : r ≠ 2) (was : s.zl.roleIn = 2) :
    setRoleIn r s = whenAwake (withdrawAll (s.zl.claim == .won)) (s.yields r) := by
  unfold setRoleIn
  extract_lets was_ won z u v w
  rw [if_neg fun both => leaves both.1, if_pos ⟨leaves, was⟩]
  rfl

theorem setRoleIn_stays (same : r = 2 ↔ s.zl.roleIn = 2) : setRoleIn r s = { s with zl := { s.zl with roleIn := r } } := by
  unfold setRoleIn
  extract_lets was_ won z u v w
  rw [if_neg fun both => both.2 (same.mp both.1), if_neg fun both => both.1 (same.mpr both.2)]

theorem claims_later : Later s.claims (setRoleIn 2 s) ∨ s.zl.roleIn = 2 := by
  by_cases was : s.zl.roleIn = 2
  · exact .inr was
  · refine .inl ?_
    rw [setRoleIn_claims was]
    refine later_whenAwake (.refl _) ?_
    split
    · exact later_raiseMarks (.refl _)
    · exact .refl _

theorem yields_later (leaves : r ≠ 2) (was : s.zl.roleIn = 2) : Later (s.yields r) (setRoleIn r s) := by
  rw [setRoleIn_yields leaves was]
  exact later_whenAwake (.refl _) (later_withdrawAll (.refl _) _)

/-- What a role input leaves as it was, the flags of DEPOSE_N among it. -/
theorem setRoleIn_keeps (r : BitVec 2) (s : State) : ∃ v, Later v (setRoleIn r s) ∧ v.zl.roleIn = r ∧
    v.zl.pins = s.zl.pins ∧ v.zl.deposed = s.zl.deposed ∧ v.zl.role = s.zl.role ∧ v.zl.fault = s.zl.fault := by
  by_cases becomes : r = 2
  · subst becomes
    rcases claims_later (s := s) with l | was
    · refine ⟨s.claims, l, ?_⟩
      simp only [State.claims]
      split <;> exact ⟨rfl, rfl, rfl, rfl, rfl⟩
    · rw [setRoleIn_stays ⟨fun _ => was, fun _ => rfl⟩]
      exact ⟨_, .refl _, rfl, rfl, rfl, rfl, rfl⟩
  · by_cases was : s.zl.roleIn = 2
    · exact ⟨_, yields_later becomes was, rfl, rfl, rfl, rfl, rfl⟩
    · rw [setRoleIn_stays ⟨fun e => absurd e becomes, fun e => absurd e was⟩]
      exact ⟨_, .refl _, rfl, rfl, rfl, rfl, rfl⟩

theorem setRoleIn_begins (was : s.zl.roleIn ≠ 2) (lit : s.phase ≠ .eclipse) : (setRoleIn 2 s).zl.claim = .waiting ∧
    (setRoleIn 2 s).zl.wantSince = some s.now ∧ (setRoleIn 2 s).zl.holdOut = s.zl.holdOut := by
  have l : Later s.claims (setRoleIn 2 s) := (claims_later (s := s)).resolve_right was
  have begun : s.claims = { s with zl := { s.zl with
      roleIn := 2, roleAt := s.now, wonAt := none, lastHo := newGapMax s, wantSince := some s.now, claim := .waiting } } :=
    if_neg lit
  rw [begun] at l
  exact ⟨congrArg Timetable.claim l.table, congrArg Timetable.wantSince l.table, congrArg Timetable.holdOut l.table⟩

theorem setRoleIn_withdraws (leaves : r ≠ 2) (was : s.zl.roleIn = 2) : (setRoleIn r s).zl.claim = .none ∧
    (setRoleIn r s).zl.holdOut = false ∧ (setRoleIn r s).zl.wantSince = none ∧
    (awake s = true → ∀ h, Undriven h (setRoleIn r s)) := by
  have l := yields_later leaves was
  refine ⟨congrArg Timetable.claim l.table, congrArg Timetable.holdOut l.table, congrArg Timetable.wantSince l.table,
    fun up h => ?_⟩
  rw [setRoleIn_yields leaves was, whenAwake, if_pos (show awake (s.yields r) = true from up)]
  exact withdrawAll_undriven _ _ h

theorem setRoleIn_role (r : BitVec 2) (s : State) : (setRoleIn r s).zl.roleIn = r ∧ (setRoleIn r s).zl.pins = s.zl.pins ∧
    (setRoleIn r s).zl.deposed = s.zl.deposed ∧ (setRoleIn r s).zl.role = s.zl.role ∧
    bit (setRoleIn r s).zl.fault 12 = bit s.zl.fault 12 := by
  obtain ⟨v, l, roleIn, pins, deposed, role, fault⟩ := setRoleIn_keeps r s
  have masked : ∀ w : Word, bit (w &&& 0x1808) 12 = bit w 12 := fun w => by
    simp only [bit, BitVec.toNat_and, Nat.testBit_and]
    exact Bool.and_true _
  have flags := congrArg (fun x => bit (Timetable.faults x) 12) l.table
  simp only [timetable, masked] at flags
  exact ⟨(congrArg Timetable.roleIn l.table).trans roleIn, (congrArg Timetable.pins l.table).trans pins,
    (congrArg Timetable.deposed l.table).trans deposed, (congrArg Timetable.role l.table).trans role,
    flags.trans (congrArg (fun w => bit w 12) fault)⟩

theorem roleOf_ne {pins : BitVec 2} {d : Bool} (out : d = true ∨ pins ≠ 2) : roleOf pins d ≠ 2 := by
  unfold roleOf
  split
  · decide
  next not_ =>
    rcases out with yes | no
    · simp [yes] at not_
    · exact no

theorem undriving {u : State} (no : u.zl.roleIn ≠ 2) : drives u = false := by
  rw [drives, beq_false_of_ne no, Bool.and_false, Bool.false_and]
end

/-- Settles O32. -/
theorem roleInputAndDepose : Obligations.Role_input_and_depose := by
  intro t s
  refine ⟨fun pins => ?_, fun held => ?_, ?_⟩
  · obtain ⟨v, eq, zl, still⟩ : ∃ v : State, exec (.roleInputChange t pins) s = .next (setRoleIn (roleOf pins s.zl.deposed) v) ∧
        v.zl = { s.zl with pins := pins } ∧ v.phase = s.phase ∧ v.now = max s.now t := ⟨_, rfl, rfl, rfl, rfl⟩
    obtain ⟨phase, now⟩ := still
    obtain ⟨roleIn, pins', deposed, role, -⟩ := setRoleIn_role (roleOf pins s.zl.deposed) v
    have up : awake v = awake s := by simp only [awake, phase]
    rw [zl] at pins' deposed role
    refine ⟨_, eq, pins', roleIn.trans ?_, deposed, role, fun no two was lit => ?_, fun out was => ?_⟩
    · simp [roleOf]
    · have becomes : roleOf pins s.zl.deposed = 2 := by rw [no, two]; rfl
      have begins := setRoleIn_begins (s := v) (by rw [zl]; exact was) (by rw [phase]; exact lit)
      rw [zl, now] at begins
      rw [becomes]
      exact begins
    · have leaves := roleOf_ne out
      obtain ⟨claim, hold, want, undriven⟩ := setRoleIn_withdraws (s := v) leaves (by rw [zl]; exact was)
      exact ⟨claim, hold, want, undriving (by rw [roleIn]; exact leaves), fun a h x => undriven (up.trans a) h x⟩
  · obtain ⟨v, eq, zl, phase, flag⟩ : ∃ v : State, exec (.depose t) s = .next (setRoleIn 0 v) ∧
        v.zl = { s.zl with deposed := true, fault := v.zl.fault } ∧ v.phase = s.phase ∧
        (awake s = true → bit v.zl.fault 12 = true) := by
      obtain ⟨u, begun, zl, phase⟩ : ∃ u : State, exec (.depose t) s = .next (setRoleIn 0 (whenAwake (flagZl 12) u)) ∧
          u.zl = { s.zl with deposed := true } ∧ u.phase = s.phase :=
        ⟨_, congrArg Host.Outcome.next (if_neg (by
          rw [show (s.advance t).zl.deposed = s.zl.deposed from rfl, held]; decide)), rfl, rfl⟩
      have up : awake u = awake s := by simp only [awake, phase]
      refine ⟨_, begun, ?_⟩
      have dev := flagZl_device u 12
      cases a : awake s
      · rw [whenAwake, if_neg (by rw [up, a]; decide)]
        exact ⟨by rw [zl], phase, nofun⟩
      · rw [whenAwake, if_pos (up.trans a)]
        have flagged := (zl_of_device dev :)
        refine ⟨?_, (congrArg State.phase dev :).trans phase, fun _ =>
          (congrArg (fun z : Zl => bit z.fault 12) flagged).trans (bit_flagged _ _ (by decide))⟩
        rw [flagged, zl]
    obtain ⟨roleIn, -, deposed, -, kept⟩ := setRoleIn_role 0 v
    have up : awake v = awake s := by simp only [awake, phase]
    have was : s.zl.roleIn = 2 → v.zl.roleIn = 2 := fun two => by rw [zl]; exact two
    refine ⟨_, eq, deposed.trans (by rw [zl]), roleIn, undriving (by rw [roleIn]; decide), fun a => kept.trans (flag a),
      fun two => ?_, fun a two h x => ?_⟩
    · obtain ⟨claim, hold, -, -⟩ := setRoleIn_withdraws (s := v) (r := 0) (by decide) (was two)
      exact ⟨claim, hold⟩
    · exact (setRoleIn_withdraws (s := v) (r := 0) (by decide) (was two)).2.2.2 (up.trans a) h x
  · obtain ⟨v, eq, zl, phase⟩ : ∃ v : State, exec (.deposeRelease t) s = .next (setRoleIn (roleOf s.zl.pins false) v) ∧
        v.zl = { s.zl with deposed := false } ∧ v.phase = s.phase := ⟨_, rfl, rfl, rfl⟩
    obtain ⟨roleIn, -, deposed, -, -⟩ := setRoleIn_role (roleOf s.zl.pins false) v
    refine ⟨_, eq, deposed.trans (by rw [zl]), roleIn.trans ?_, fun two was lit => ?_⟩
    · simp [roleOf]
    · have becomes : roleOf s.zl.pins false = 2 := by rw [two]; rfl
      rw [becomes]
      exact (setRoleIn_begins (s := v) (by rw [zl]; exact was) (by rw [phase]; exact lit)).1

/-! ### The claim of the interlock (R231, R232) -/

section
variable {s : State}

theorem backoffOf_eq : backoffOf s = if bit s.zl.cfg 8 then 300000 else 100000 := rfl

theorem claimTry_tries (lit : s.pwr.aonHeld = false) (due : s.zl.claim = .waiting ∨ s.zl.claim = .backoff ∧
    s.zl.claimAt + (if bit s.zl.cfg 8 then 300000 else 100000) ≤ s.now) : claimTry s = { s with zl := { s.zl with
      claim := .trying, holdIn := false, holdOut := true, claimAt := s.now } } := if_pos ⟨lit, due⟩

theorem claimTry_dark (dark : s.pwr.aonHeld = true) : claimTry s = s :=
  if_neg fun both => absurd (dark.symm.trans both.1) (by decide)

/-- The state in which a won claim picks the drive up. -/
def State.won (s : State) : State :=
  { s with zl := { s.zl with
    holdIn := false, claimAt := s.now, claim := .won, holdOut := false, wonAt := some s.now, wantSince := none } }

theorem claimEnd_wins (trying : s.zl.claim = .trying) (due : s.zl.claimAt + 100000 ≤ s.now) :
    claimEnd true s = whenAwake pickUp s.won := if_pos ⟨trying, due⟩

theorem claimEnd_backsOff (trying : s.zl.claim = .trying) (due : s.zl.claimAt + 100000 ≤ s.now) :
    claimEnd false s = { s with zl := { s.zl with
      claim := .backoff, holdIn := true, holdOut := false, claimAt := s.now } } := if_pos ⟨trying, due⟩

/-! ### The pick-up (R72, R250) -/

theorem holdCond_modXsSlice (h : HeadId) (x : Sys) (f : XsSlice → XsSlice) :
    holdCond (s.modXsSlice h x f) h = holdCond s h := by
  simp [holdCond, anyPresence, inUse, trnIdle, recentTransit, brakeOn]

theorem pickUpSlice_regs (h : HeadId) (x y : Sys) : ∃ v : XsSlice, ((pickUpSlice h x s).head h).xs.slice.get y = v ∧
    holdCond (pickUpSlice h x s) h = holdCond s h ∧
    (y ≠ x → v = (s.head h).xs.slice.get y) ∧
    (y = x → ((s.head h).xs.slice.get x).reg = .listen → v.reg = slowLoop s h ∧ v.drive = ((s.head h).xs.slice.get x).preset) ∧
    (y = x → ((s.head h).xs.slice.get x).reg ≠ .listen → v = (s.head h).xs.slice.get x) := by
  unfold pickUpSlice
  split
  next listens =>
    refine ⟨_, rfl, holdCond_modXsSlice h x _, fun other => ?_, fun same _ => ?_, fun same no => absurd (eq_of_beq listens) no⟩
    · rw [modXsSlice_head_same]
      exact pair_get_mod_ne other
    · subst same
      rw [modXsSlice_head_same]
      simp only [pair_get_mod_same]
      exact ⟨rfl, rfl⟩
  next not_ =>
    exact ⟨_, rfl, rfl, fun _ => rfl, fun _ listens => absurd (beq_iff_eq.mpr listens) not_, fun same _ => by rw [same]⟩

/-- A head that is listening drives at its preset once it is picked up. -/
def PickedUp (a : State) (h : HeadId) (u : State) : Prop :=
  ∀ x : Sys, ((a.head h).xs.slice.get x).reg = .listen →
    ((u.head h).xs.slice.get x).reg = slowLoop a h ∧
    ((u.head h).xs.slice.get x).drive = ((a.head h).xs.slice.get x).preset

theorem slowLoop_of {u v : State} {h : HeadId} (e : holdCond u h = holdCond v h) : slowLoop u h = slowLoop v h := by
  simp only [slowLoop, e]

theorem slowLoop_drives (s : State) (h : HeadId) : slowLoop s h ≠ .listen := by
  unfold slowLoop
  split <;> decide

theorem pickUpHead_picks (h : HeadId) : PickedUp s h (onBoth (pickUpSlice h) s) := by
  intro x listens
  obtain ⟨v, one, cond, other, own, -⟩ := pickUpSlice_regs (s := s) h .sys1 x
  obtain ⟨w, two, -, other', own', still⟩ := pickUpSlice_regs (s := pickUpSlice h .sys1 s) h .sys2 x
  change (((pickUpSlice h .sys2 (pickUpSlice h .sys1 s)).head h).xs.slice.get x).reg = _ ∧
    (((pickUpSlice h .sys2 (pickUpSlice h .sys1 s)).head h).xs.slice.get x).drive = _
  rw [two]
  cases x
  · rw [other' (by decide), one]
    exact own rfl listens
  · have kept := one.trans (other (by decide))
    rw [kept] at own'
    have picked := own' rfl listens
    rwa [slowLoop_of cond] at picked

theorem pickUpHead_others (g h : HeadId) (other : h ≠ g) : (onBoth (pickUpSlice g) s).head h = s.head h := by
  have one : ∀ x u, (pickUpSlice g x u).head h = u.head h := fun x u => by
    unfold pickUpSlice
    split
    · exact modXs_head_other _ _ _ _ other
    · rfl
  exact (one ..).trans (one ..)

theorem pickUpHead_now (g : HeadId) : (onBoth (pickUpSlice g) s).now = s.now := by
  have one : ∀ x u, (pickUpSlice g x u).now = u.now := fun x u => by unfold pickUpSlice; split <;> rfl
  exact (one ..).trans (one ..)

theorem holdCond_of {u v : State} {h : HeadId} (head : u.head h = v.head h) (now : u.now = v.now) :
    holdCond u h = holdCond v h := by
  simp only [holdCond, anyPresence, inUse, trnIdle, recentTransit, brakeOn, head, now]

theorem pickUpHeads_others {l : List HeadId} {h : HeadId} (out : h ∉ l) (s : State) :
    (foldOver l (fun g => onBoth (pickUpSlice g)) s).head h = s.head h := by
  induction l generalizing s with
  | nil => rfl
  | cons k l ih =>
    obtain ⟨apart, out⟩ := not_or.mp (mt List.mem_cons.mpr out)
    exact (ih out _).trans (pickUpHead_others k h apart)

/-- Every head is picked up from the state in which the claim is won. -/
theorem pickUpHeads_picks {l : List HeadId} {h : HeadId} (once : l.Nodup) (mem : h ∈ l) {u : State}
    (head : u.head h = s.head h) (now : u.now = s.now) :
    PickedUp s h (foldOver l (fun g => onBoth (pickUpSlice g)) u) := by
  induction l generalizing u with
  | nil => cases mem
  | cons g l ih =>
    obtain ⟨fresh, once⟩ := List.nodup_cons.mp once
    by_cases same : h = g
    · subst same
      have rest := pickUpHeads_others fresh (onBoth (pickUpSlice h) u)
      intro x listens
      obtain ⟨reg, drive⟩ := pickUpHead_picks (s := u) h x (by rw [head]; exact listens)
      rw [slowLoop_of (holdCond_of head now)] at reg
      rw [head] at drive
      exact ⟨(congrArg (fun y : Head => (y.xs.slice.get x).reg) rest).trans reg,
        (congrArg (fun y : Head => (y.xs.slice.get x).drive) rest).trans drive⟩
    · exact ih once ((List.mem_cons.mp mem).resolve_left same) ((pickUpHead_others g h same).trans head)
        ((pickUpHead_now g).trans now)

theorem later_pickUpSlice {a : State} (l : Later a s) (h : HeadId) (x : Sys) : Later a (pickUpSlice h x s) := by
  unfold pickUpSlice
  split
  · exact (later_modXsSlice ..).mpr l
  · exact l

theorem later_faultNotices {a : State} (l : Later a s) (hs : List HeadId) : Later a (foldOver hs faultNotice s) :=
  (later_foldOver s (fun h u => later_faultNotice u h) hs).mpr l

theorem faultNotices_head (hs : List HeadId) (s : State) (g : HeadId) : (foldOver hs faultNotice s).head g = s.head g :=
  foldOver_keeps (g := fun u : State => u.head g) (fun _ _ => faultNotice_head ..) s

theorem faultNotices_heads (hs : List HeadId) (s : State) : (foldOver hs faultNotice s).heads = s.heads :=
  Vector.ext fun i hi => faultNotices_head hs s ⟨i, hi⟩

theorem bit_masked (w : Word) : bit (w &&& 0x1808) 3 = bit w 3 ∧ bit (w &&& 0x1808) 11 = bit w 11 := by
  simp only [bit, BitVec.toNat_and, Nat.testBit_and]
  exact ⟨Bool.and_true _, Bool.and_true _⟩

/-- The notices that follow a flag of the link keep the claim, and the flag where it is one of the claim's. -/
theorem faultNotices_keep (hs : List HeadId) (u : State) : (foldOver hs faultNotice u).zl.claim = u.zl.claim ∧
    (foldOver hs faultNotice u).zl.wonAt = u.zl.wonAt ∧ (foldOver hs faultNotice u).zl.holdOut = u.zl.holdOut ∧
    (foldOver hs faultNotice u).zl.wantSince = u.zl.wantSince ∧
    bit (foldOver hs faultNotice u).zl.fault 3 = bit u.zl.fault 3 ∧
    bit (foldOver hs faultNotice u).zl.fault 11 = bit u.zl.fault 11 := by
  have table := (later_faultNotices (.refl u) hs).table
  have flags := congrArg Timetable.faults table
  refine ⟨congrArg Timetable.claim table, congrArg Timetable.wonAt table, congrArg Timetable.holdOut table,
    congrArg Timetable.wantSince table, ?_, ?_⟩
  · rw [← (bit_masked _).1, ← (bit_masked u.zl.fault).1]
    exact congrArg (fun w => bit w 3) flags
  · rw [← (bit_masked _).2, ← (bit_masked u.zl.fault).2]
    exact congrArg (fun w => bit w 11) flags

theorem driveFrom_apart (s : State) (d : Option Nat) :
    (∀ h, ({ s with zl := { s.zl with driveFrom := d } } : State).head h = s.head h) ∧
    timetable { s with zl := { s.zl with driveFrom := d } } = timetable s := ⟨fun _ => rfl, rfl⟩

theorem lastHo_apart (s : State) (w : Word) :
    (∀ h, ({ s with zl := { s.zl with lastHo := w } } : State).head h = s.head h) ∧
    ({ s with zl := { s.zl with lastHo := w } } : State).now = s.now ∧ Later s { s with zl := { s.zl with lastHo := w } } :=
  ⟨fun _ => rfl, rfl, later_same (.refl s) rfl rfl rfl⟩

/-- The stages drive, and the drive interval begins. -/
def State.pickedUp (n : Nat) (s : State) : State :=
  foldOver (allFin 256) (fun h => onBoth (pickUpSlice h))
    { s with zl := { s.zl with lastHo := setFld s.zl.lastHo 16 8 (satNat 8 n) } }
def State.drivesFrom (s : State) : State :=
  { s with zl := { s.zl with driveFrom := if drivesAll s then some s.now else none } }

theorem pickUp_steps (s : State) : ∃ bad v, bad = unlockedSlices s ∧ v = s.pickedUp bad.length ∧ pickUp s =
    foldOver ((allFin 256).filter (fun h => bad.any (fun p => p.1 == h))) faultNotice
      (if bad.isEmpty then v.drivesFrom else flagZl 11 v.drivesFrom) := by
  unfold pickUp
  extract_lets bad z u v z' x w
  have unlocked : bad = unlockedSlices s := rfl
  clear_value bad
  refine ⟨bad, v, unlocked, rfl, ?_⟩
  clear_value v
  rfl

theorem pickedUp_picks (n : Nat) (s : State) : (∀ h, PickedUp s h (s.pickedUp n)) ∧ Later s (s.pickedUp n) := by
  rw [State.pickedUp]
  generalize setFld s.zl.lastHo 16 8 (satNat 8 n) = w
  obtain ⟨heads, now, later⟩ := lastHo_apart s w
  exact ⟨fun h => pickUpHeads_picks (List.nodup_finRange 256) (List.mem_finRange h) (heads h) now,
    later_each later (fun h _ m => later_pickUpSlice (later_pickUpSlice m h .sys1) h .sys2) _⟩

theorem drivesFrom_apart (s : State) : (∀ h, s.drivesFrom.head h = s.head h) ∧ timetable s.drivesFrom = timetable s := by
  rw [State.drivesFrom]
  exact driveFrom_apart s _

theorem pickUp_shows (s : State) : (pickUp s).zl.claim = s.zl.claim ∧ (pickUp s).zl.wonAt = s.zl.wonAt ∧
    (pickUp s).zl.holdOut = s.zl.holdOut ∧ (∀ h, PickedUp s h (pickUp s)) ∧
    (unlockedSlices s ≠ [] → bit (pickUp s).zl.fault 11 = true) := by
  obtain ⟨bad, v, unlocked, picked, eq⟩ := pickUp_steps s
  obtain ⟨heads, driven⟩ := pickedUp_picks bad.length s
  rw [← picked] at heads driven
  obtain ⟨same, table⟩ := drivesFrom_apart v
  replace table := table.trans driven.table
  generalize v.drivesFrom = x at eq same table
  obtain ⟨w, noted⟩ : ∃ w, w = if bad.isEmpty then x else flagZl 11 x := ⟨_, rfl⟩
  rw [← noted] at eq
  rw [← unlocked]
  generalize (allFin 256).filter (fun h => bad.any (fun p => p.1 == h)) = hs at eq
  have claim : x.zl.claim = s.zl.claim := congrArg Timetable.claim table
  have wonAt : x.zl.wonAt = s.zl.wonAt := congrArg Timetable.wonAt table
  have holdOut : x.zl.holdOut = s.zl.holdOut := congrArg Timetable.holdOut table
  have flagged : (∀ h, w.head h = x.head h) ∧ w.zl = { x.zl with fault := w.zl.fault } ∧
      (bad ≠ [] → bit w.zl.fault 11 = true) := by
    rw [noted]
    split
    next none_ => exact ⟨fun _ => rfl, rfl, fun some_ => absurd (List.isEmpty_iff.mp none_) some_⟩
    next some_ =>
      have zl := zl_of_device (flagZl_device x 11)
      exact ⟨fun h => head_of_device (flagZl_device x 11) h, by rw [zl], fun _ =>
        (congrArg (fun z : Zl => bit z.fault 11) zl).trans (bit_flagged _ _ (by decide))⟩
  obtain ⟨flagHeads, zl, flag⟩ := flagged
  obtain ⟨claim', wonAt', holdOut', -, -, kept⟩ := faultNotices_keep hs w
  rw [eq]
  refine ⟨claim'.trans ?_, wonAt'.trans ?_, holdOut'.trans ?_, fun h y listens => ?_, fun some_ => kept.trans (flag some_)⟩
  · rw [zl]; exact claim
  · rw [zl]; exact wonAt
  · rw [zl]; exact holdOut
  · have head := (faultNotices_head hs w h).trans
      ((flagHeads h).trans (same h))
    rw [head]
    exact heads h y listens

/-- No claim won within 4.0 us. -/
theorem holdTimeout_shows {t0 : Nat} (want : s.zl.wantSince = some t0) (lost : s.zl.claim ≠ .won)
    (late : t0 + 4000000 ≤ s.now) : bit (holdTimeout s).zl.fault 3 = true ∧ (holdTimeout s).zl.wantSince = none ∧
      (holdTimeout s).zl.claim = s.zl.claim ∧ (holdTimeout s).heads = s.heads := by
  obtain ⟨u, zl, heads, eq⟩ : ∃ u : State, u.zl = { s.zl with wantSince := none } ∧ u.heads = s.heads ∧
      ∃ hs, holdTimeout s = foldOver hs faultNotice (flagZl 3 u) := by
    refine ⟨{ s with zl := { s.zl with wantSince := none } }, rfl, rfl, (allFin 256).filter (inRun (flagZl 3 { s with zl := { s.zl with wantSince := none } })), ?_⟩
    have due : (s.zl.claim != .won && decide (t0 + us 4 ≤ s.now)) = true := by
      rw [bne_iff_ne.mpr lost, Bool.true_and]
      exact decide_eq_true late
    simp only [holdTimeout, want, due, if_true]
  obtain ⟨hs, eq⟩ := eq
  have dev := flagZl_device u 3
  have flagged := zl_of_device dev
  obtain ⟨claim, -, -, wantSince, kept, -⟩ := faultNotices_keep hs (flagZl 3 u)
  rw [eq]
  refine ⟨kept.trans ((congrArg (fun z : Zl => bit z.fault 3) flagged).trans (bit_flagged _ _ (by decide))),
    wantSince.trans ((congrArg Zl.wantSince flagged).trans ?_), claim.trans ((congrArg Zl.claim flagged).trans ?_),
    (faultNotices_heads ..).trans ((heads_of_device dev :).trans heads)⟩
  · exact (congrArg Zl.wantSince zl :)
  · exact (congrArg Zl.claim zl :)
end

/-- Settles O33. -/
theorem excitationInterlock : Obligations.Excitation_interlock := by
  intro t s
  refine ⟨fun lit due => ?_, fun dark => ?_, fun trying due => ⟨?_, ?_⟩, fun t0 up want lost late => ?_⟩
  · exact congrArg Host.Outcome.next (claimTry_tries (s := s.advance t) lit due)
  · exact congrArg Host.Outcome.next (claimTry_dark (s := s.advance t) dark)
  · have wins := claimEnd_wins (s := s.advance t) trying due
    cases a : awake s
    · have asleep : whenAwake pickUp (s.advance t).won = (s.advance t).won :=
        if_neg (by change ¬ awake s = true; rw [a]; decide)
      exact ⟨_, congrArg Host.Outcome.next (wins.trans asleep), rfl, rfl, rfl, nofun, nofun⟩
    · have live : whenAwake pickUp (s.advance t).won = pickUp (s.advance t).won := if_pos a
      obtain ⟨claim, wonAt, holdOut, picked, flag⟩ := pickUp_shows (s.advance t).won
      exact ⟨_, congrArg Host.Outcome.next (wins.trans live), claim, wonAt, holdOut, fun _ h x listens => picked h x listens,
        fun _ some_ => flag some_⟩
  · exact congrArg Host.Outcome.next (claimEnd_backsOff (s := s.advance t) trying due)
  · have live : (Host.Outcome.next (whenAwake holdTimeout (s.advance t)) : Host.Outcome State Fault Refusal) =
        .next (holdTimeout (s.advance t)) := congrArg Host.Outcome.next (whenAwake_advance up)
    obtain ⟨flag, want', claim, heads⟩ := holdTimeout_shows (s := s.advance t) want lost late
    exact ⟨_, live, flag, want', claim, heads⟩

end Sys2Proof.Machine
end

section
/-! SUPPORT. What a boundary does after it has opened its epoch keeps the timetable (R201, R218 to R229, R253, R254). -/
namespace Sys2Proof.Machine

/-! ### Blocks that the timetable does not read -/

section
variable {a s : State}
@[simp] theorem later_free (n : Nat) : Later a { s with free := n } ↔ Later a s := later_iff rfl rfl rfl
@[simp] theorem later_irq (v : Irq) : Later a { s with irq := v } ↔ Later a s := later_iff rfl rfl rfl
@[simp] theorem later_aon (v : Aon) : Later a { s with aon := v } ↔ Later a s := later_iff rfl rfl rfl
@[simp] theorem later_sections (v : Vector Section 256) : Later a { s with sections := v } ↔ Later a s := later_iff rfl rfl rfl
@[simp] theorem later_heads (v : Vector Head 256) : Later a { s with heads := v } ↔ Later a s := later_iff rfl rfl rfl
@[simp] theorem later_modLane (l : Lane) (f : LaneSt → LaneSt) : Later a (s.modLane l f) ↔ Later a s := by
  cases l <;> exact later_iff rfl rfl rfl
@[simp] theorem later_deltas (d : List (SecId × List Delta)) : Later a { s with zl := { s.zl with deltas := d } } ↔ Later a s :=
  later_iff rfl rfl rfl
@[simp] theorem later_lastHo (w : Word) : Later a { s with zl := { s.zl with lastHo := w } } ↔ Later a s := later_iff rfl rfl rfl
@[simp] theorem later_driveFrom (d : Option Nat) : Later a { s with zl := { s.zl with driveFrom := d } } ↔ Later a s :=
  later_iff rfl rfl rfl
@[simp] theorem later_linkCount (n : Nat) (r : Option RxSet) (k : List Kept) : Later a { s with zl := { s.zl with
    statusMiss := n, rx := r, kept := k } } ↔ Later a s := later_iff rfl rfl rfl
@[simp] theorem later_latched (e : Vector Eph 256) (n : Nat) (c d : Vector (Option Int) 256)
    (x y : List (SecId × List Delta)) (r : BitVec 2) (g : BitVec 16) (f : List (Nat × List Byte)) (b : Bool) :
    Later a { s with zl := { s.zl with
      eph := e, ephSeq := n, setCover := c, cutCover := d, setDeltas := x, deltas := y, setRole := r, setGen := g,
      lfulls := f, sent := b } } ↔ Later a s := later_iff rfl rfl rfl
end

/-! ### The time base and the lanes -/

section
variable {a s : State} (l : Later a s)
include l
theorem later_tbEnter (st : TbState) : Later a (tbEnter st s) := by
  have entered : Later a { s with tb := { s.tb with st := st, ppsGood := 0, freqHeld := false } } := (later_tb ..).mpr l
  cases st
  case locked => exact (later_flagTb ..).mpr entered
  case holdover => exact (later_flagTb ..).mpr entered
  all_goals exact entered
theorem later_tbAnchor : Later a (tbAnchor s) := (later_tb ..).mpr l
theorem later_setRate (base adj : Int) : Later a (setRate base adj s) := (later_tb ..).mpr (later_tbAnchor l)
theorem later_measureRef : Later a (measureRef s) := (later_free _).mpr (later_setRate l ..)
theorem later_tbMode : Later a (tbMode s) := by
  unfold tbMode
  extract_lets m old t u v
  have moded : Later a u := (later_tb ..).mpr l
  clear_value u
  split
  · exact l
  · split
    · exact later_setRate (later_tbEnter moded ..) ..
    · have measured : Later a v := by
        unfold v
        split
        · exact later_measureRef moded
        · exact moded
      split
      · exact later_tbEnter measured ..
      · exact measured
theorem later_applyStep (st : TbStep) : Later a (applyStep st s) := by
  have moved : ∀ (b : Tb) (c : Aon), Later a { tbAnchor s with tb := b, aon := c } := fun b c =>
    later_same (later_tbAnchor l) rfl rfl rfl
  exact moved ..
theorem later_pushLatch (seq : Nat) : Later a (pushLatch seq s) := (later_tb ..).mpr l
theorem later_stepEffects (st : TbStep) : Later a (stepEffects st s) := by
  unfold stepEffects
  extract_lets u v
  have told : Later a u := (later_trig ..).mpr ((later_flagTb ..).mpr l)
  clear_value u
  refine later_completeJob ?_ ..
  unfold v
  split
  · exact later_tbEnter told _
  · exact told
theorem later_tbBoundary (seq : Nat) : Later a (tbBoundary seq s) := by
  have moded := later_tbMode (later_tbAnchor l)
  simp only [tbBoundary]
  split
  · split
    · exact later_stepEffects (later_pushLatch (later_applyStep moded _) _) _
    · exact later_pushLatch moded _
  · exact later_pushLatch moded _
theorem later_stormWindow (seq : Nat) : Later a (stormWindow seq s) := by
  unfold stormWindow
  split
  · exact (later_irq _).mpr l
  · exact l
theorem later_endRead (k : Lane) : Later a (endRead k s) := by
  unfold endRead
  split
  · split
    · exact (later_flagVsp ..).mpr ((later_modLane ..).mpr l)
    · exact l
  · exact l
theorem later_endReads : Later a (endReads s) := later_endRead (later_endRead (later_endRead l .a) .b) .c

/-! ### Sections as the role changes -/

theorem later_staleCmd (n : SecId) (c : SecCmd) : Later a (staleCmd n c s) := by
  unfold staleCmd
  split
  · exact later_completeJob ((later_trig ..).mpr (later_queueSecRec ((later_modSec ..).mpr l) ..)) ..
  · exact later_completeJob ((later_modSec ..).mpr l) ..
theorem later_handDownSec (n : SecId) : Later a (handDownSec n s) :=
  later_each ((later_modSec ..).mpr l) (fun c _ m => later_staleCmd m n c) _
theorem later_changeRole (role was : BitVec 2) (seq : Nat) : Later a (changeRole role was seq s) := by
  have noted : ∀ (g : Aon) (w : Word), Later a { s with aon := g, zl := { s.zl with lastHo := w } } := fun g w =>
    later_same l rfl rfl rfl
  unfold changeRole
  split
  · exact (later_flagZl _ (by decide)).mpr (noted ..)
  · split
    · exact later_each ((later_flagZl _ (by decide)).mpr l) (fun n _ m => later_handDownSec m n) _
    · exact l
theorem later_latchSet (seq : Nat) (was : BitVec 2) : Later a (latchSet seq was s) := (later_latched ..).mpr l
theorem later_trigs (t : List (Nat × Nat × Word)) : Later a (foldOver t (fun t s => trig t.1 t.2.1 t.2.2 s) s) :=
  later_each l (fun _ _ m => (later_trig ..).mpr m) _
theorem later_takeOverSec (seq : Nat) (n : SecId) : Later a (takeOverSec seq n s) := by
  have begun : ∀ f, Later a (s.modSec n f) := fun f => (later_modSec ..).mpr l
  unfold takeOverSec
  extract_lets x u commit
  have committed : ∀ p v, Later a v → Later a (commit p v) := fun p v m => by
    have recorded : ∀ f, Later a (foldOver p.recs (queueSecRec n) (v.modSec n f)) := fun f =>
      later_each ((later_modSec ..).mpr m) (fun b _ k => later_queueSecRec k n b) _
    exact later_trigs ((later_deltas _).mpr (recorded _)) _
  have cut : Later a u := begun _
  clear_value u commit
  split
  · exact l
  · split
    · exact committed _ _ cut
    · split
      · exact (later_flagZl _ (by decide)).mpr (committed _ _ cut)
      · exact cut

/-! ### What the boundary samples, and the readings that go on -/

theorem later_leakUpdate (x : LeakSample) : Later a (leakUpdate x s) := by
  have evaluated : ∀ (h : HeadId) (was : Bool) (u : State), Later a u → Later a (leakEval h was u) := fun h was u m => by
    unfold leakEval
    extract_lets b v
    have warned : Later a v := by
      unfold v
      split
      · exact (later_flagFe ..).mpr m
      · exact m
    split <;> exact (later_modFe ..).mpr warned
  unfold leakUpdate
  split
  · exact evaluated _ _ _ ((later_modFe ..).mpr l)
  · exact l
theorem later_listenEpoch (x : ListenSample) : Later a (listenEpoch x s) := by
  unfold listenEpoch
  extract_lets v mis heard preset dev good u
  have moved : Later a u := (later_anchorSlice ..).mpr ((later_modXsSlice ..).mpr l)
  clear_value u
  split
  · split
    · exact (later_loseLock ..).mpr moved
    · exact moved
  · exact l
theorem later_driveEpoch (x : DriveSample) : Later a (driveEpoch x s) := (later_modXsSlice ..).mpr l
theorem later_thermTell (d : DieId) (was : Die) : Later a (thermTell d was s) := by
  simp only [thermTell]
  split
  · exact (later_trig ..).mpr ((later_raise ..).mpr l)
  · exact l
theorem later_thermSet (d : DieId) (off : Bool) (tj : Int) : Later a (thermSet d off tj s) :=
  later_thermTell ((later_modDie ..).mpr l) ..
theorem later_thermHead (h : HeadId) : Later a (thermHead h s) := by
  unfold thermHead
  refine (later_withLines ..).mpr ?_
  extract_lets ramp run u
  have down : Later a u := later_abortHead ((later_onBoth _ fun x u => later_modXsSlice ..).mpr l) ..
  clear_value u
  split
  · exact (later_faultNotice ..).mpr ((later_flagXs ..).mpr ((later_onBoth _ fun x u => later_holdSettle ..).mpr
      ((later_modXs ..).mpr down)))
  · exact down
theorem later_thermOff (d : DieId) (tj : Int) : Later a (thermOff d tj s) := by
  unfold thermOff
  split
  · exact later_thermTell (later_each ((later_modDie ..).mpr l) (fun h _ m => later_thermHead m h) _) ..
  · exact l
theorem later_thermBack (h : HeadId) : Later a (thermBack h s) := by
  unfold thermBack
  split
  · refine (later_withLines ..).mpr (later_each (later_each l (fun x u m => ?_) _) (fun x u m => ?_) _)
    · simp only [later_ite]
      split
      · exact (later_makeSlice ..).mpr m
      · exact m
    · split
      · exact later_afterRegulated m ..
      · exact m
  · exact (later_modXs ..).mpr l
theorem later_thermOffClear (d : DieId) (tj : Int) : Later a (thermOffClear d tj s) := by
  unfold thermOffClear
  extract_lets was u
  split
  · split
    · exact later_each (later_thermSet l ..) (fun h _ m => later_thermBack m h) _
    · exact later_thermSet l ..
  · exact l
theorem later_dieReport (x : DieSample) : Later a (dieReport x s) := by
  unfold dieReport
  extract_lets u
  have noted : Later a u := (later_modDie ..).mpr l
  clear_value u
  split
  · split
    · exact later_thermOff noted ..
    · split
      · exact later_thermOffClear noted ..
      · exact later_thermSet noted ..
  · exact l
theorem later_senseStages (i : BoundaryInput) : Later a (senseStages i s) := by
  unfold senseStages
  extract_lets p z u
  have sensed : Later a u := later_port l id rfl rfl
  clear_value u
  exact (later_driveFrom _).mpr sensed
theorem later_readSome (n : Nat) (j : ReadJob) : Later a (readSome n j s).2 := by
  induction n generalizing j s with
  | zero => exact l
  | succ n ih =>
    simp only [readSome]
    split
    · exact l
    · exact ih (later_offer l ..) _
theorem later_readChunk (j : ReadJob) : Later a (readChunk j s) := by
  obtain ⟨⟨j', u⟩, turn⟩ : ∃ r, readSome 20 j s = r := ⟨_, rfl⟩
  have read : Later a u := by
    have m := later_readSome l 20 j
    rw [turn] at m
    exact m
  rw [readChunk_turn turn]
  split
  · exact later_complete ((later_free _).mpr read) ..
  · exact (later_modRec ..).mpr read
theorem later_readMore : Later a (readMore s) :=
  later_each ((later_modRec ..).mpr l) (fun j _ m => later_readChunk m j) _
end

end Sys2Proof.Machine
end

section
/-! SUPPORT. The epoch boundary (R199 to R203, R218, R223, R229). Settles O27 and O21. -/
namespace Sys2Proof.Machine

/-! ### The boundary, step by step -/

/-- An epoch begins: its number, its role, its sections with their latches. -/
def State.opened (seq ready : Nat) (floor : Option Nat) (secs : Vector Section 256) (s : State) : State :=
  { s with
    sections := secs
    phase := .running
    zl := { s.zl with role := s.zl.roleIn, readyRun := ready }
    epc := { s.epc with seq := seq, start := s.now, tick := 0, dropped := 0, lastCommit := none, quiet := false, engines := [] }
    aon := { s.aon with floor := floor } }

/-- What the boundary does once the snapshots are written. -/
def afterSnaps (i : BoundaryInput) (seq : Nat) (role was : BitVec 2) (s : State) : State :=
  let s := latchSet seq was (changeRole role was seq s)
  let s := if role = 2 ∧ was ≠ 2 then foldOver (allFin 256) (takeOverSec seq) s else s
  let s := linkBoundary seq { s with sections := tabulate 256 (fun n => cutSec s (s.sec (Fin.ofNat 256 n))) }
  let s := foldOver i.listens listenEpoch (foldOver i.leaks leakUpdate (decayTrims s))
  readMore (senseStages i (foldOver i.dies dieReport (foldOver i.drives driveEpoch s)))

theorem boundary_steps (i : BoundaryInput) (s : State) : ∃ (v : State) (seq ready : Nat) (f : Frame) (floor : Option Nat)
    (secs : Vector Section 256), v = endReads s ∧ seq = nextSeq v ∧ f = buildFrame v v.zl.roleIn seq ∧
    secs = tabulate 256 (fun n => releaseSec v (v.sec (Fin.ofNat 256 n))) ∧
    boundary i s = afterSnaps i seq v.zl.roleIn v.zl.role (writeSnaps (vspBoundary i f (tbBoundary seq (stormWindow seq
      (v.opened seq ready floor secs))))) := by
  unfold boundary
  extract_lets v seq role was frame ready z e a u
  have number : seq = nextSeq v := rfl
  have built : frame = buildFrame v v.zl.roleIn seq := rfl
  clear_value frame ready seq
  refine ⟨v, seq, ready, frame, if seq % 65536 = 0 then some seq else v.aon.floor,
    tabulate 256 (fun n => releaseSec v (v.sec (Fin.ofNat 256 n))), rfl, number, built, rfl, ?_⟩
  clear_value v
  rfl

section
variable {a s : State} (l : Later a s)
include l
theorem later_decayTrims : Later a (decayTrims s) := (later_heads _).mpr l
theorem later_linkBoundary (seq : Nat) : Later a (linkBoundary seq s) := (later_linkCount ..).mpr l
theorem later_afterSnaps (i : BoundaryInput) (seq : Nat) (role was : BitVec 2) : Later a (afterSnaps i seq role was s) := by
  unfold afterSnaps
  extract_lets u v
  have latched : Later a u := later_latchSet (later_changeRole l ..) ..
  clear_value u
  have taken : Later a v := by
    unfold v
    split
    · exact later_each latched (fun n _ m => later_takeOverSec m seq n) _
    · exact latched
  clear_value v
  refine later_readMore (later_senseStages (later_each (later_each (later_each (later_each (later_decayTrims
    (later_linkBoundary ((later_sections _).mpr taken) _)) (fun x _ m => later_leakUpdate m x) _)
    (fun x _ m => later_listenEpoch m x) _) (fun x _ m => later_driveEpoch m x) _) (fun x _ m => later_dieReport m x) _) _)
theorem later_takeSnap (w : Snap) : Later a (takeSnap w s) := later_complete l ..
end

/-- Between the opening of the epoch and the frame nothing of the timetable moves. -/
theorem gridded_table (i : BoundaryInput) (f : Frame) (seq : Nat) (s : State) :
    timetable (vspBoundary i f (tbBoundary seq (stormWindow seq s))) =
      { timetable s with frame := some f, old := s.vsp.frame } := by
  have table := (later_tbBoundary (later_stormWindow (.refl s) seq) seq).table
  generalize tbBoundary seq (stormWindow seq s) = u at table
  have framed : ∀ (a b c : LaneSt) (w : Word), timetable (flagVsp w { u with vsp := { u.vsp with
      a := a, b := b, c := c, old := u.vsp.frame, frame := some f } }) = { timetable u with frame := some f, old := u.vsp.frame } :=
    fun a b c w => ((later_flagVsp (a := { u with vsp := { u.vsp with
      a := a, b := b, c := c, old := u.vsp.frame, frame := some f } }) _ w).mpr (.refl _)).table
  have old : u.vsp.frame = s.vsp.frame := congrArg Timetable.frame table
  unfold vspBoundary
  extract_lets x y z v w
  refine (framed ..).trans ?_
  rw [table, old]

theorem endReads_now (s : State) : (endReads s).now = s.now := by
  have flagged : ∀ w (u : State), (flagVsp w u).now = u.now := fun w u => by simp [flagVsp]
  have one : ∀ l u, (endRead l u).now = u.now := fun l u => by
    unfold endRead
    split
    · split
      · exact flagged ..
      · rfl
    · rfl
  rw [endReads, one, one, one]

/-- Where the epoch's own boundary leaves the timetable, its snapshots written. -/
theorem boundary_table (i : BoundaryInput) (s : State) : ∃ f : Frame,
    f = buildFrame (endReads s) s.zl.roleIn (nextSeq s) ∧ timetable (boundary i s) = { timetable s with
      phase := .running, seq := nextSeq s, start := s.now, tick := 0, quiet := false, snaps := [], role := s.zl.roleIn
      frame := some f, old := s.vsp.frame } := by
  obtain ⟨v, seq, ready, f, floor, secs, ended, number, built, -, eq⟩ := boundary_steps i s
  have table : timetable v = timetable s := ended ▸ (later_endReads (.refl s)).table
  have now : v.now = s.now := ended ▸ endReads_now s
  have roleIn : v.zl.roleIn = s.zl.roleIn := congrArg Timetable.roleIn table
  have frame : v.vsp.frame = s.vsp.frame := congrArg Timetable.frame table
  have same : nextSeq v = nextSeq s := by
    have phase : v.phase = s.phase := congrArg Timetable.phase table
    have seq : v.epc.seq = s.epc.seq := congrArg Timetable.seq table
    simp only [nextSeq, phase, seq]
  refine ⟨f, by rw [built, number, same, roleIn, ended], ?_⟩
  have opened : timetable (v.opened seq ready floor secs) = { timetable v with
      phase := .running, seq := seq, start := v.now, tick := 0, quiet := false, role := v.zl.roleIn } := rfl
  have gridded := gridded_table i f seq (v.opened seq ready floor secs)
  rw [opened] at gridded
  rw [eq]
  generalize vspBoundary i f (tbBoundary seq (stormWindow seq (v.opened seq ready floor secs))) = w at gridded
  have written : Later { w with epc := { w.epc with snaps := [] } } (writeSnaps w) :=
    later_each (.refl _) (fun x _ m => later_takeSnap m x) _
  refine (later_afterSnaps written ..).table.trans ?_
  have cut : timetable { w with epc := { w.epc with snaps := [] } } = { timetable w with snaps := [] } := rfl
  rw [cut, gridded, table, roleIn, number, same, now]
  exact congrArg (fun o => ({ timetable s with
    phase := .running, seq := nextSeq s, start := s.now, tick := 0, quiet := false, snaps := [], role := s.zl.roleIn
    frame := some f, old := o } : Timetable)) frame

theorem epochBoundary_first {i : BoundaryInput} {s : State} (starting : s.phase = .starting) :
    epochBoundary i s = boundary i s := if_pos starting

theorem epochBoundary_due {i : BoundaryInput} {s : State} (running : s.phase = .running) (quiet : s.epc.quiet = true)
    (due : s.epc.start + 100000000 ≤ s.now) : epochBoundary i s = boundary i s := by
  have later : s.epc.start + us 100 ≤ s.now := due
  unfold epochBoundary
  rw [if_neg (by rw [running]; decide), if_pos later, quiet, if_pos rfl]

theorem epochBoundary_early {i : BoundaryInput} {s : State} (running : s.phase = .running)
    (early : s.now < s.epc.start + 100000000) : epochBoundary i s = s := by
  have soon : ¬ s.epc.start + us 100 ≤ s.now := Nat.not_le.mpr early
  unfold epochBoundary
  rw [if_neg (by rw [running]; decide), if_neg soon]

theorem nextSeq_running {s : State} (running : s.phase = .running) : nextSeq s = s.epc.seq + 1 :=
  if_neg (by rw [running]; decide)

theorem endReads_sections (s : State) : (endReads s).sections = s.sections := by
  have one : ∀ l u, (endRead l u).sections = u.sections := fun l u => by
    unfold endRead
    split
    · split
      · exact (sections_of_device (flagVsp_device _ _) :)
      · rfl
    · rfl
  rw [endReads, one, one, one]

/-- With role input 00 no code of a frame is permissive (R218). -/
theorem buildFrame_idle (s : State) (seq : Nat) (n : SecId) :
    tget (buildFrame s 0 seq).codes n = if (s.sec n).core.service then 0 else 3 := by
  have same : (Fin.ofNat 256 n.val : SecId) = n := Fin.ext (Nat.mod_eq_of_lt n.isLt)
  refine (tget_tabulate _ n).trans ?_
  rw [same, frameCode, if_neg (fun both => absurd both.1 (by decide)), if_pos rfl]

/-- Settles O27. -/
theorem epochBoundaryHolds : Obligations.Epoch_boundary := by
  intro t s i
  refine ⟨fun starting => ?_, fun running quiet due => ?_, fun running early => ?_⟩
  · have up : awake s = true := by simp [awake, starting]
    have run : exec (.epochBoundary t i) s = .next (boundary i (s.advance t)) :=
      (congrArg Host.Outcome.next (whenAwake_advance up)).trans (congrArg Host.Outcome.next (epochBoundary_first starting))
    obtain ⟨f, -, table⟩ := boundary_table i (s.advance t)
    have seq : nextSeq (s.advance t) = s.epc.seq := if_pos starting
    exact ⟨_, run, congrArg Timetable.phase table, (congrArg Timetable.seq table).trans seq, congrArg Timetable.start table,
      congrArg Timetable.tick table, congrArg Timetable.role table⟩
  · have run : exec (.epochBoundary t i) s = .next (boundary i (s.advance t)) :=
      (congrArg Host.Outcome.next (whenAwake_advance (awake_of_running running))).trans
        (congrArg Host.Outcome.next (epochBoundary_due (s := s.advance t) running quiet due))
    obtain ⟨f, built, table⟩ := boundary_table i (s.advance t)
    have seq := nextSeq_running (s := s.advance t) running
    refine ⟨_, f, run, congrArg Timetable.phase table, (congrArg Timetable.seq table).trans seq, congrArg Timetable.start table,
      congrArg Timetable.tick table, congrArg Timetable.quiet table, congrArg Timetable.role table,
      congrArg Timetable.frame table, congrArg Timetable.old table, ?_, fun idle n => ?_⟩
    · rw [built, seq]
      rfl
    · have none_ : (s.advance t).zl.roleIn = 0 := idle
      rw [built, none_, buildFrame_idle]
      exact congrArg (fun v => if (tget v n).core.service then (0 : BitVec 2) else 3) (endReads_sections (s.advance t))
  · exact (congrArg Host.Outcome.next (whenAwake_advance (awake_of_running running))).trans
      (congrArg Host.Outcome.next (epochBoundary_early (s := s.advance t) running early))

end Sys2Proof.Machine
end

section
/-! SUPPORT. Snapshots written at the boundary that ends a quiet window (R196, R201, R203). Settles O21. -/
namespace Sys2Proof.Machine

/-! ### What reaches the host port between the opening of an epoch and the snapshots -/

/-- The port, its orbits and writes, the supplies, the sections and a step of the time base that waits. -/
def portSide (s : State) : Hp × Vector Orbit 16 × List Out × Pwr × Clk × Vector Section 256 × Option TbStep :=
  (s.hp, s.orbits, s.out, s.pwr, s.clk, s.sections, s.tb.step)

section
variable (s : State)
theorem announce_portSide (src cls : Nat) (old new : Word) : portSide (announce src cls old new s) = portSide s := by
  have dev := announce_device s src cls old new
  simp only [portSide, announce_hp, announce_orbits, announce_out, pwr_of_device dev, clk_of_device dev,
    sections_of_device dev, tb_of_device dev]
theorem flagVsp_portSide (w : Word) : portSide (flagVsp w s) = portSide s :=
  (announce_portSide { s with vsp := { s.vsp with fault := s.vsp.fault ||| w } } ..).trans rfl
theorem flagTb_portSide (n : Nat) : portSide (flagTb n s) = portSide s :=
  (announce_portSide { s with tb := { s.tb with fault := s.tb.fault ||| bits n 1 } } ..).trans rfl
theorem tbEnter_portSide (st : TbState) : portSide (tbEnter st s) = portSide s := by
  have entered : portSide { s with tb := { s.tb with st := st, ppsGood := 0, freqHeld := false } } = portSide s := rfl
  cases st
  case locked => exact (flagTb_portSide ..).trans entered
  case holdover => exact (flagTb_portSide ..).trans entered
  all_goals exact entered
theorem anchored_portSide (n m : Nat) : portSide { s with tb := { s.tb with acc := n, accAt := m } } = portSide s := rfl
theorem tbAnchor_portSide : portSide (tbAnchor s) = portSide s := anchored_portSide ..
theorem rated_portSide (x y : Int) : portSide { s with tb := { s.tb with base := x, dev := y } } = portSide s := rfl
theorem setRate_portSide (base adj : Int) : portSide (setRate base adj s) = portSide s :=
  (rated_portSide (tbAnchor s) ..).trans (tbAnchor_portSide s)
theorem free_portSide (n : Nat) : portSide { s with free := n } = portSide s := rfl
theorem measureRef_portSide : portSide (measureRef s) = portSide s :=
  (free_portSide (setRate (Config.tbRate s.free) 0 s) _).trans (setRate_portSide ..)
theorem tbMode_portSide : portSide (tbMode s) = portSide s := by
  unfold tbMode
  extract_lets m old t u v
  have moded : portSide u = portSide s := rfl
  clear_value u
  split
  · rfl
  · split
    · exact (setRate_portSide ..).trans ((tbEnter_portSide ..).trans moded)
    · have measured : portSide v = portSide s := by
        unfold v
        split
        · exact (measureRef_portSide ..).trans moded
        · exact moded
      split
      · exact (tbEnter_portSide ..).trans measured
      · exact measured
theorem latched_portSide (l : List TbLatch) : portSide { s with tb := { s.tb with latches := l } } = portSide s := rfl
theorem tbBoundary_portSide (none_ : s.tb.step = none) (seq : Nat) : portSide (tbBoundary seq s) = portSide s := by
  have moded : portSide (tbMode (tbAnchor s)) = portSide s := (tbMode_portSide ..).trans (tbAnchor_portSide s)
  have still : (tbMode (tbAnchor s)).tb.step = none := (congrArg (fun p => p.2.2.2.2.2.2) moded).trans none_
  simp only [tbBoundary, still]
  exact (latched_portSide ..).trans moded
theorem stormWindow_portSide (seq : Nat) : portSide (stormWindow seq s) = portSide s := by
  unfold stormWindow
  split <;> rfl
theorem vspBoundary_portSide (i : BoundaryInput) (f : Frame) : portSide (vspBoundary i f s) = portSide s := by
  unfold vspBoundary
  extract_lets x y z v w
  have lanes : portSide w = portSide s := rfl
  clear_value w
  exact (flagVsp_portSide ..).trans lanes
theorem modLane_portSide (l : Lane) (f : LaneSt → LaneSt) : portSide (s.modLane l f) = portSide s := rfl
theorem endReads_portSide : portSide (endReads s) = portSide s := by
  have one : ∀ l u, portSide (endRead l u) = portSide u := fun l u => by
    unfold endRead
    split
    · split
      · exact (flagVsp_portSide ..).trans (modLane_portSide ..)
      · rfl
    · rfl
  rw [endReads, one, one, one]
end

/-! ### A snapshot that completes its command (R203) -/

section
variable {s : State} {e : InFlight} {x : Snap}

theorem writeCompletion_out (st : Status) (d : Nat) (resp : List Byte) (s : State) : ∃ post,
    (writeCompletion e st d resp s).out = post ++ (dmaRequests s.hp.maxPayload e.raddr [] resp).reverse ++ s.out := by
  obtain ⟨w, post, shape, out⟩ : ∃ (w : State) (post : List Out),
      writeCompletion e st d resp s = stepIndex (compOrbit e.orbit) w ∧
      w.out = post ++ ((dmaRequests s.hp.maxPayload e.raddr [] resp).reverse ++ s.out) := ⟨_, _, rfl, rfl⟩
  rw [shape, stepIndex_out, out]
  exact ⟨_, by rw [← List.append_assoc, ← List.append_assoc]⟩

theorem writeCompletion_inflight (st : Status) (d : Nat) (resp : List Byte) (s : State) :
    (writeCompletion e st d resp s).hp.inflight = s.hp.inflight := by
  obtain ⟨w, shape, hp⟩ : ∃ w : State, writeCompletion e st d resp s = stepIndex (compOrbit e.orbit) w ∧
      w.hp.inflight = s.hp.inflight := ⟨_, rfl, rfl⟩
  rw [shape, stepIndex_hp, hp]

theorem complete_inflight {seq : Nat} {st : Status} {d : Nat} {resp : List Byte} {rest : List InFlight}
    (took : takeFirst (fun c : InFlight => c.admSeq == seq) s.hp.inflight = some (e, rest)) :
    (complete seq st d resp s).hp.inflight = rest := by
  unfold complete
  rw [took]
  dsimp only
  obtain ⟨u, begun⟩ : ∃ u : State, u = { s with hp := { s.hp with
      inflight := rest, refused := if st = .refusedBusy then (s.hp.refused + 1) % 65536 else s.hp.refused } } := ⟨_, rfl⟩
  have gone : u.hp.inflight = rest := by rw [begun]
  rw [← begun]
  split
  · rfl
  · split <;> exact (writeCompletion_inflight ..).trans gone

/-- A snapshot's buffer. -/
def snapBytes (x : Snap) (s : State) : List Byte :=
  if x.ledger then ledgerBytes x.sec.val (s.sec x.sec).core s.epc.seq else leWords (secRegs (s.sec x.sec))

theorem takeSnap_eq : takeSnap x s = complete x.job .ok 0 (snapBytes x s) s := rfl

theorem takeFirst_one {job : Nat} (own : e.admSeq = job) :
    takeFirst (fun c : InFlight => c.admSeq == job) [e] = some (e, []) := by
  simp [takeFirst, own]

theorem leWords_length (l : List Word) : (leWords l).length = 4 * l.length := by
  induction l with
  | nil => rfl
  | cons w l ih =>
    rw [leWords, List.flatMap_cons, List.length_append]
    change (le 4 w.toNat).length + (leWords l).length = _
    rw [le_length, ih, List.length_cons]
    omega

theorem secRegs_bytes (x : Section) : (leWords (secRegs x)).length = 96 := by
  rw [leWords_length, secRegs_length]

/-- A boundary releases a section's trip latch and counts its epoch. -/
theorem releaseSec_keeps (s : State) (x : Section) : (releaseSec s x).core = x.core ∧ (releaseSec s x).cfg = x.cfg ∧
    (releaseSec s x).match_ = x.match_ ∧ (releaseSec s x).bind = x.bind ∧
    (releaseSec s x).quietEl = satNat 32 (x.quietEl + 1) ∧ ((releaseSec s x).latch = true → x.latch = true) := by
  unfold releaseSec
  extract_lets starts since log
  split
  · exact ⟨rfl, rfl, rfl, rfl, rfl, nofun⟩
  · exact ⟨rfl, rfl, rfl, rfl, rfl, id⟩
end

/-- The boundary that ends a quiet window writes the one snapshot that waits, from the state latched there. -/
theorem boundary_snap {i : BoundaryInput} {s : State} {x : Snap} {e : InFlight} (one : s.epc.snaps = [x])
    (busy : s.hp.inflight = [e]) (own : e.admSeq = x.job) (kept : e.lost = false) (master : canMaster s = true)
    (en : (s.orbit (compOrbit e.orbit)).en = true) (still : s.tb.step = none) :
    ∃ (v : State) (b : List Byte), v.sections = s.sections ∧
      b = (if x.ledger then ledgerBytes x.sec.val (s.sec x.sec).core (nextSeq s)
        else leWords (secRegs (releaseSec v (s.sec x.sec)))) ∧
      (boundary i s).epc.snaps = [] ∧ (boundary i s).hp.inflight = [] ∧
      (b.length ≤ e.rlen → ∃ post, (boundary i s).out = post ++ (dmaRequests s.hp.maxPayload e.raddr [] b).reverse ++ s.out) := by
  obtain ⟨v, seq, ready, f, floor, secs, ended, number, -, latched, eq⟩ := boundary_steps i s
  have port : portSide v = portSide s := ended ▸ endReads_portSide s
  have table : timetable v = timetable s := ended ▸ (later_endReads (.refl s)).table
  have secs' : v.sections = s.sections := congrArg (fun p => p.2.2.2.2.2.1) port
  obtain ⟨o, opened⟩ : ∃ o, o = v.opened seq ready floor secs := ⟨_, rfl⟩
  have oport : portSide o = (s.hp, s.orbits, s.out, s.pwr, s.clk, secs, none) := by
    have cut : portSide o = (v.hp, v.orbits, v.out, v.pwr, v.clk, secs, v.tb.step) := by rw [opened]; rfl
    simp only [portSide, Prod.mk.injEq] at port
    obtain ⟨hp, orbits, out, pwr, clk, -, step⟩ := port
    rw [cut, hp, orbits, out, pwr, clk, step, still]
  have otable : timetable o = { timetable v with
      phase := .running, seq := seq, start := v.now, tick := 0, quiet := false, role := v.zl.roleIn } := by rw [opened]; rfl
  have wport : portSide (vspBoundary i f (tbBoundary seq (stormWindow seq o))) = portSide o := by
    have step : (stormWindow seq o).tb.step = none := by
      have storm := stormWindow_portSide o seq
      rw [oport] at storm
      exact congrArg (fun p => p.2.2.2.2.2.2) storm
    exact (vspBoundary_portSide ..).trans ((tbBoundary_portSide _ step seq).trans (stormWindow_portSide o seq))
  have wtable := gridded_table i f seq o
  rw [← opened] at eq
  generalize vspBoundary i f (tbBoundary seq (stormWindow seq o)) = w at eq wport wtable
  rw [oport] at wport
  simp only [portSide, Prod.mk.injEq] at wport
  obtain ⟨hp, orbits, out, pwr, clk, sections, -⟩ := wport
  have snaps : w.epc.snaps = [x] := by
    have waiting := congrArg Timetable.snaps wtable
    rw [otable, table] at waiting
    exact waiting.trans one
  have wseq : w.epc.seq = seq := by
    have counted := congrArg Timetable.seq wtable
    rw [otable] at counted
    exact counted
  obtain ⟨y, cut⟩ : ∃ y : State, y = { w with epc := { w.epc with snaps := [] } } := ⟨_, rfl⟩
  have written : writeSnaps w = takeSnap x y := by
    rw [cut, writeSnaps, snaps]
    rfl
  have same : (Fin.ofNat 256 x.sec.val : SecId) = x.sec := Fin.ext (Nat.mod_eq_of_lt x.sec.isLt)
  have sec : y.sec x.sec = releaseSec v (s.sec x.sec) := by
    have sections' : y.sections = secs := by rw [cut]; exact sections
    rw [State.sec, sections', latched, tget_tabulate, same]
    exact congrArg (fun z => releaseSec v (tget z x.sec)) secs'
  have core : (y.sec x.sec).core = (s.sec x.sec).core := by
    rw [sec, (releaseSec_keeps ..).1]
  have yhp : y.hp = s.hp := by rw [cut]; exact hp
  have yout : y.out = s.out := by rw [cut]; exact out
  have yorb : y.orbits = s.orbits := by rw [cut]; exact orbits
  have yseq : y.epc.seq = nextSeq s := by
    have numbered : nextSeq v = nextSeq s := by
      have phase : v.phase = s.phase := congrArg Timetable.phase table
      have seq : v.epc.seq = s.epc.seq := congrArg Timetable.seq table
      simp only [nextSeq, phase, seq]
    rw [cut, ← numbered, ← number]
    exact wseq
  have took : takeFirst (fun c : InFlight => c.admSeq == x.job) y.hp.inflight = some (e, []) := by
    rw [yhp, busy]
    exact takeFirst_one own
  have ymaster : canMaster y = true := by
    have ypwr : y.pwr = s.pwr := by rw [cut]; exact pwr
    have yclk : y.clk = s.clk := by rw [cut]; exact clk
    simp only [canMaster, hostUp, yhp, ypwr, yclk]
    exact master
  have yen : (y.orbit (compOrbit e.orbit)).en = true := by
    simp only [State.orbit, yorb]
    exact en
  have ysnaps : (timetable (takeSnap x y)).snaps = [] := by
    rw [(later_takeSnap (.refl y) x).table, cut]
    rfl
  have bytes : snapBytes x y = if x.ledger then ledgerBytes x.sec.val (s.sec x.sec).core (nextSeq s)
      else leWords (secRegs (releaseSec v (s.sec x.sec))) := by
    rw [snapBytes, core, yseq, sec]
  have later := later_afterSnaps (.refl (takeSnap x y)) i seq v.zl.roleIn v.zl.role
  rw [← written, ← eq, written] at later
  refine ⟨v, snapBytes x y, secs', bytes, (congrArg Timetable.snaps later.table).trans ysnaps,
    later.idle (by rw [takeSnap_eq]; exact complete_inflight took), fun fits => ?_⟩
  obtain ⟨w', done_, hp', -, out', -⟩ := complete_writes (st := .ok) (d := 0) took kept ymaster yen fits (by decide)
  obtain ⟨post, wrote⟩ := writeCompletion_out (e := e) .ok 0 (snapBytes x y) w'
  obtain ⟨more, grown⟩ := later.out
  refine ⟨more ++ post, ?_⟩
  rw [← grown, takeSnap_eq, done_, wrote, hp', out', yhp, yout]
  simp only [List.append_assoc]

/-- Settles O21. -/
theorem sectionSnapshots : Obligations.Section_snapshots := by
  refine ⟨fun t c s n ha => ⟨fun A => ?_, fun A => ?_⟩, fun t i s x e running quiet due one busy own kept master en still => ?_⟩
  · exact waits_of (body := fun seq => withSec c.payload seq (fun n => askSnap { sec := n, ledger := false, job := seq })) A rfl
      fun e ob ir ou => by rw [withSec_named ha]; exact ⟨rfl, rfl⟩
  · exact waits_of (body := fun seq => withSec c.payload seq (fun n => askSnap { sec := n, ledger := true, job := seq })) A rfl
      fun e ob ir ou => by rw [withSec_named ha]; exact ⟨rfl, rfl⟩
  · have run : exec (.epochBoundary t i) s = .next (boundary i (s.advance t)) :=
      (congrArg Host.Outcome.next (whenAwake_advance (awake_of_running running))).trans
        (congrArg Host.Outcome.next (epochBoundary_due (s := s.advance t) running quiet due))
    have seq := nextSeq_running (s := s.advance t) running
    obtain ⟨v, b, sections, bytes, snaps, idle, wrote⟩ := boundary_snap (s := s.advance t) (i := i) one busy own kept master en still
    rw [seq] at bytes
    by_cases ledger : x.ledger = true
    · rw [if_pos ledger] at bytes
      by_cases fits : b.length ≤ e.rlen
      · obtain ⟨post, out⟩ := wrote fits
        exact ⟨_, post, run, snaps, idle, fun _ _ => by rw [out, bytes]; rfl, fun no => absurd (no.symm.trans ledger) (by decide)⟩
      · exact ⟨_, [], run, snaps, idle, fun _ fits' => absurd (bytes ▸ fits') fits,
          fun no => absurd (no.symm.trans ledger) (by decide)⟩
    · rw [if_neg ledger] at bytes
      by_cases fits : 96 ≤ e.rlen
      · obtain ⟨post, out⟩ := wrote (by rw [bytes, secRegs_bytes]; exact fits)
        obtain ⟨core, cfg, match_, bind, quiet, latch⟩ := releaseSec_keeps v (s.sec x.sec)
        exact ⟨_, post, run, snaps, idle, fun yes => absurd yes ledger, fun _ _ =>
          ⟨releaseSec v (s.sec x.sec), core, cfg, match_, bind, quiet, latch, by rw [out, bytes]; rfl⟩⟩
      · exact ⟨_, [], run, snaps, idle, fun yes => absurd yes ledger, fun _ fits' => absurd fits' fits⟩

end Sys2Proof.Machine
end

section
/-! SUPPORT. The working copy of a section: the count rule, the ledger match, what fails a section and its commands
(R169, R173 to R177, R180, R181, R186, R190, R192). -/
namespace Sys2Proof.Machine

/-! ### What an operation on the working copy leaves in the core -/

section
variable (s : State) (n : SecId) (cause : Option Item) (p : Priv)
@[simp] theorem rec__core (event code : Nat) : (p.rec_ s n event code cause).core = p.core := rfl
@[simp] theorem changed_core : (p.changed s n cause).core = p.core := rfl
@[simp] theorem done__core (job : Option Nat) (st : Status) (code : Nat) : (p.done_ job st code).core = p.core := rfl
@[simp] theorem resetOut_core (direct : Bool) (job : Option Nat) (st : Status) (code : Nat) :
    (p.resetOut s n direct job st code).core = p.core := rfl
@[simp] theorem tally_core : p.tally.core = p.core := rfl
@[simp] theorem flag_core (k : Nat) : (p.flag k).core = { p.core with fault := p.core.fault ||| bits k 1 } := rfl
@[simp] theorem emptied_core : p.emptied.core = { p.core with ledger := [], gen := (p.core.gen + 1) % 2 ^ 32 } := rfl
@[simp] theorem endEpisode_core : p.endEpisode.core = { p.core with
    ledger := [], gen := (p.core.gen + 1) % 2 ^ 32, maxc := 0, firstHead := 0, conf := false, nomatchEp := 0, susp := false } := rfl

/-- The flags that a state sets as it is entered (R198). -/
def SecState.flags : SecState → Word
  | .disturbed => bits 0 1
  | .clear => bits 1 1
  | .restoring => bits 2 1
  | .occupied => 0

@[simp] theorem go_core (st : SecState) : (p.go s n st cause).core = { p.core with
    state := st, stateEpoch := s.epc.seq % 2 ^ 32, fault := p.core.fault ||| st.flags } := by
  have none_ : p.core.fault ||| 0 = p.core.fault := BitVec.or_zero
  cases st
  case occupied =>
    rw [SecState.flags, none_]
    rfl
  all_goals rfl

/-- A fail to disturbed keeps the reason of a section that is DISTURBED already. -/
theorem fail_core (reason : Nat) : ∃ e f, (p.fail s n reason cause).core = { p.core with
    state := .disturbed, reason := if p.core.state = .disturbed then p.core.reason else reason, stateEpoch := e, fault := f } := by
  unfold Priv.fail
  split
  next already => exact ⟨p.core.stateEpoch, p.core.fault, by rw [← already]⟩
  next fresh => exact ⟨_, _, go_core ..⟩

/-- What becomes of the section's own values through the ledger's operations: count, state and what hangs on them stay. -/
structure SecCore.Tallied (c d : SecCore) : Prop where
  count : d.count = c.count
  state : d.state = c.state
  reason : d.reason = c.reason
  service : d.service = c.service
  susp : d.susp = c.susp
  conf : d.conf = c.conf
  transOut : d.transOut = c.transOut

theorem outcome_tallied (c : SecCore) (o : Nat) : c.Tallied (c.outcome o) := by
  unfold SecCore.outcome
  split <;> exact ⟨rfl, rfl, rfl, rfl, rfl, rfl, rfl⟩

/-- Matching removes an entry, counts its outcome and flags a mismatch. -/
theorem matching_core (cfg m : Word) (it : Item) (sig : List Byte) (before : Int) :
    let r : Match := if before ≤ 0 then { outcome := 6, idx := none, dist := 0xFFFF, rows := 0 }
      else if p.core.susp then { outcome := 5, idx := none, dist := 0xFFFF, rows := 0 } else matchAxle m sig p.core.ledger
    ∃ g, (p.matching s n cfg m it sig before).core = { p.core.outcome r.outcome with
      fault := if r.outcome = 3 then (p.core.outcome r.outcome).fault ||| bits 3 1 else (p.core.outcome r.outcome).fault
      ledger := match r.idx with
        | some i => (p.core.outcome r.outcome).ledger.eraseIdx i
        | none => (p.core.outcome r.outcome).ledger
      gen := g } := by
  intro r
  unfold Priv.matching
  extract_lets u v c w
  clear_value r
  have flagged : ∃ f, v.core = { p.core.outcome r.outcome with fault := f } ∧
      f = if r.outcome = 3 then (p.core.outcome r.outcome).fault ||| bits 3 1 else (p.core.outcome r.outcome).fault := by
    unfold v
    split
    · exact ⟨_, rfl, rfl⟩
    · exact ⟨_, rfl, rfl⟩
  obtain ⟨f, vcore, flag⟩ := flagged
  rw [← flag]
  have removed : ∃ g, w.core = { p.core.outcome r.outcome with
      fault := f
      ledger := match r.idx with
        | some i => (p.core.outcome r.outcome).ledger.eraseIdx i
        | none => (p.core.outcome r.outcome).ledger
      gen := g } := by
    unfold w
    split
    next i found => exact ⟨((p.core.outcome r.outcome).gen + 1) % 2 ^ 32, by simp only [found, c, vcore]⟩
    next found => exact ⟨(p.core.outcome r.outcome).gen, by simp only [found, vcore]⟩
  clear_value w
  split
  · exact removed
  · exact removed

theorem matching_tallied (cfg m : Word) (it : Item) (sig : List Byte) (before : Int) :
    p.core.Tallied (p.matching s n cfg m it sig before).core := by
  obtain ⟨g, core⟩ := matching_core s n p cfg m it sig before
  rw [core]
  obtain ⟨count, state, reason, service, susp, conf, transOut⟩ := outcome_tallied p.core
    (if before ≤ 0 then { outcome := 6, idx := none, dist := 0xFFFF, rows := 0 }
      else if p.core.susp then { outcome := 5, idx := none, dist := 0xFFFF, rows := 0 } else matchAxle m sig p.core.ledger : Match).outcome
  exact ⟨count, state, reason, service, susp, conf, transOut⟩
end

/-! ### One item (R173, R174) -/

section
variable {s : State} {n : SecId} {it : Item} {p : Priv}

theorem evaluate_one (one : OneItem s n it) :
    (evaluate s n).core = ((Priv.start (s.sec n).core).item s n (s.sec n) it).core := by
  obtain ⟨served, over_, cmds, intake⟩ := one
  have service : (Priv.start (s.sec n).core).core.service = true := served
  simp only [evaluate, cmds, List.foldl_nil, service, over_, intake, if_true, Bool.false_eq_true, if_false]
  rfl

theorem item_in {rev : Bool} {sig : List Byte} {out : Bool} {x : Section} (kind : it.kind = .transit rev sig)
    (bound : signOf x it.head = some out) (in_ : rev = out) : p.item s n x it = p.addAxle s n x.cfg x.match_ it sig := by
  simp only [Priv.item, kind, bound, in_, beq_self_eq_true, if_true]

theorem item_out {rev : Bool} {sig : List Byte} {out : Bool} {x : Section} (kind : it.kind = .transit rev sig)
    (bound : signOf x it.head = some out) (out_ : rev ≠ out) :
    p.item s n x it = p.removeAxle s n x.cfg x.match_ (bindings x == 1) it sig := by
  have no : (rev == out) = false := beq_eq_false_iff_ne.mpr out_
  simp only [Priv.item, kind, bound, no, Bool.false_eq_true, if_false]

/-! ### An axle more (R174, R175) -/

theorem enterLedger_core (m : Word) (sig : List Byte) : ∃ l g b f, (p.enterLedger s n m it sig).core = { p.core with
    ledger := l, gen := g, susp := b, fault := f } ∧ (p.core.ledger.length < 1024 → l = p.core.ledger ++
      [{ sig := sig, head := it.head, wildcard := !usableSig m sig, brake := brakeSig sig,
         epoch := BitVec.ofNat 16 s.epc.seq }]) := by
  unfold Priv.enterLedger
  split
  next full => exact ⟨_, _, _, _, rfl, fun room => absurd full (Nat.not_le.mpr room)⟩
  next => exact ⟨_, _, p.core.susp, p.core.fault, rfl, fun _ => rfl⟩

theorem addAxle_core (cfg m : Word) (sig : List Byte) (room : p.core.count < 32767) :
    (p.addAxle s n cfg m it sig).core.count = p.core.count + 1 ∧
    (p.addAxle s n cfg m it sig).core.transIn = (p.core.transIn + 1) % 2 ^ 32 ∧
    (p.addAxle s n cfg m it sig).core.state = (if p.core.state = .clear then .occupied else p.core.state) ∧
    (secMode cfg ≠ 0 → p.core.susp = false → 0 ≤ p.core.count → p.core.ledger.length < 1024 →
      (p.addAxle s n cfg m it sig).core.ledger = p.core.ledger ++
        [{ sig := sig, head := it.head, wildcard := !usableSig m sig, brake := brakeSig sig,
           epoch := BitVec.ofNat 16 s.epc.seq }]) := by
  unfold Priv.addAxle
  extract_lets c u c1 c2 v w
  have counted : w.core.count = p.core.count + 1 ∧ w.core.transIn = (p.core.transIn + 1) % 2 ^ 32 ∧
      w.core.state = p.core.state ∧
      (secMode cfg ≠ 0 → p.core.susp = false → 0 ≤ p.core.count → p.core.ledger.length < 1024 →
        w.core.ledger = p.core.ledger ++
          [{ sig := sig, head := it.head, wildcard := !usableSig m sig, brake := brakeSig sig,
             epoch := BitVec.ofNat 16 s.epc.seq }]) := by
    unfold w
    split
    · obtain ⟨l, g, b, f, core, entry⟩ := enterLedger_core (s := s) (n := n) (it := it) (p := v) m sig
      rw [core]
      exact ⟨rfl, rfl, rfl, fun _ _ _ few => entry few⟩
    next not_ => exact ⟨rfl, rfl, rfl, fun mode on some_ _ => absurd ⟨mode, on, (by
      change 1 ≤ p.core.count + 1
      omega)⟩ not_⟩
  clear_value w
  obtain ⟨count, transIn, state, ledger⟩ := counted
  rw [if_neg (by change ¬ (32767 : Int) ≤ p.core.count; omega)]
  change (if p.core.state = .clear then w.go s n .occupied (some it) else w).core.count = _ ∧
    (if p.core.state = .clear then w.go s n .occupied (some it) else w).core.transIn = _ ∧
    (if p.core.state = .clear then w.go s n .occupied (some it) else w).core.state = _ ∧ _
  split
  · rw [go_core]
    exact ⟨count, transIn, rfl, ledger⟩
  · exact ⟨count, transIn, state, ledger⟩

theorem addAxle_full (cfg m : Word) (sig : List Byte) (full : p.core.count = 32767) :
    (p.addAxle s n cfg m it sig).core.count = 32767 ∧ (p.addAxle s n cfg m it sig).core.state = .disturbed ∧
    (p.core.state ≠ .disturbed → (p.addAxle s n cfg m it sig).core.reason = 5) := by
  unfold Priv.addAxle
  extract_lets c u c1 c2 v w
  rw [if_pos (by change (32767 : Int) ≤ p.core.count; omega)]
  obtain ⟨e, f, core⟩ := fail_core s n (some it) u 5
  rw [core]
  exact ⟨full, rfl, fun fresh => if_neg fresh⟩

/-! ### An axle less (R174 to R177, R181) -/

/-- The working copy once an axle has left, its entry removed. -/
def Priv.left (s : State) (n : SecId) (cfg m : Word) (it : Item) (sig : List Byte) (p : Priv) : Priv :=
  let c := p.core
  let p : Priv := { p with core := { c with
    transOut := (c.transOut + 1) % 2 ^ 32
    count := c.count - 1
    maxc := if c.count = 0 then c.count - 1 else max c.maxc (c.count - 1)
    conf := c.conf || (decide (1 ≤ c.count) && it.head.val != c.firstHead) } }
  if secMode cfg ≠ 0 then p.matching s n cfg m it sig c.count else p

theorem removeAxle_left (cfg m : Word) (single : Bool) (sig : List Byte) (room : -32767 < p.core.count) :
    p.removeAxle s n cfg m single it sig =
      if p.core.count = 1 then (p.left s n cfg m it sig).lastOut s n cfg single it
      else if p.core.count - 1 < 0 ∧ (p.core.state = .clear ∨ p.core.state = .restoring) then
        (p.left s n cfg m it sig).fail s n 4 (some it)
      else p.left s n cfg m it sig := by
  unfold Priv.removeAxle
  exact if_neg (by omega)

theorem left_core (cfg m : Word) (sig : List Byte) : (p.left s n cfg m it sig).core.count = p.core.count - 1 ∧
    (p.left s n cfg m it sig).core.state = p.core.state ∧ (p.left s n cfg m it sig).core.reason = p.core.reason ∧
    (p.left s n cfg m it sig).core.susp = p.core.susp ∧
    (p.left s n cfg m it sig).core.conf = (p.core.conf || (decide (1 ≤ p.core.count) && it.head.val != p.core.firstHead)) ∧
    (p.left s n cfg m it sig).core.transOut = (p.core.transOut + 1) % 2 ^ 32 := by
  unfold Priv.left
  extract_lets c u
  split
  · obtain ⟨count, state, reason, -, susp, conf, transOut⟩ := matching_tallied s n u cfg m it sig c.count
    exact ⟨count, state, reason, susp, conf, transOut⟩
  · exact ⟨rfl, rfl, rfl, rfl, rfl, rfl⟩

theorem removeAxle_more (cfg m : Word) (single : Bool) (sig : List Byte) (room : -32767 < p.core.count)
    (not_one : p.core.count ≠ 1) :
    (p.removeAxle s n cfg m single it sig).core.count = p.core.count - 1 ∧
    (p.removeAxle s n cfg m single it sig).core.transOut = (p.core.transOut + 1) % 2 ^ 32 ∧
    (p.removeAxle s n cfg m single it sig).core.state =
      (if p.core.count < 1 ∧ (p.core.state = .clear ∨ p.core.state = .restoring) then .disturbed else p.core.state) := by
  obtain ⟨count, state, -, -, -, transOut⟩ := left_core (s := s) (n := n) (it := it) (p := p) cfg m sig
  have below : (p.core.count < 1 ∧ (p.core.state = .clear ∨ p.core.state = .restoring)) ↔
      (p.core.count - 1 < 0 ∧ (p.core.state = .clear ∨ p.core.state = .restoring)) := and_congr_left' (by omega)
  rw [removeAxle_left cfg m single sig room, if_neg not_one, if_congr below rfl rfl]
  split
  · obtain ⟨e, f, core⟩ := fail_core s n (some it) (p.left s n cfg m it sig) 4
    rw [core]
    exact ⟨count, transOut, rfl⟩
  · exact ⟨count, transOut, state⟩

theorem removeAxle_bottom (cfg m : Word) (single : Bool) (sig : List Byte) (bottom : p.core.count = -32767) :
    (p.removeAxle s n cfg m single it sig).core.count = -32767 ∧
    (p.removeAxle s n cfg m single it sig).core.state = .disturbed ∧
    (p.core.state ≠ .disturbed → (p.removeAxle s n cfg m single it sig).core.reason = 5) := by
  unfold Priv.removeAxle
  extract_lets c u c1 v w
  rw [if_pos (by change p.core.count ≤ -32767; omega)]
  have matched : (if secMode cfg ≠ 0 then u.matching s n cfg m it sig c.count else u).core.count = p.core.count ∧
      (if secMode cfg ≠ 0 then u.matching s n cfg m it sig c.count else u).core.state = p.core.state := by
    split
    · obtain ⟨count, state, -⟩ := matching_tallied s n u cfg m it sig c.count
      exact ⟨count, state⟩
    · exact ⟨rfl, rfl⟩
  obtain ⟨count, state⟩ := matched
  obtain ⟨e, f, core⟩ := fail_core s n (some it) (if secMode cfg ≠ 0 then u.matching s n cfg m it sig c.count else u) 5
  rw [core]
  exact ⟨count.trans bottom, rfl, fun fresh => if_neg (by rw [state]; exact fresh)⟩

/-- The transit that brings COUNT to 0 ends the episode, in a state of R181. -/
theorem lastOut_core (cfg : Word) (single : Bool) :
    let q := (p.lastOut s n cfg single it).core
    q.count = p.core.count ∧ q.ledger = [] ∧ q.susp = false ∧ q.conf = false ∧ q.nomatchEp = 0 ∧ q.maxc = 0 ∧
    (p.core.state = .disturbed → q.state = .disturbed ∧ q.reason = p.core.reason) ∧
    (¬ (secMode cfg = 2 ∧ p.core.susp = false ∧ fld cfg 12 4 < p.core.nomatchEp) → p.core.state ≠ .disturbed →
      q.state = if p.core.state = .occupied ∨ p.core.conf = true ∨ single = true then .clear else p.core.state) ∧
    (secMode cfg = 2 ∧ p.core.susp = false ∧ fld cfg 12 4 < p.core.nomatchEp → p.core.state ≠ .disturbed →
      q.state = .disturbed ∧ q.reason = 9) := by
  intro q
  obtain ⟨u, shape, count, rules⟩ : ∃ u : Priv, p.lastOut s n cfg single it = u.endEpisode ∧ u.core.count = p.core.count ∧
      (p.core.state = .disturbed → u.core.state = .disturbed ∧ u.core.reason = p.core.reason) ∧
      (¬ (secMode cfg = 2 ∧ p.core.susp = false ∧ fld cfg 12 4 < p.core.nomatchEp) → p.core.state ≠ .disturbed →
        u.core.state = if p.core.state = .occupied ∨ p.core.conf = true ∨ single = true then .clear else p.core.state) ∧
      (secMode cfg = 2 ∧ p.core.susp = false ∧ fld cfg 12 4 < p.core.nomatchEp → p.core.state ≠ .disturbed →
        u.core.state = .disturbed ∧ u.core.reason = 9) := by
    refine ⟨_, rfl, ?_⟩
    split
    next dist => exact ⟨rfl, fun _ => ⟨dist, rfl⟩, fun _ fresh => absurd dist fresh, fun _ fresh => absurd dist fresh⟩
    next fresh =>
      split
      next strict =>
        obtain ⟨e, f, core⟩ := fail_core s n (some it) (p.flag 5) 9
        rw [core]
        exact ⟨rfl, fun dist => absurd dist fresh, fun lax => absurd strict lax, fun _ _ => ⟨rfl, if_neg fresh⟩⟩
      next lax =>
        split
        next clears =>
          split
          next clear => exact ⟨rfl, fun dist => absurd dist fresh, fun _ _ => clear,
            fun strict => absurd strict lax⟩
          next => exact ⟨by rw [go_core], fun dist => absurd dist fresh, fun _ _ => by rw [go_core],
            fun strict => absurd strict lax⟩
        next stays => exact ⟨rfl, fun dist => absurd dist fresh, fun _ _ => rfl,
          fun strict => absurd strict lax⟩
  have core : q = u.endEpisode.core := congrArg Priv.core shape
  rw [core, endEpisode_core]
  exact ⟨count, rfl, rfl, rfl, rfl, rfl, rules.1, rules.2.1, rules.2.2⟩

/-- An outcome never lowers the count of mismatches of the episode below a limit of four bits that it is above. -/
theorem outcome_nomatchEp {c : SecCore} {k : Nat} (small : k < 16) (above : k < c.nomatchEp) (o : Nat) :
    k < (c.outcome o).nomatchEp := by
  unfold SecCore.outcome
  split
  case h_4 =>
    change k < satNat 16 (c.nomatchEp + 1)
    unfold satNat
    omega
  all_goals exact above

theorem left_nomatchEp (cfg m : Word) (sig : List Byte) {k : Nat} (small : k < 16) (above : k < p.core.nomatchEp) :
    k < (p.left s n cfg m it sig).core.nomatchEp := by
  unfold Priv.left
  extract_lets c u
  split
  · obtain ⟨g, core⟩ := matching_core s n u cfg m it sig c.count
    rw [core]
    exact outcome_nomatchEp (c := u.core) small above _
  · exact above

theorem removeAxle_last (cfg m : Word) (single : Bool) (sig : List Byte) (one : p.core.count = 1) :
    let q := (p.removeAxle s n cfg m single it sig).core
    q.count = 0 ∧ q.ledger = [] ∧ q.susp = false ∧ q.conf = false ∧ q.nomatchEp = 0 ∧ q.maxc = 0 ∧
    (p.core.state = .disturbed → q.state = .disturbed ∧ q.reason = p.core.reason) ∧
    (secMode cfg ≠ 2 → p.core.state = .occupied → q.state = .clear) ∧
    (secMode cfg ≠ 2 → p.core.state = .restoring → q.state =
      if p.core.conf = true ∨ it.head.val ≠ p.core.firstHead ∨ single = true then .clear else .restoring) ∧
    (secMode cfg = 2 → p.core.susp = false → fld cfg 12 4 < p.core.nomatchEp → p.core.state ≠ .disturbed →
      q.state = .disturbed ∧ q.reason = 9) := by
  intro q
  have shape : p.removeAxle s n cfg m single it sig = (p.left s n cfg m it sig).lastOut s n cfg single it :=
    (removeAxle_left cfg m single sig (by omega)).trans (if_pos one)
  obtain ⟨count, state, reason, susp, conf, -⟩ := left_core (s := s) (n := n) (it := it) (p := p) cfg m sig
  obtain ⟨last, ledger, susp', conf', nomatch_, maxc, dist, lax, strict⟩ :=
    lastOut_core (s := s) (n := n) (it := it) (p := p.left s n cfg m it sig) cfg single
  have is : q = ((p.left s n cfg m it sig).lastOut s n cfg single it).core := congrArg Priv.core shape
  rw [state, reason] at dist
  rw [state, conf, susp] at lax
  rw [state, susp] at strict
  have single_conf : (p.core.conf || (decide (1 ≤ p.core.count) && it.head.val != p.core.firstHead)) = true ↔
      p.core.conf = true ∨ it.head.val ≠ p.core.firstHead := by
    rw [Bool.or_eq_true, Bool.and_eq_true, decide_eq_true_eq, bne_iff_ne, and_iff_right (by omega)]
  rw [is]
  refine ⟨last.trans (by omega), ledger, susp', conf', nomatch_, maxc, dist, fun mode occupied => ?_,
    fun mode restoring => ?_, fun mode on above fresh => ?_⟩
  · rw [lax (fun h => mode h.1) (by rw [occupied]; decide), if_pos (.inl occupied)]
  · rw [lax (fun h => mode h.1) (by rw [restoring]; decide), restoring]
    exact if_congr (by rw [or_iff_right (by decide), single_conf, or_assoc]) rfl rfl
  · exact strict ⟨mode, on, left_nomatchEp cfg m sig (fld_lt cfg 12 4) above⟩ fresh
end

theorem countRule (s : State) (n : SecId) : CountRule s n := by
  intro it rev sig out one kind bound c e m
  have eval : e = ((Priv.start c).item s n (s.sec n) it).core := evaluate_one one
  have adds : rev = out → e = ((Priv.start c).addAxle s n (s.sec n).cfg (s.sec n).match_ it sig).core :=
    fun in_ => eval.trans (congrArg Priv.core (item_in kind bound in_))
  have removes : rev ≠ out →
      e = ((Priv.start c).removeAxle s n (s.sec n).cfg (s.sec n).match_ (bindings (s.sec n) == 1) it sig).core :=
    fun out_ => eval.trans (congrArg Priv.core (item_out kind bound out_))
  refine ⟨fun in_ room => ?_, fun in_ full => ?_, fun out_ room not_one => ?_, fun out_ bottom => ?_, fun out_ last => ?_⟩
  · rw [adds in_]
    exact addAxle_core (p := Priv.start c) _ _ sig room
  · rw [adds in_]
    exact addAxle_full (p := Priv.start c) _ _ sig full
  · rw [removes out_]
    exact removeAxle_more (p := Priv.start c) _ _ _ sig room not_one
  · rw [removes out_]
    exact removeAxle_bottom (p := Priv.start c) _ _ _ sig bottom
  · rw [removes out_]
    have rules := removeAxle_last (s := s) (n := n) (it := it) (p := Priv.start c) (s.sec n).cfg (s.sec n).match_
      (bindings (s.sec n) == 1) sig last
    simp only [beq_iff_eq] at rules
    exact rules

end Sys2Proof.Machine
end

section
/-! SUPPORT. Which entry of the ledger a leaving axle removes (R176, R177). -/
namespace Sys2Proof.Machine

section
variable {x : List Byte} {l1 l2 : List Entry} {w : Entry}

/-! ### The nearest of some entries -/

/-- One step of the search for the nearest entry. -/
def nearer (x : List Byte) (best : Option (Nat × Nat)) (p : Entry × Nat) : Option (Nat × Nat) :=
  match best with
  | none => some (entryDist x p.1, p.2)
  | some b => if entryDist x p.1 < b.1 then some (entryDist x p.1, p.2) else best

theorem nearest_eq (x : List Byte) (l : Placed) : nearest x l = l.foldl (nearer x) none := by
  unfold nearest
  congr 1

theorem nearest_stays {b : Nat × Nat} {l : Placed} (far : ∀ q ∈ l, b.1 ≤ entryDist x q.1) :
    l.foldl (nearer x) (some b) = some b := by
  induction l with
  | nil => rfl
  | cons q l ih =>
    have first : nearer x (some b) q = some b := if_neg (Nat.not_lt.mpr (far q List.mem_cons_self))
    rw [List.foldl_cons, first]
    exact ih fun r mem => far r (List.mem_cons_of_mem q mem)

/-- What the search has found is one of the entries it has seen. -/
theorem nearest_found {l : Placed} {best : Option (Nat × Nat)} {P : Nat → Prop} (seen : ∀ b ∈ best, P b.1)
    (all : ∀ q ∈ l, P (entryDist x q.1)) : ∀ b ∈ l.foldl (nearer x) best, P b.1 := by
  induction l generalizing best with
  | nil => exact seen
  | cons q l ih =>
    have first : ∀ b ∈ nearer x best q, P b.1 := by
      unfold nearer
      split
      · rintro b ⟨⟩
        exact all q List.mem_cons_self
      next b =>
        split
        · rintro b ⟨⟩
          exact all q List.mem_cons_self
        · exact seen
    exact ih first fun r mem => all r (List.mem_cons_of_mem q mem)

/-- The nearest entry: the earlier ones are farther, the later ones not nearer. -/
theorem nearest_of {a b : Placed} {p : Entry × Nat} (older : ∀ q ∈ a, entryDist x p.1 < entryDist x q.1)
    (newer : ∀ q ∈ b, entryDist x p.1 ≤ entryDist x q.1) : nearest x (a ++ p :: b) = some (entryDist x p.1, p.2) := by
  rw [nearest_eq, List.foldl_append, List.foldl_cons]
  have found := nearest_found (x := x) (best := none) (P := (entryDist x p.1 < ·)) nofun older
  have next : nearer x (a.foldl (nearer x) none) p = some (entryDist x p.1, p.2) := by
    cases seen : a.foldl (nearer x) none with
    | none => rfl
    | some best => exact if_pos (found best seen)
  rw [next]
  exact nearest_stays newer

/-! ### The entries in their places -/

/-- The entries of a part of the ledger that a test takes, with their places from `k` on. -/
def taken (f : Entry → Bool) (l : List Entry) (k : Nat) : Placed := (l.zipIdx k).filter (fun p => f p.1)

theorem usableAt_eq (l : List Entry) : usableAt l = taken (fun e => !e.wildcard) l 0 := rfl
theorem wildAt_eq (l : List Entry) : wildAt l = taken (fun e => e.wildcard) l 0 := rfl

variable {f : Entry → Bool}

theorem taken_append (l l' : List Entry) (k : Nat) : taken f (l ++ l') k = taken f l k ++ taken f l' (k + l.length) := by
  rw [taken, List.zipIdx_append, List.filter_append]
  rfl

theorem taken_cons (e : Entry) (l : List Entry) (k : Nat) :
    taken f (e :: l) k = if f e then (e, k) :: taken f l (k + 1) else taken f l (k + 1) := by
  rw [taken, List.zipIdx_cons, List.filter_cons]
  rfl

theorem taken_nil {l : List Entry} {k : Nat} (none_ : ∀ e ∈ l, f e = false) : taken f l k = [] :=
  List.filter_eq_nil_iff.mpr fun p mem => by rw [none_ p.1 (List.fst_mem_of_mem_zipIdx mem)]; exact Bool.false_ne_true

theorem mem_taken {l : List Entry} {k : Nat} {p : Entry × Nat} (mem : p ∈ taken f l k) : p.1 ∈ l ∧ f p.1 = true :=
  ⟨List.fst_mem_of_mem_zipIdx (List.mem_filter.mp mem).1, (List.mem_filter.mp mem).2⟩

/-- The first entry that the test takes has only others before it. -/
theorem taken_head {l : List Entry} {k : Nat} {p : Entry × Nat} (first : (taken f l k).head? = some p) :
    ∃ l3 l4, l = l3 ++ p.1 :: l4 ∧ (∀ e ∈ l3, f e = false) := by
  obtain ⟨rest, cons⟩ := List.head?_eq_some_iff.mp first
  obtain ⟨m3, m4, split_, none_, -, -⟩ := List.filter_eq_cons_iff.mp cons
  refine ⟨m3.map Prod.fst, m4.map Prod.fst, ?_, fun e mem => ?_⟩
  · rw [← List.zipIdx_map_fst k l, split_, List.map_append, List.map_cons]
  · obtain ⟨q, in_, rfl⟩ := List.mem_map.mp mem
    exact Bool.eq_false_iff.mpr (none_ q in_)

/-- The last entry that the test takes has only others after it. -/
theorem taken_last {l : List Entry} {k : Nat} {p : Entry × Nat} (last : (taken f l k).getLast? = some p) :
    ∃ l3 l4, l = l3 ++ p.1 :: l4 ∧ (∀ e ∈ l4, f e = false) := by
  obtain ⟨init, snoc⟩ := List.getLast?_eq_some_iff.mp last
  obtain ⟨m, m', split_, -, end_⟩ := List.filter_eq_append_iff.mp snoc
  obtain ⟨m3, m4, cons, -, -, none_⟩ := List.filter_eq_cons_iff.mp end_
  refine ⟨(m ++ m3).map Prod.fst, m4.map Prod.fst, ?_, fun e mem => ?_⟩
  · rw [← List.zipIdx_map_fst k l, split_, cons, ← List.append_assoc, List.map_append, List.map_cons]
  · obtain ⟨q, in_, rfl⟩ := List.mem_map.mp mem
    exact Bool.eq_false_iff.mpr (List.filter_eq_nil_iff.mp none_ q in_)

/-- An entry that the test takes stands between those taken on either side. -/
theorem taken_middle (l1 l2 : List Entry) (take : f w = true) :
    taken f (l1 ++ w :: l2) 0 = taken f l1 0 ++ (w, l1.length) :: taken f l2 (l1.length + 1) := by
  rw [taken_append, taken_cons, if_pos take, Nat.zero_add]

/-! ### The entry removed -/

variable {m : Word}

/-- A leaving axle removes the entry at place `i` with an outcome. -/
def Removes (m : Word) (x : List Byte) (l : List Entry) (o i : Nat) : Prop :=
  (matchAxle m x l).outcome = o ∧ (matchAxle m x l).idx = some i

/-- An entry that a leaving axle's signature is within the tolerance of. -/
def withinTol (m : Word) (x : List Byte) (e : Entry) : Prop := e.wildcard = false ∧ entryDist x e ≤ tolOf m x e

theorem matchAxle_unusable {l : List Entry} {i : Nat} (some_ : l ≠ []) (bad : usableSig m x = false)
    (place : (wildAt l).getLast?.map Prod.snd = some i ∨ (wildAt l) = [] ∧ i = 0) : Removes m x l 4 i := by
  have full : l.isEmpty = false := by cases l with
    | nil => exact absurd rfl some_
    | cons => rfl
  unfold Removes matchAxle
  simp only [full, bad, Bool.false_eq_true, if_false, Bool.not_false, if_true]
  rcases place with last | ⟨none_, rfl⟩
  · cases found : (wildAt l).getLast? with
    | none =>
      rw [found] at last
      cases last
    | some p =>
      rw [found] at last
      exact ⟨rfl, last⟩
  · rw [none_]
    exact ⟨rfl, rfl⟩

/-- The entries of some that are within the tolerance. -/
def inTol (m : Word) (x : List Byte) (l : Placed) : Placed := l.filter (fun p => decide (entryDist x p.1 ≤ tolOf m x p.1))

/-- The oldest and the newest of some entries. -/
def outer (l : Placed) : Placed := l.head?.toList ++ l.getLast?.toList

theorem matchAxle_usable {l : List Entry} (some_ : l ≠ []) (good : usableSig m x = true) :
    (∀ b, nearest x (inTol m x (outer (usableAt l))) = some b → Removes m x l 0 b.2) ∧
    (nearest x (inTol m x (outer (usableAt l))) = none →
      (∀ b, nearest x (inTol m x (usableAt l)) = some b → Removes m x l 1 b.2) ∧
      (nearest x (inTol m x (usableAt l)) = none →
        (∀ p, (wildAt l).head? = some p → Removes m x l 2 p.2) ∧
        ((wildAt l).head? = none → ∀ b, nearest x (usableAt l) = some b → Removes m x l 3 b.2))) := by
  have full : l.isEmpty = false := by cases l with
    | nil => exact absurd rfl some_
    | cons => rfl
  unfold Removes matchAxle
  simp only [full, good, Bool.false_eq_true, if_false, Bool.not_true]
  refine ⟨fun b ends => ?_, fun noEnds => ⟨fun b near => ?_, fun noNear => ⟨fun p wild => ?_, fun noWild b far => ?_⟩⟩⟩
  · rw [show nearest x (List.filter _ ((usableAt l).head?.toList ++ _)) = _ from ends]
    exact ⟨rfl, rfl⟩
  · rw [show nearest x (List.filter _ ((usableAt l).head?.toList ++ _)) = _ from noEnds,
      show nearest x (List.filter _ (usableAt l)) = _ from near]
    exact ⟨rfl, rfl⟩
  · rw [show nearest x (List.filter _ ((usableAt l).head?.toList ++ _)) = _ from noEnds,
      show nearest x (List.filter _ (usableAt l)) = _ from noNear, wild]
    exact ⟨rfl, rfl⟩
  · rw [show nearest x (List.filter _ ((usableAt l).head?.toList ++ _)) = _ from noEnds,
      show nearest x (List.filter _ (usableAt l)) = _ from noNear, noWild, far]
    exact ⟨rfl, rfl⟩

theorem mem_inTol {l : Placed} {p : Entry × Nat} :
    p ∈ inTol m x l ↔ p ∈ l ∧ entryDist x p.1 ≤ tolOf m x p.1 := by
  rw [inTol, List.mem_filter, decide_eq_true_eq]

theorem inTol_cons {p : Entry × Nat} (l : Placed) (near : entryDist x p.1 ≤ tolOf m x p.1) :
    inTol m x (p :: l) = p :: inTol m x l := List.filter_cons_of_pos (decide_eq_true near)

theorem inTol_append (l l' : Placed) : inTol m x (l ++ l') = inTol m x l ++ inTol m x l' := List.filter_append ..

theorem mem_usable {l : List Entry} {k : Nat} {p : Entry × Nat} (mem : p ∈ inTol m x (taken (fun e => !e.wildcard) l k)) :
    p.1 ∈ l ∧ withinTol m x p.1 := by
  obtain ⟨mem, near⟩ := mem_inTol.mp mem
  obtain ⟨place, usable⟩ := mem_taken mem
  exact ⟨place, Bool.not_eq_true' _ |>.mp usable, near⟩

theorem nearest_none {l : Placed} (empty : l = []) : nearest x l = none := by
  rw [empty]
  rfl

/-- With neither the oldest nor the newest near, the ends give nothing. -/
theorem ends_none {l : List Entry} (far : ∀ l3 z l4, l = l3 ++ z :: l4 →
      (∀ e ∈ l3, e.wildcard = true) ∨ (∀ e ∈ l4, e.wildcard = true) → ¬ withinTol m x z) :
    nearest x (inTol m x (outer (usableAt l))) = none := by
  rw [usableAt_eq]
  refine nearest_none (List.eq_nil_iff_forall_not_mem.mpr fun p mem => ?_)
  obtain ⟨end_, close⟩ := mem_inTol.mp mem
  rcases List.mem_append.mp end_ with first | last
  · have first := Option.mem_toList.mp first
    obtain ⟨l3, l4, split_, none_⟩ := taken_head first
    exact far l3 p.1 l4 split_ (.inl fun e mem => (Bool.not_eq_false' ..).mp (none_ e mem))
      ⟨(Bool.not_eq_true' _).mp (mem_taken (List.mem_of_head? first)).2, close⟩
  · have last := Option.mem_toList.mp last
    obtain ⟨l3, l4, split_, none_⟩ := taken_last last
    exact far l3 p.1 l4 split_ (.inr fun e mem => (Bool.not_eq_false' ..).mp (none_ e mem))
      ⟨(Bool.not_eq_true' _).mp (mem_taken (List.mem_of_getLast? last)).2, close⟩

section
variable (good : usableSig m x = true)
include good

/-- The oldest usable entry is removed: it is near, and the newest is not nearer. -/
theorem removes_oldest (near : withinTol m x w) (wild : ∀ z ∈ l1, z.wildcard = true)
    (newest : ∀ l3 z l4, l2 = l3 ++ z :: l4 → (∀ e ∈ l4, e.wildcard = true) → withinTol m x z →
      entryDist x w ≤ entryDist x z) :
    Removes m x (l1 ++ w :: l2) 0 l1.length := by
  have use : usableAt (l1 ++ w :: l2) = (w, l1.length) :: taken (fun e => !e.wildcard) l2 (l1.length + 1) := by
    rw [usableAt_eq, taken_middle l1 l2 (by rw [near.1]; rfl), taken_nil fun e mem => by rw [wild e mem]; rfl]
    rfl
  refine (matchAxle_usable (List.append_ne_nil_of_right_ne_nil l1 (List.cons_ne_nil w l2)) good).1
    (entryDist x w, l1.length) ?_
  rw [use, outer, List.head?_cons, Option.toList_some, List.singleton_append, inTol_cons (p := (w, l1.length)) _ near.2]
  refine nearest_of (a := []) nofun fun q mem => ?_
  obtain ⟨last, close⟩ := mem_inTol.mp mem
  rw [List.getLast?_cons] at last
  have is : q = (taken (fun e => !e.wildcard) l2 (l1.length + 1)).getLast?.getD (w, l1.length) := List.mem_singleton.mp last
  cases end_ : (taken (fun e => !e.wildcard) l2 (l1.length + 1)).getLast? with
  | none =>
    rw [is, end_]
    exact Nat.le_refl _
  | some p =>
    rw [end_, Option.getD_some] at is
    subst is
    obtain ⟨l3, l4, split_, none_⟩ := taken_last end_
    exact newest l3 q.1 l4 split_ (fun e mem => (Bool.not_eq_false' ..).mp (none_ e mem))
      ⟨(Bool.not_eq_true' _).mp (mem_taken (List.mem_of_getLast? end_)).2, close⟩

/-- The newest usable entry is removed: it is near, and the oldest is farther. -/
theorem removes_newest (near : withinTol m x w) (wild : ∀ z ∈ l2, z.wildcard = true)
    (oldest : ∀ l3 z l4, l1 = l3 ++ z :: l4 → (∀ e ∈ l3, e.wildcard = true) → withinTol m x z →
      entryDist x w < entryDist x z) :
    Removes m x (l1 ++ w :: l2) 0 l1.length := by
  have use : usableAt (l1 ++ w :: l2) = taken (fun e => !e.wildcard) l1 0 ++ [(w, l1.length)] := by
    rw [usableAt_eq, taken_middle l1 l2 (by rw [near.1]; rfl), taken_nil (l := l2) fun e mem => by rw [wild e mem]; rfl]
  refine (matchAxle_usable (List.append_ne_nil_of_right_ne_nil l1 (List.cons_ne_nil w l2)) good).1
    (entryDist x w, l1.length) ?_
  rw [use, outer, List.getLast?_append, List.getLast?_singleton, inTol_append]
  cases first : (taken (fun e => !e.wildcard) l1 0).head? with
  | none =>
    rw [List.head?_eq_none_iff.mp first]
    change nearest x (inTol m x [(w, l1.length)] ++ inTol m x [(w, l1.length)]) = _
    rw [inTol_cons (p := (w, l1.length)) _ near.2]
    exact nearest_of (a := []) nofun fun q mem => by rw [List.mem_singleton.mp mem]
  | some p =>
    rw [List.head?_append, first]
    change nearest x (inTol m x [p] ++ inTol m x [(w, l1.length)]) = _
    rw [inTol_cons (p := (w, l1.length)) _ near.2]
    refine nearest_of (fun q mem => ?_) nofun
    obtain ⟨is, close⟩ := mem_inTol.mp mem
    rw [List.mem_singleton.mp is] at close ⊢
    obtain ⟨l3, l4, split_, none_⟩ := taken_head first
    exact oldest l3 p.1 l4 split_ (fun e mem => (Bool.not_eq_false' ..).mp (none_ e mem))
      ⟨(Bool.not_eq_true' _).mp (mem_taken (List.mem_of_head? first)).2, close⟩

theorem removes_displaced (near : withinTol m x w)
    (ends : ∀ l3 z l4, l1 ++ w :: l2 = l3 ++ z :: l4 →
      (∀ e ∈ l3, e.wildcard = true) ∨ (∀ e ∈ l4, e.wildcard = true) → ¬ withinTol m x z)
    (older : ∀ z ∈ l1, withinTol m x z → entryDist x w < entryDist x z)
    (newer : ∀ z ∈ l2, withinTol m x z → entryDist x w ≤ entryDist x z) :
    Removes m x (l1 ++ w :: l2) 1 l1.length := by
  refine ((matchAxle_usable (List.append_ne_nil_of_right_ne_nil l1 (List.cons_ne_nil w l2)) good).2
    (ends_none ends)).1 (entryDist x w, l1.length) ?_
  rw [usableAt_eq, taken_middle l1 l2 (by rw [near.1]; rfl), inTol_append, inTol_cons (p := (w, l1.length)) _ near.2]
  exact nearest_of (fun q mem => older q.1 (mem_usable mem).1 (mem_usable mem).2)
    fun q mem => newer q.1 (mem_usable mem).1 (mem_usable mem).2

section
variable (far : ∀ z ∈ l1 ++ w :: l2, ¬ withinTol m x z)
include far

theorem matchAxle_far : (∀ p, (wildAt (l1 ++ w :: l2)).head? = some p → Removes m x (l1 ++ w :: l2) 2 p.2) ∧
    ((wildAt (l1 ++ w :: l2)).head? = none → ∀ b, nearest x (usableAt (l1 ++ w :: l2)) = some b →
      Removes m x (l1 ++ w :: l2) 3 b.2) :=
  ((matchAxle_usable (List.append_ne_nil_of_right_ne_nil l1 (List.cons_ne_nil w l2)) good).2
    (ends_none fun l3 z _ split_ _ => far z (split_ ▸ List.mem_append_right l3 List.mem_cons_self))).2
    (nearest_none (List.eq_nil_iff_forall_not_mem.mpr fun p mem => far p.1 (mem_usable mem).1 (mem_usable mem).2))

theorem removes_wildcard (wild : w.wildcard = true) (older : ∀ z ∈ l1, z.wildcard = false) :
    Removes m x (l1 ++ w :: l2) 2 l1.length := by
  refine (matchAxle_far good far).1 (w, l1.length) ?_
  rw [wildAt_eq, taken_middle l1 l2 wild, taken_nil older]
  rfl

theorem removes_farthest (usable : ∀ z ∈ l1 ++ w :: l2, z.wildcard = false)
    (older : ∀ z ∈ l1, entryDist x w < entryDist x z) (newer : ∀ z ∈ l2, entryDist x w ≤ entryDist x z) :
    Removes m x (l1 ++ w :: l2) 3 l1.length := by
  refine (matchAxle_far good far).2 (by rw [wildAt_eq, taken_nil usable]; rfl) (entryDist x w, l1.length) ?_
  rw [usableAt_eq, taken_middle l1 l2 (by
    rw [usable w (List.mem_append_right l1 List.mem_cons_self)]
    rfl)]
  exact nearest_of (fun q mem => older q.1 (mem_taken mem).1) fun q mem => newer q.1 (mem_taken mem).1
end
end

theorem removes_unusable (bad : usableSig m x = false)
    (place : (w.wildcard = true ∧ ∀ z ∈ l2, z.wildcard = false) ∨ (l1 = [] ∧ ∀ z ∈ w :: l2, z.wildcard = false)) :
    Removes m x (l1 ++ w :: l2) 4 l1.length := by
  refine matchAxle_unusable (List.append_ne_nil_of_right_ne_nil l1 (List.cons_ne_nil w l2)) bad ?_
  rcases place with ⟨wild, newer⟩ | ⟨rfl, usable⟩
  · rw [wildAt_eq, taken_middle l1 l2 wild, taken_nil newer, List.getLast?_append]
    exact .inl rfl
  · exact .inr ⟨taken_nil usable, rfl⟩
end

/-! ### The rule of R177 on the working copy -/

theorem eraseIdx_middle {α : Type} (l1 l2 : List α) (w : α) : (l1 ++ w :: l2).eraseIdx l1.length = l1 ++ l2 := by
  rw [List.eraseIdx_append_of_length_le (Nat.le_refl _), Nat.sub_self]
  rfl

theorem outcome_ledger (c : SecCore) (o : Nat) : (c.outcome o).ledger = c.ledger := by
  unfold SecCore.outcome
  split <;> rfl

/-- What a leaving axle does where others are left behind: the entry that the match names goes, its outcome is counted. -/
theorem removeAxle_removes {s : State} {n : SecId} {it : Item} {p : Priv} {cfg m : Word} {single : Bool} {sig : List Byte}
    {o i : Nat} (more : 1 < p.core.count) (mode : secMode cfg ≠ 0) (on : p.core.susp = false)
    (removes : Removes m sig p.core.ledger o i) :
    let q := (p.removeAxle s n cfg m single it sig).core
    q.ledger = p.core.ledger.eraseIdx i ∧ (o = 0 → q.exact = (p.core.exact + 1) % 65536) ∧
      (o = 1 → q.displaced = (p.core.displaced + 1) % 65536) ∧ (o = 2 → q.wildcard = (p.core.wildcard + 1) % 65536) ∧
      (o = 3 → q.nomat = (p.core.nomat + 1) % 65536 ∧ q.nomatchEp = min 65535 (p.core.nomatchEp + 1) ∧
        bit q.fault 3 = true) ∧
      (o = 4 → q.unusable = (p.core.unusable + 1) % 65536) := by
  intro q
  have shape : q = (p.left s n cfg m it sig).core := by
    unfold q
    rw [removeAxle_left cfg m single sig (by omega), if_neg (by omega), if_neg (by omega)]
  rw [shape]
  unfold Priv.left
  extract_lets c u
  rw [if_pos mode]
  obtain ⟨g, core⟩ := matching_core s n u cfg m it sig c.count
  have off : u.core.susp = false := on
  rw [if_neg (show ¬ p.core.count ≤ 0 from by omega), off, if_neg Bool.false_ne_true, show u.core.ledger = _ from rfl,
    removes.1, removes.2] at core
  rw [core]
  refine ⟨?_, ?_, ?_, ?_, ?_, ?_⟩
  · exact congrArg (List.eraseIdx · i) (outcome_ledger u.core o)
  · rintro rfl; rfl
  · rintro rfl; rfl
  · rintro rfl; rfl
  · rintro rfl
    exact ⟨rfl, Nat.min_comm .., bit_flagged _ _ (by decide)⟩
  · rintro rfl; rfl

theorem matchRule (s : State) (n : SecId) : MatchRule s n := by
  intro it rev sig out l1 l2 w one kind bound out_ c e near allWild noneWild more mode on split_
  have eval : e = ((Priv.start c).removeAxle s n (s.sec n).cfg (s.sec n).match_ (bindings (s.sec n) == 1) it sig).core :=
    (evaluate_one one).trans (congrArg Priv.core (item_out kind bound out_))
  have gone : ∀ o, Removes (s.sec n).match_ sig (l1 ++ w :: l2) o l1.length →
      e.ledger = l1 ++ l2 ∧ (o = 0 → e.exact = (c.exact + 1) % 65536) ∧ (o = 1 → e.displaced = (c.displaced + 1) % 65536) ∧
      (o = 2 → e.wildcard = (c.wildcard + 1) % 65536) ∧
      (o = 3 → e.nomat = (c.nomat + 1) % 65536 ∧ e.nomatchEp = min 65535 (c.nomatchEp + 1) ∧ bit e.fault 3 = true) ∧
      (o = 4 → e.unusable = (c.unusable + 1) % 65536) := fun o removes => by
    rw [← split_] at removes
    obtain ⟨ledger, rest⟩ := removeAxle_removes (s := s) (n := n) (it := it) (p := Priv.start c)
      (single := bindings (s.sec n) == 1) more mode on removes
    rw [eval]
    exact ⟨ledger.trans ((congrArg (List.eraseIdx · l1.length) split_).trans (eraseIdx_middle l1 l2 w)), rest⟩
  rw [split_]
  refine ⟨fun bad place => ?_, fun good => ⟨fun close wild newest => ?_, fun close wild oldest => ?_,
    fun close ends older newer => ?_, fun far wild older => ?_, fun far usable older newer => ?_⟩⟩
  · obtain ⟨ledger, -, -, -, -, counted⟩ := gone 4 (removes_unusable bad place)
    exact ⟨ledger, counted rfl⟩
  · obtain ⟨ledger, counted, -⟩ := gone 0 (removes_oldest good close wild newest)
    exact ⟨ledger, counted rfl⟩
  · obtain ⟨ledger, counted, -⟩ := gone 0 (removes_newest good close wild oldest)
    exact ⟨ledger, counted rfl⟩
  · obtain ⟨ledger, -, counted, -⟩ := gone 1 (removes_displaced good close ends older newer)
    exact ⟨ledger, counted rfl⟩
  · obtain ⟨ledger, -, -, counted, -⟩ := gone 2 (removes_wildcard good far wild older)
    exact ⟨ledger, counted rfl⟩
  · obtain ⟨ledger, -, -, -, counted, -⟩ := gone 3 (removes_farthest good far usable older newer)
    exact ⟨ledger, counted rfl⟩

end Sys2Proof.Machine
end

section
/-! SUPPORT. What fails a section in its evaluation, the application of its commands, and the distance of signatures
(R172, R173, R176, R180, R186, R190, R192). -/
namespace Sys2Proof.Machine

/-! ### Fails and commands (R173) -/

section
variable {s : State} {n : SecId} {q : SecCmd} {p : Priv}

theorem evaluate_overflow (service : (s.sec n).core.service = true) (cmds : (s.sec n).intakeCmd = [])
    (full : (s.sec n).cutOvf = true) (items : (s.sec n).intake = []) :
    evaluate s n = (Priv.start (s.sec n).core).fail s n 11 none := by
  have on : (Priv.start (s.sec n).core).core.service = true := service
  simp only [evaluate, cmds, List.foldl_nil, on, full, items, if_true]
  rfl

theorem evaluate_command (cmds : (s.sec n).intakeCmd = [q]) (items : (s.sec n).intake = [])
    (room : (s.sec n).cutOvf = false) : evaluate s n = ((Priv.start (s.sec n).core).cmd s n (s.sec n) q).tally := by
  simp only [evaluate, cmds, List.foldl_cons, List.foldl_nil, room, items, Bool.false_eq_true, if_false]
  exact ite_self _

theorem failRule (s : State) (n : SecId) : FailRule s n := by
  have fails : ∀ (cause : Option Item) (r : Nat), let e := ((Priv.start (s.sec n).core).fail s n r cause).core
      e.state = .disturbed ∧ e.reason = (if (s.sec n).core.state = .disturbed then (s.sec n).core.reason else r) ∧
        e.count = (s.sec n).core.count ∧ e.ledger = (s.sec n).core.ledger := fun cause r => by
    obtain ⟨e, f, core⟩ := fail_core s n cause (Priv.start (s.sec n).core) r
    rw [core]
    exact ⟨rfl, rfl, rfl, rfl⟩
  refine ⟨fun service cmds full items => ?_, fun it one => ⟨fun reject => ?_, fun r notice => ?_⟩⟩
  · rw [evaluate_overflow service cmds full items]
    obtain ⟨state, reason, count, -⟩ := fails none 11
    exact ⟨state, reason, count⟩
  · rw [evaluate_one one]
    simp only [Priv.item, reject]
    exact fails (some it) 3
  · rw [evaluate_one one]
    simp only [Priv.item, notice]
    exact fails (some it) r

@[simp] theorem go_dones (st : SecState) (cause : Option Item) : (p.go s n st cause).dones = p.dones := by
  cases st <;> rfl
@[simp] theorem go_authRes (st : SecState) (cause : Option Item) : (p.go s n st cause).authRes = p.authRes := by
  cases st <;> rfl
@[simp] theorem fail_dones (r : Nat) (cause : Option Item) : (p.fail s n r cause).dones = p.dones := by
  unfold Priv.fail
  split
  · rfl
  · exact go_dones ..

/-- The outcome of a single command: done with a code, its write marked or not. -/
def Priv.Done (p : Priv) (q : SecCmd) (st : Status) (code : Nat) : Prop :=
  ∃ wr, p.dones = [{ job := q.job, status := st, detail := code, wr := wr }]

theorem done__tally {st : Status} {code : Nat} (fresh : p.dones = []) : (p.done_ q.job st code).tally.Done q st code :=
  ⟨none, congrArg (· ++ _) fresh⟩

theorem resetOut_done {direct : Bool} {st : Status} {code : Nat} (fresh : p.dones = []) :
    (p.resetOut s n direct q.job st code).tally.Done q st code ∧
      (p.resetOut s n direct q.job st code).tally.authRes = some code := ⟨⟨none, congrArg (· ++ _) fresh⟩, rfl⟩

/-! ### SEC_SERVICE (R180, R186) -/

variable {x : Section} {job : Option Nat} {wr : Option Word}

theorem service_enters (off : p.core.service = false) (bound : bindings x ≠ 0) : ∃ v : Priv,
    p.service s n x true job wr = v.done_ job .ok 0 ∧ v.dones = p.dones ∧ v.core.service = true ∧
    v.core.state = p.core.state ∧ v.core.reason = 2 ∧ v.enter = true := by
  unfold Priv.service
  rw [off, if_pos (by decide), if_neg bound]
  exact ⟨_, rfl, rfl, rfl, rfl, rfl, rfl⟩

theorem service_empty (off : p.core.service = false) (bare : bindings x = 0) : p.service s n x true job wr =
    { p with statRes := some 6, dones := p.dones ++ [{ job := job, status := .conflict, detail := 6, wr := wr }] } := by
  rw [Priv.service, off, if_pos (by decide), if_pos bare]

theorem service_stays : p.service s n x p.core.service job wr = Priv.done_ job .ok 0 { p with statRes := some 0 } := by
  unfold Priv.service
  rw [if_neg (by rw [Bool.and_not_self]; decide), if_neg (by rw [Bool.not_and_self]; decide)]

/-- A section that leaves service is DISTURBED, empty and at count 0. -/
theorem service_leaves (on : p.core.service = true) : ∃ v : Priv, p.service s n x false job wr = v.done_ job .ok 0 ∧
    v.dones = p.dones ∧ v.core.service = false ∧ v.core.state = .disturbed ∧ v.core.reason = 2 ∧ v.core.count = 0 ∧
    v.core.ledger = [] := by
  unfold Priv.service
  rw [on, if_neg (by decide), if_pos (by decide)]
  refine ⟨_, rfl, ?_⟩
  split
  next dist => exact ⟨rfl, rfl, dist, rfl, rfl, rfl⟩
  next =>
    rw [go_core]
    exact ⟨by dsimp only; rw [go_dones]; rfl, rfl, rfl, rfl, rfl, rfl⟩

/-! ### Reset forms (R190, R192) -/

theorem reset_unfit {direct : Bool} (bad : p.core.service = false ∨ p.core.state ≠ .disturbed) :
    p.reset s n x direct job = p.resetOut s n direct job .conflict 6 := by
  unfold Priv.reset
  rw [if_pos]
  rcases bad with off | fresh
  · rw [off]
    rfl
  · rw [bne_iff_ne.mpr fresh, Bool.or_true]

section
variable {direct : Bool} (on : p.core.service = true) (dist : p.core.state = .disturbed)
include on dist

theorem reset_tested : p.reset s n x direct job =
    if !x.cutFit then p.resetOut s n direct job .conflict 7
    else if direct && (!quietMet x (if p.enter then 0 else x.cutQuiet) || !x.intake.isEmpty || x.cutWaits) then
      p.resetOut s n direct job .conflict 8
    else ((Priv.endEpisode { p with core := { p.core with count := 0, reason := 0 } }).go s n
      (if direct then .clear else .restoring) none |>.flag 6).resetOut s n direct job .ok 0 := by
  unfold Priv.reset
  rw [on, dist]
  rfl

variable (present : p.enter = false) (quiet : x.intake = [])
include present quiet

theorem reset_fit (fit : x.cutFit = true) : p.reset s n x direct job =
    if direct && (!quietMet x x.cutQuiet || x.cutWaits) then p.resetOut s n direct job .conflict 8
    else ((Priv.endEpisode { p with core := { p.core with count := 0, reason := 0 } }).go s n
      (if direct then .clear else .restoring) none |>.flag 6).resetOut s n direct job .ok 0 := by
  rw [reset_tested on dist, fit, present, quiet]
  simp only [Bool.not_true, Bool.false_eq_true, if_false, List.isEmpty_nil, Bool.or_false]
end

theorem applyRule (s : State) (n : SecId) : ApplyRule s n := by
  intro q cmds items room x c p done
  have applied : p = ((Priv.start c).cmd s n x q).tally := evaluate_command cmds items room
  clear_value p
  refine ⟨fun op off => ⟨fun bound => ?_, fun bare => ?_⟩, fun op on => ?_, fun op => ?_, fun op => ?_, fun direct op => ?_⟩
  · obtain ⟨v, shape, dones, service, state, reason, enter⟩ := service_enters (s := s) (n := n) (p := Priv.start c)
      (job := q.job) (wr := q.wr) off bound
    rw [Priv.cmd, op] at applied
    obtain rfl : p = (v.done_ q.job .ok 0).tally := applied.trans (congrArg Priv.tally shape)
    exact ⟨service, state, reason, enter, done__tally dones⟩
  · rw [Priv.cmd, op] at applied
    obtain rfl := applied.trans (congrArg Priv.tally (service_empty (p := Priv.start c) off bare))
    exact ⟨off, rfl, rfl, _, rfl⟩
  · obtain ⟨v, shape, dones, service, state, reason, count, ledger⟩ := service_leaves (s := s) (n := n)
      (p := Priv.start c) (x := x) (job := q.job) (wr := q.wr) on
    rw [Priv.cmd, op] at applied
    obtain rfl : p = (v.done_ q.job .ok 0).tally := applied.trans (congrArg Priv.tally shape)
    exact ⟨service, state, reason, count, ledger, done__tally dones⟩
  · rw [Priv.cmd, op] at applied
    obtain rfl := applied.trans (congrArg Priv.tally (service_stays (p := Priv.start c)))
    exact ⟨rfl, done__tally (p := { Priv.start c with statRes := some 0 }) rfl⟩
  · obtain ⟨e, f, core⟩ := fail_core s n none (Priv.start c) 10
    rw [Priv.cmd, op] at applied
    obtain ⟨v, is⟩ : ∃ v, v = (Priv.start c).fail s n 10 none := ⟨_, rfl⟩
    have dones : v.dones = [] := (congrArg Priv.dones is).trans (fail_dones ..)
    rw [← is] at applied core
    obtain rfl := applied
    refine ⟨(congrArg SecCore.state core :), (congrArg SecCore.reason core :), (congrArg SecCore.count core :),
      done__tally (p := { v with statRes := some 0 }) dones⟩
  · intro fails
    rw [Priv.cmd, op] at applied
    have failed : ∀ code, (Priv.start c).reset s n x direct q.job = (Priv.start c).resetOut s n direct q.job .conflict code →
        fails code := fun code out => by
      obtain rfl := applied.trans (congrArg Priv.tally out)
      exact ⟨rfl, (resetOut_done rfl).2, (resetOut_done rfl).1⟩
    refine ⟨fun bad => failed 6 (reset_unfit bad), fun on dist => ⟨fun unfit => failed 7 ?_,
      fun fit isDirect soon => failed 8 ?_, fun fit quietly => ?_⟩⟩
    · rw [reset_tested on dist, unfit]
      rfl
    · rw [reset_fit on dist rfl items fit, isDirect, if_pos]
      rcases soon with early | waits
      · rw [early]
        rfl
      · rw [waits, Bool.or_true]
        rfl
    · have still : ¬ (direct && (!quietMet x x.cutQuiet || x.cutWaits)) = true := by
        cases direct
        · exact Bool.false_ne_true
        · obtain ⟨met, none_⟩ := quietly rfl
          rw [met, none_]
          decide
      have succeeds := (reset_fit (s := s) (n := n) (p := Priv.start c) (job := q.job) on dist rfl items fit).trans (if_neg still)
      obtain ⟨v, is⟩ : ∃ v, v = (Priv.endEpisode { Priv.start c with core := { (Priv.start c).core with
          count := 0, reason := 0 } }).go s n (if direct then .clear else .restoring) none := ⟨_, rfl⟩
      have dones : v.dones = [] := (congrArg Priv.dones is).trans (go_dones ..)
      have core := (congrArg Priv.core is).trans (go_core ..)
      rw [← is] at succeeds
      obtain rfl := applied.trans (congrArg Priv.tally succeeds)
      have flagged : (v.flag 6).dones = [] := dones
      exact ⟨(congrArg SecCore.state core :), (congrArg SecCore.reason core :), (congrArg SecCore.count core :),
        (congrArg SecCore.ledger core :), (congrArg SecCore.service core :).trans on,
        bit_flagged _ _ (by decide), (resetOut_done flagged).2, (resetOut_done flagged).1⟩
end

/-! ### The distance of signatures (R176) -/

theorem sigDistRule (a b : List Byte) :
    sigDist a b false = ((List.range 12).map (fun i => ndiff (sigByte a i) (sigByte b i))).sum +
      2 * ndiff (sigByte a 12) (sigByte b 12) + 4 * ndiff (sigByte a 13) (sigByte b 13) +
      (sext 8 (sigByte a 14) - sext 8 (sigByte b 14)).natAbs / 4 ∧
    sigDist a b true = ((List.range 12).map (fun i => ndiff (sigByte a i) (sigByte b (11 - i)))).sum +
      2 * ndiff (sigByte a 12) (sigByte b 12) + 4 * ndiff (sigByte a 13) (sigByte b 13) +
      (sext 8 (sigByte a 14) + sext 8 (sigByte b 14)).natAbs / 4 := by
  have places : List.range 12 = [0, 1, 2, 3, 4, 5, 6, 7, 8, 9, 10, 11] := rfl
  have back : sext 8 (sigByte a 14) - -sext 8 (sigByte b 14) = sext 8 (sigByte a 14) + sext 8 (sigByte b 14) := by omega
  refine ⟨?_, ?_⟩
  · simp [sigDist, asymOf, profile, places, sumDiff, absDiff, ndiff]
  · simp [sigDist, asymOf, profile, places, sumDiff, absDiff, ndiff, back]

end Sys2Proof.Machine
end

section
/-! SUPPORT. The evaluation of a section as a transaction: grants, drops, adoptions and commits (R203, R207, R208, R243).
Settles O28. -/
namespace Sys2Proof.Machine

/-! ### A dropped section counts and shows its drop (R208) -/

section
variable {n : SecId} {s : State}

theorem queueSecRec_flag {k : Nat} (b : List Byte) (set : bit (s.sec n).core.fault k = true) :
    bit ((queueSecRec n b s).sec n).core.fault k = true := by
  have kept : ∀ u : State, u.sec n = s.sec n → bit (u.sec n).core.fault k = true := fun u same => by rw [same]; exact set
  unfold queueSecRec queueRec offerRec
  dsimp only
  split
  · split
    · exact kept _ (sec_of_device (offer_device ..) n)
    · simp only [countDrop, flagSec, modSec_sec_same]
      rw [bit_or]
      exact (Bool.or_eq_true ..).mpr (.inl (kept _ (sec_of_device (offer_device ..) n)))
  · exact set

theorem lateCmd_flag (c : SecCmd) (set : bit (s.sec n).core.fault 8 = true) :
    bit ((lateCmd n c s).sec n).core.fault 8 = true := by
  have completed : ∀ st d u, ((completeJob c.job st d u).sec n) = u.sec n := fun st d u =>
    sec_of_device (completeJob_device ..) n
  unfold lateCmd
  split
  · rw [completed, sec_of_device (trig_device ..)]
    exact queueSecRec_flag _ (by rw [modSec_sec_same]; exact set)
  · rw [completed, modSec_sec_same]
    exact set

theorem queueSecRec_dropped (b : List Byte) : (queueSecRec n b s).epc.dropped = s.epc.dropped := by
  unfold queueSecRec queueRec offerRec
  dsimp only
  split
  · split
    · rw [offer_epc]
    · rw [countDrop_epc, offer_epc]
  · rfl

theorem lateCmd_dropped (c : SecCmd) : (lateCmd n c s).epc.dropped = s.epc.dropped := by
  unfold lateCmd
  split
  · rw [completeJob_epc, epc_of_device (trig_device ..), queueSecRec_dropped]
    rfl
  · rw [completeJob_epc]
    rfl

theorem dropSec_shows : (dropSec n s).epc.dropped = s.epc.dropped + 1 ∧ bit ((dropSec n s).sec n).core.fault 8 = true := by
  have each : ∀ (l : List SecCmd) (u : State), bit (u.sec n).core.fault 8 = true →
      bit ((foldOver l (lateCmd n) u).sec n).core.fault 8 = true := fun l => by
    induction l with
    | nil => exact fun u set => set
    | cons c l ih => exact fun u set => ih (lateCmd n c u) (lateCmd_flag c set)
  unfold dropSec
  extract_lets x u e v
  refine ⟨?_, each _ _ ?_⟩
  · refine (foldOver_keeps (g := fun u : State => u.epc.dropped) (fun c u => lateCmd_dropped c) _).trans ?_
    rfl
  · rw [flagSec, modSec_sec_same]
    exact bit_flagged _ _ (by decide)
end

/-! ### Grants (R207) -/

theorem sumNat_cons (r : Nat) (l : List Nat) : sumNat (r :: l) = r + sumNat l :=
  (congrArg (List.foldl (· + ·) · l) (Nat.add_comm 0 r)).trans List.foldl_assoc

theorem sumNat_takeRows (k : Nat) (l : List Nat) : sumNat (takeRows k l) = sumNat l - k := by
  induction l generalizing k with
  | nil => exact (Nat.zero_sub k).symm
  | cons r l ih =>
    unfold takeRows
    split
    · rw [ih, sumNat_cons]
      omega
    · rw [sumNat_cons, sumNat_cons]
      omega

section
variable {n : SecId} {s : State} {p : Priv}

theorem grant_first (quiet : s.epc.quiet = false) (cut : intakeDone s = true) (turn : itsTurn s n = true)
    (due : (s.sec n).eval = .due) :
    grant n s = if s.zl.role ≠ 2 then serveAdoption n s else grantPriv n (evaluate s n) s := by
  unfold grant
  dsimp only
  rw [quiet, cut, turn, due, if_neg (by decide)]

theorem grantPriv_serves (engine : sumNat p.work = 0 ∨ freeEngines s ≠ 0) (inTime : tooLate s (workLeft p.work) = false) :
    grantPriv n p s = serve n p s := by
  unfold grantPriv
  rw [if_neg (by omega), inTime]
  rfl

theorem grantPriv_drops (engine : sumNat p.work = 0 ∨ freeEngines s ≠ 0) (late : tooLate s (workLeft p.work) = true) :
    grantPriv n p s = dropSec n s := by
  unfold grantPriv
  rw [if_neg (by omega), late]
  rfl

theorem serve_serves : ∃ q : Priv, q = { p with work := q.work, until_ := q.until_ } ∧
    sumNat q.work = sumNat p.work - freeEngines s ∧ (serve n p s).sec n = { s.sec n with eval := .served, priv := some q } ∧
    (∀ m, m ≠ n → (serve n p s).sec m = s.sec m) ∧ (serve n p s).heads = s.heads := by
  refine ⟨{ p with work := takeRows (min (freeEngines s) (sumNat p.work)) p.work, until_ := _ }, rfl, ?_,
    modSec_sec_same .., fun m other => modSec_sec_other _ _ _ _ other, rfl⟩
  dsimp only
  rw [sumNat_takeRows]
  omega

/-! ### Adoption on a follower (R243) -/

theorem applyDelta_core (l : List Delta) (c : SecCore) : ∃ k g, l.foldl applyDelta c = { c with ledger := k, gen := g } := by
  induction l generalizing c with
  | nil => exact ⟨_, _, rfl⟩
  | cons d l ih =>
    obtain ⟨k, g, rest⟩ := ih (applyDelta c d)
    refine ⟨k, g, rest.trans ?_⟩
    cases d <;> rfl

theorem adoptPriv_core (e : Eph) : ∃ l g f, (adoptPriv s n e).core = { (s.sec n).core with
      ledger := l, gen := g, state := e.state, service := e.service, reason := e.reason, count := e.count, maxc := e.maxc,
      nomatchEp := e.nomatchEp, firstHead := e.firstHead, conf := e.conf, susp := e.susp, stateEpoch := e.stateEpoch,
      transIn := e.transIn, transOut := e.transOut, fault := f } ∧ (adoptPriv s n e).adopted = true ∧
    (adoptPriv s n e).work = [] ∧ (rxDeltas s n = [] → l = (s.sec n).core.ledger) := by
  unfold adoptPriv
  extract_lets x c skip c' moved d p q v
  obtain ⟨l, g, copy, unchanged⟩ : ∃ l g, c' = { c with ledger := l, gen := g } ∧ (rxDeltas s n = [] → l = c.ledger) := by
    obtain ⟨l, g, applied⟩ := applyDelta_core (rxDeltas s n) c
    unfold c'
    split
    · exact ⟨c.ledger, c.gen, rfl, fun _ => rfl⟩
    · exact ⟨l, g, applied, fun none_ => by
        rw [none_] at applied
        exact (congrArg SecCore.ledger applied :).symm⟩
  have begun : p.core = { c with
      ledger := l, gen := g, state := e.state, service := e.service, reason := e.reason, count := e.count, maxc := e.maxc,
      nomatchEp := e.nomatchEp, firstHead := e.firstHead, conf := e.conf, susp := e.susp, stateEpoch := e.stateEpoch,
      transIn := e.transIn, transOut := e.transOut, fault := 0 } ∧ p.adopted = true ∧ p.work = [] := by
    unfold p d
    rw [copy]
    exact ⟨rfl, rfl, rfl⟩
  have flagged : ∃ f, q.core = { p.core with fault := f } ∧ q.adopted = p.adopted ∧ q.work = p.work := by
    unfold q
    split
    · exact ⟨_, rfl, rfl, rfl⟩
    · split <;> exact ⟨_, rfl, rfl, rfl⟩
  clear_value p q
  obtain ⟨core, adopted, work⟩ := begun
  obtain ⟨f, core', adopted', work'⟩ := flagged
  refine ⟨l, g, if moved then f else 0, ?_⟩
  split
  · exact ⟨core'.trans (by rw [core]), adopted'.trans adopted, work'.trans work, unchanged⟩
  · exact ⟨core, adopted, work, unchanged⟩

theorem missAdoption_sec : (missAdoption n s).sec n = { s.sec n with eval := .none, intake := [], intakeCmd := [] } := by
  unfold missAdoption
  extract_lets u
  split
  · exact modSec_sec_same ..
  · exact modSec_sec_same ..

theorem missAdoption_zl : (missAdoption n s).zl = { s.zl with
    missed := if (s.sec n).core.service then min (s.zl.missed + 1) 65535 else s.zl.missed } := by
  unfold missAdoption
  extract_lets u
  split <;> rfl

/-! ### The commit (R203) -/

theorem adoptCommit_sec (e : Eph) : ∃ late sync fail, (adoptCommit n e s).sec n = { s.sec n with
      quietEl := e.quietEl, adopted := some s.epc.seq, adoptedLate := late, mismatch := false, synced := sync,
      localFail := fail } ∧ bystanders n (adoptCommit n e s) = bystanders n s ∧ (adoptCommit n e s).epc = s.epc := by
  unfold adoptCommit
  extract_lets u
  have covered : (dropCovered u).sections = u.sections ∧ (dropCovered u).heads = u.heads ∧ (dropCovered u).epc = u.epc := by
    unfold dropCovered
    split
    · exact ⟨rfl, rfl, rfl⟩
    · split <;> exact ⟨rfl, rfl, rfl⟩
  obtain ⟨secs, heads, epc⟩ := covered
  have sec : ∀ m, (dropCovered u).sec m = u.sec m := fun m => congrArg (fun l => tget l m) secs
  refine ⟨_, _, _, (sec n).trans (modSec_sec_same ..), ?_, epc⟩
  exact bystanders_iff.mpr ⟨fun m other => (sec m).trans (modSec_sec_other _ _ _ _ other), heads⟩

/-- What the commit offers and completes leaves every section but for its flags, the grid and the bystanders. -/
theorem finishes (recs : List (List Byte)) (trigs : List (Nat × Nat × Word)) (dones : List CmdDone) (u : State) :
    let v := foldOver dones (finishCmd n) (foldOver trigs (fun t s => trig t.1 t.2.1 t.2.2 s)
      (foldOver recs (queueSecRec n) u))
    (v.sec n).unflagged = (u.sec n).unflagged ∧ v.epc.quietly = u.epc.quietly ∧ bystanders n v = bystanders n u := by
  have finished : ∀ d u, (finishCmd n d u).device = u.device := fun d u => by
    unfold finishCmd
    split
    · exact (completeJob_device ..).trans (hpErr_device ..)
    · exact completeJob_device ..
  have done_ : ∀ u, (foldOver dones (finishCmd n) u).device = u.device := foldOver_keeps (g := State.device) finished
  have trigged : ∀ u, (foldOver trigs (fun t s => trig t.1 t.2.1 t.2.2 s) u).device = u.device :=
    foldOver_keeps (g := State.device) fun t u => trig_device ..
  intro v
  have same := (done_ (foldOver trigs (fun t s => trig t.1 t.2.1 t.2.2 s) (foldOver recs (queueSecRec n) u))).trans (trigged _)
  refine ⟨?_, ?_, ?_⟩
  · rw [sec_of_device same]
    exact foldOver_keeps (g := fun u : State => (u.sec n).unflagged) (fun b u => queueSecRec_unflagged ..) u
  · rw [epc_of_device same]
    exact foldOver_keeps (g := fun u : State => u.epc.quietly) (fun b u => queueSecRec_epc ..) u
  · rw [bystanders_of_device n same]
    exact foldOver_keeps (g := bystanders n) (fun b u => bystanders_queueSecRec ..) u

/-- The section that a commit makes of a working copy. -/
def committed (s : State) (p : Priv) (x : Section) : Section := { x with
    core := { p.core with
      fault := x.core.fault ||| p.core.fault
      ledger := if secMode x.cfg = 0 then [] else p.core.ledger }
    eval := .committed
    priv := none
    late := false
    intake := []
    intakeCmd := []
    queue := if p.core.service then x.queue else []
    overflow := x.overflow && p.core.service
    cutOvf := false
    code := if p.core.service then stateCode p.core.state (s.epc.seq + 1) else 3
    quietEl := if p.enter then 0 else x.quietEl
    statRes := p.statRes.getD x.statRes
    authRes := p.authRes.getD x.authRes }

/-- The commit of an adoption, where it is one. -/
def afterAdoption (n : SecId) (e : Option Eph) (s : State) : State :=
  match e with
  | some e => adoptCommit n e s
  | none => s

theorem afterAdoption_keeps (e : Option Eph) : (afterAdoption n e s).epc = s.epc ∧
    bystanders n (afterAdoption n e s) = bystanders n s := by
  cases e with
  | none => exact ⟨rfl, rfl⟩
  | some e =>
    obtain ⟨_, _, _, -, others, grid⟩ := adoptCommit_sec (n := n) (s := s) e
    exact ⟨grid, others⟩

theorem commitPriv_commits : ∃ u : State, u.sec n = committed s p (s.sec n) ∧ bystanders n u = bystanders n s ∧
    u.epc = { s.epc with lastCommit := some (workEnd s 26500) } ∧
    ((commitPriv n p s).sec n).unflagged =
      ((afterAdoption n (if p.adopted then rxEph s n else none) u).sec n).unflagged ∧
    (commitPriv n p s).epc.lastCommit = some (workEnd s 26500) ∧ bystanders n (commitPriv n p s) = bystanders n s := by
  unfold commitPriv
  extract_lets epc e core u epc' zl v w x y
  obtain ⟨secs, grid, others⟩ := finishes p.recs p.trigs p.dones (n := n) w
  have adopts : w.epc = v.epc ∧ bystanders n w = bystanders n v := afterAdoption_keeps e
  have committed_ : bystanders n v = bystanders n s :=
    bystanders_iff.mpr ⟨fun m other => modSec_sec_other _ _ _ _ other, rfl⟩
  refine ⟨v, modSec_sec_same .., committed_, rfl, secs, ?_, others.trans (adopts.2.trans committed_)⟩
  exact (congrArg Epc.lastCommit grid :).trans (congrArg Epc.lastCommit adopts.1)

theorem afterAdoption_sec (e : Option Eph) : ∃ quiet adopted late mismatch sync fail,
    (afterAdoption n e s).sec n = { s.sec n with
      quietEl := quiet, adopted := adopted, adoptedLate := late, mismatch := mismatch, synced := sync, localFail := fail } ∧
    ∀ f, e = some f → adopted = some s.epc.seq ∧ mismatch = false ∧ quiet = f.quietEl := by
  cases e with
  | none => exact ⟨_, _, _, _, _, _, rfl, nofun⟩
  | some e =>
    obtain ⟨late, sync, fail, sec, -, -⟩ := adoptCommit_sec (n := n) (s := s) e
    exact ⟨_, _, _, _, _, _, sec, fun f is => by cases is; exact ⟨rfl, rfl, rfl⟩⟩

/-- A section as the commit of a working copy leaves it. -/
theorem commitPriv_sec :
    ((commitPriv n p s).sec n).eval = .committed ∧ ((commitPriv n p s).sec n).late = false ∧
    (((commitPriv n p s).sec n).core.state = p.core.state ∧ ((commitPriv n p s).sec n).core.count = p.core.count ∧
      ((commitPriv n p s).sec n).core.service = p.core.service ∧
      ((commitPriv n p s).sec n).core.ledger = (if secMode (s.sec n).cfg = 0 then [] else p.core.ledger) ∧
      ((commitPriv n p s).sec n).code = (if p.core.service then stateCode p.core.state (s.epc.seq + 1) else 3)) ∧
    (∀ e, p.adopted = true → rxEph s n = some e →
      ((commitPriv n p s).sec n).adopted = some s.epc.seq ∧ ((commitPriv n p s).sec n).mismatch = false ∧
        ((commitPriv n p s).sec n).quietEl = e.quietEl) := by
  obtain ⟨u, sec, -, epc, secs, -⟩ := commitPriv_commits (n := n) (p := p) (s := s)
  obtain ⟨quiet, adopted, late, mismatch, sync, fail, after, adopts⟩ := afterAdoption_sec (n := n) (s := u)
    (if p.adopted then rxEph s n else none)
  rw [after, sec] at secs
  have seq : u.epc.seq = s.epc.seq := (congrArg Epc.seq epc :)
  refine ⟨(congrArg Section.eval secs :), (congrArg Section.late secs :), ⟨(congrArg (fun x : Section => x.core.state) secs :),
    (congrArg (fun x : Section => x.core.count) secs :), (congrArg (fun x : Section => x.core.service) secs :),
    (congrArg (fun x : Section => x.core.ledger) secs :), (congrArg Section.code secs :)⟩, fun e isAdopted found => ?_⟩
  obtain ⟨epoch, matches_, el⟩ := adopts e (by rw [isAdopted, if_pos rfl, found])
  exact ⟨(congrArg Section.adopted secs :).trans (epoch.trans (congrArg some seq)),
    (congrArg Section.mismatch secs :).trans matches_, (congrArg Section.quietEl secs :).trans el⟩

theorem commitSec_commits (served : (s.sec n).eval = .served) (copy : (s.sec n).priv = some p) (quiet : s.epc.quiet = false)
    (searched : sumNat p.work = 0) (ended : p.until_ ≤ s.now) (inTime : tooLate s (workLeft []) = false)
    (isOpen : portOpen s = true) : commitSec n s = commitPriv n (atCommit n p s) s := by
  unfold commitSec
  rw [served, copy]
  dsimp only
  rw [quiet, inTime, isOpen, decide_eq_false (not_not.mpr searched), decide_eq_false (Nat.not_lt.mpr ended)]
  rfl

theorem atCommit_eq : atCommit n p s = if (s.sec n).core.service = true ∨ p.adopted = true then p else evaluate s n := by
  unfold atCommit
  exact if_congr (by rw [Bool.or_eq_true]) rfl rfl
end

/-! ### The obligation -/

/-- A grant to a follower's section whose set has come: served, or a mismatch. -/
theorem grant_adopts {s : State} {n : SecId} {e : Eph} (adopts : adoptable s n = some e) :
    (e.cfgChk = cfgChk (s.sec n) → serveAdoption n s = grantPriv n (adoptPriv s n e) s) ∧
    (e.cfgChk ≠ cfgChk (s.sec n) → serveAdoption n s = missAdoption n (setMismatch n s)) := by
  unfold serveAdoption
  rw [adopts]
  exact ⟨fun same => if_neg (not_not.mpr same), fun differs => if_pos differs⟩

theorem grant_misses {s : State} {n : SecId} (none_ : adoptable s n = none) (late : s.epc.start + us 40 ≤ s.now) :
    serveAdoption n s = missAdoption n s := by
  unfold serveAdoption
  rw [none_]
  exact if_neg (Nat.not_lt.mpr late)

theorem mismatch_misses (n : SecId) (s : State) : let u := missAdoption n (setMismatch n s)
    (u.sec n).eval = .none ∧ (u.sec n).mismatch = true ∧ (u.sec n).core = (s.sec n).core ∧ bit u.zl.fault 5 = true ∧
      bystanders n u = bystanders n s := by
  intro u
  have marked : (setMismatch n s).sec n = { s.sec n with mismatch := true } :=
    (sec_of_device (flagZl_device ..) n).trans (modSec_sec_same ..)
  have sec : u.sec n = { (setMismatch n s).sec n with eval := .none, intake := [], intakeCmd := [] } := missAdoption_sec
  rw [marked] at sec
  refine ⟨by rw [sec], by rw [sec], by rw [sec], ?_, ?_⟩
  · have zl : u.zl.fault = (setMismatch n s).zl.fault := (congrArg Zl.fault missAdoption_zl :)
    rw [zl]
    have flagged : (setMismatch n s).zl.fault = (s.modSec n fun x => { x with mismatch := true }).zl.fault ||| bits 5 1 :=
      (congrArg Zl.fault (zl_of_device (flagZl_device ..) :) :)
    rw [flagged]
    exact bit_flagged _ _ (by decide)
  · exact (bystanders_missAdoption ..).trans ((bystanders_flagZl ..).trans (bystanders_modSec ..))

/-- Settles O28, by the rules of the working copy, then grant and commit case by case. -/
theorem sectionEvaluation : Obligations.Section_evaluation := by
  unfold Obligations.Section_evaluation
  refine ⟨fun s n => ⟨countRule s n, matchRule s n, failRule s n, applyRule s n⟩, sigDistRule,
    fun t s n running quiet cut turn due => ?_, fun t s n p running quiet served copy searched ended inTime isOpen => ?_⟩
  · have run : ∀ f, (Host.Outcome.next (whenRunning f (s.advance t)) : Host.Outcome State Fault Refusal) =
        .next (f (s.advance t)) := fun f => congrArg Host.Outcome.next (whenRunning_advance running)
    have granted := grant_first (s := s.advance t) quiet cut turn due
    refine ⟨fun p role eval => ⟨fun inTime engine => ?_, fun late engine => ?_⟩,
      fun role => ⟨fun e adopts => ⟨fun same inTime => ?_, fun differs => ?_⟩, fun none_ late => ?_⟩⟩
    · have serves := (granted.trans (if_neg (not_not.mpr role))).trans
        ((congrArg (grantPriv n · (s.advance t)) eval).trans (grantPriv_serves engine inTime))
      obtain ⟨q, is, work, sec, others, heads⟩ := serve_serves (n := n) (s := s.advance t) (p := p)
      refine ⟨_, q, (run _).trans (congrArg Host.Outcome.next serves), ?_, ?_, is, work, ?_, others, heads⟩ <;> rw [sec]
      rfl
    · have drops := (granted.trans (if_neg (not_not.mpr role))).trans
        ((congrArg (grantPriv n · (s.advance t)) eval).trans (grantPriv_drops engine late))
      have substance := dropSec_substance n (s.advance t)
      obtain ⟨counted, flagged⟩ := dropSec_shows (n := n) (s := s.advance t)
      obtain ⟨others, heads⟩ := bystanders_iff.mp (bystanders_dropSec n (s.advance t))
      exact ⟨_, (run _).trans (congrArg Host.Outcome.next drops), (congrArg Section.eval substance :),
        (congrArg Section.late substance :), (congrArg (fun x : Section => x.core.state) substance :),
        (congrArg (fun x : Section => x.core.count) substance :), (congrArg Section.queue substance :), counted, flagged,
        others, heads⟩
    · obtain ⟨l, g, f, core, adopted, work, kept⟩ := adoptPriv_core (n := n) (s := s.advance t) e
      have serves := (granted.trans (if_pos role)).trans (((grant_adopts adopts).1 same).trans
        (grantPriv_serves (.inl (by rw [work]; rfl)) (by rw [work]; exact inTime)))
      obtain ⟨q, is, -, sec, others, heads⟩ := serve_serves (n := n) (s := s.advance t) (p := adoptPriv (s.advance t) n e)
      have qcore : q.core = (adoptPriv (s.advance t) n e).core := (congrArg Priv.core is :)
      rw [core] at qcore
      refine ⟨_, q, (run _).trans (congrArg Host.Outcome.next serves), by rw [sec], by rw [sec],
        (congrArg Priv.adopted is :).trans adopted, (congrArg SecCore.state qcore :), (congrArg SecCore.service qcore :),
        (congrArg SecCore.count qcore :), (congrArg SecCore.reason qcore :), (congrArg SecCore.conf qcore :),
        (congrArg SecCore.susp qcore :), fun none_ => (congrArg SecCore.ledger qcore :).trans (kept none_), others, heads⟩
    · have misses := (granted.trans (if_pos role)).trans ((grant_adopts adopts).2 differs)
      obtain ⟨eval, mismatch, core, flag, by_⟩ := mismatch_misses n (s.advance t)
      obtain ⟨others, heads⟩ := bystanders_iff.mp by_
      exact ⟨_, (run _).trans (congrArg Host.Outcome.next misses), eval, mismatch, core, flag, others, heads⟩
    · have late' : (s.advance t).epc.start + us 40 ≤ (s.advance t).now := late
      have misses := (granted.trans (if_pos role)).trans (grant_misses none_ late')
      obtain ⟨others, heads⟩ := bystanders_iff.mp (bystanders_missAdoption n (s.advance t))
      exact ⟨_, (run _).trans (congrArg Host.Outcome.next misses), by rw [missAdoption_sec], by rw [missAdoption_sec]; rfl,
        (congrArg Zl.missed missAdoption_zl :), others, heads⟩
  · have commits := commitSec_commits (s := s.advance t) served copy quiet searched ended inTime isOpen
    rw [atCommit_eq] at commits
    obtain ⟨_, -, -, -, -, last, by_⟩ := commitPriv_commits (n := n) (s := s.advance t)
      (p := if (s.sec n).core.service = true ∨ p.adopted = true then p else evaluate (s.advance t) n)
    obtain ⟨eval, late, core, adopts⟩ := commitPriv_sec (n := n) (s := s.advance t)
      (p := if (s.sec n).core.service = true ∨ p.adopted = true then p else evaluate (s.advance t) n)
    obtain ⟨others, heads⟩ := bystanders_iff.mp by_
    refine ⟨_, congrArg Host.Outcome.next ((whenRunning_advance running).trans commits), eval, late, core,
      fun e adopted found => adopts e ?_ found, ⟨_, last, Nat.le_add_right ..⟩, others, heads⟩
    rw [if_pos (.inr adopted)]
    exact adopted

end Sys2Proof.Machine
end

section
/-! SUPPORT. Supply monitors and the field-die reset (R310, R327 to R331, R336, R341). Settles O38. -/
namespace Sys2Proof.Machine

/-! ### One die of a mask -/

def dieBit (d : DieId) : BitVec 8 := BitVec.ofNat 8 (2 ^ d.val)

theorem dieBit_getLsbD (d e : DieId) : (dieBit d).getLsbD e.val = decide (e = d) := by
  rw [dieBit, BitVec.getLsbD_ofNat, Nat.testBit_two_pow, decide_eq_true e.isLt, Bool.true_and]
  exact decide_eq_decide.mpr ⟨fun h => (Fin.ext h).symm, fun h => by rw [h]⟩

theorem or_dieBit (a : BitVec 8) (d e : DieId) : (a ||| dieBit d).getLsbD e.val = (a.getLsbD e.val || decide (e = d)) := by
  rw [BitVec.getLsbD_or, dieBit_getLsbD]

theorem andNot_dieBit (a : BitVec 8) (d e : DieId) :
    (a &&& ~~~ dieBit d).getLsbD e.val = (a.getLsbD e.val && !decide (e = d)) := by
  rw [BitVec.getLsbD_and, BitVec.getLsbD_not, dieBit_getLsbD, decide_eq_true e.isLt, Bool.true_and]

/-- Setting a bit that is set changes nothing. -/
theorem or_dieBit_set {a : BitVec 8} {d : DieId} (set_ : a.getLsbD d.val = true) : a ||| dieBit d = a := by
  refine BitVec.eq_of_getLsbD_eq fun i small => ?_
  have same := or_dieBit a d ⟨i, small⟩
  refine same.trans ?_
  by_cases is : (⟨i, small⟩ : DieId) = d
  · rw [decide_eq_true is, Bool.or_true, show i = d.val from congrArg Fin.val is, set_]
  · rw [decide_eq_false is, Bool.or_false]

/-! ### What the reset of a die leaves of the power block -/

/-- The power block. -/
def Rest.power : Rest where
  Part := Pwr
  view := State.pwr
  own _ := True
  words := True
  lines := True
  of_device s u e := (congrArg State.pwr e :)
  of_blocks _ _ _ _ _ := rfl
  of_survey _ _ := rfl
  of_head _ _ _ _ _ := rfl
  of_sec _ _ _ _ := rfl
  of_trip _ _ _ _ := rfl

theorem pwr_of {s u : State} (e : Rest.power.view u = Rest.power.view s) : u.pwr = s.pwr := e

section
variable (F : Rest) (d : DieId) (s : State)

theorem rest_endHeadJobs (h : HeadId) : F.view (endHeadJobs h s) = F.view s := by
  unfold endHeadJobs
  extract_lets x u v swap
  have swaps : ∀ (o : Option Swap) (u : State), F.view (swap o u) = F.view u := fun o u => by
    unfold swap
    split <;> simp
  rw [swaps, swaps]
  unfold v u
  split <;> simp

theorem rest_endDieSweeps (own : ∀ h, F.own h) : F.view (endDieSweeps d s) = F.view s := by
  unfold endDieSweeps
  refine rest_foldOver F _ (fun g u => ?_) s
  split
  · exact rest_endSweep (all := own) ..
  · rfl

theorem rest_dieNotice : F.view (dieNotice d s) = F.view s := by
  unfold dieNotice
  extract_lets heads u
  refine (rest_foldOver F _ (fun n u => ?_) _).trans (rest_foldOver F _ (fun h u => rest_activity ..) _)
  split
  · exact rest_pushItem ..
  · rfl
end

/-- The heads of a die are those that it is the die of. -/
theorem mem_dieHeads {h : HeadId} {d : DieId} : h ∈ dieHeads d ↔ dieOf h = d := by
  have low := h.isLt
  have die := d.isLt
  simp only [dieHeads, List.mem_map, List.mem_range, dieOf, Fin.ext_iff, Fin.val_ofNat]
  constructor
  · rintro ⟨i, small, is⟩
    omega
  · intro of
    exact ⟨h.val % 32, by omega, by omega⟩

/-! ### The reset of a die (R330, R332) -/

section
variable (d : DieId) (s : State)

/-- The reset of a die up to the latches that it sets. -/
def endDie : State := foldOver (dieHeads d) setLatches (endDieSweeps d (foldOver (dieHeads d) endHeadJobs s))

/-- Every rest that allows its heads and its trips survives it. -/
theorem rest_endDie (F : Rest) (own : ∀ h, F.own h) (lines : F.lines) : F.view (endDie d s) = F.view s :=
  (rest_foldOver F _ (fun h u => rest_setLatches u h lines) _).trans ((rest_endDieSweeps F d _ own).trans
    (rest_foldOver F _ (fun h u => rest_endHeadJobs F u h) _))

/-- The reset sets each latch of its heads' sections. -/
theorem endDie_latches {h : HeadId} {n : SecId} (of : dieOf h = d) (bound : boundTo h (s.sec n) = true) :
    ((endDie d s).sec n).latch = true := by
  have trips := foldOver_establishes (f := setLatches)
    (P := fun h u => boundTo h (u.sec n) = false ∨ (u.sec n).latch = true) (fun h u => ?_) (fun h g u was => ?_)
    (mem_dieHeads.mpr of) (endDieSweeps d (foldOver (dieHeads d) endHeadJobs s))
  · refine trips.resolve_left fun loose => ?_
    have loose : boundTo h ((endDie d s).sec n) = false := loose
    rw [boundTo_of (rest_endDie d s Rest.binds binds_own binds_lines) h n, bound] at loose
    cases loose
  · cases b : boundTo h (u.sec n) with
    | true => exact .inr (setLatches_sets b)
    | false => exact .inl ((boundTo_of (rest_setLatches u h binds_lines) h n).trans b)
  · rcases was with loose | set_
    · exact .inl ((boundTo_of (rest_setLatches u h binds_lines) g n).trans loose)
    · obtain ⟨b, l, sec, kept⟩ := setLatches_latch h n u
      exact .inr (by rw [sec]; exact kept set_)

theorem endDie_otherDies : OtherDiesKept d s (endDie d s) := by
  intro e other
  have jobs : ∀ u : State, (foldOver (dieHeads d) endHeadJobs u).dies = u.dies := foldOver_keeps (g := State.dies) fun h u => by
    unfold endHeadJobs
    extract_lets x v w swap
    have done_ : ∀ job st k (u : State), (completeJob job st k u).dies = u.dies := fun job st k u =>
      (congrArg State.dies (completeJob_device u job st k) :)
    have swaps : ∀ (o : Option Swap) (u : State), (swap o u).dies = u.dies := fun o u => by
      unfold swap
      split
      · exact done_ ..
      · rfl
    rw [swaps, swaps]
    unfold w v
    split
    · rw [done_, done_]
    · exact done_ ..
  have ended : ∀ g w u, (endSweep d g w 9 u).die e = u.die e := fun g w u => by
    have tone : ∀ f, ((u.modTone d g f).die e) = u.die e := fun f => modDie_die_other _ _ _ _ other
    unfold endSweep
    extract_lets a b
    split
    · exact (congrArg (fun l => tget l e) (congrArg State.dies (complete_device ..) :)).trans (tone _)
    · exact tone _
  have sweeps : ∀ u : State, (endDieSweeps d u).die e = u.die e := fun u => by
    unfold endDieSweeps
    refine foldOver_keeps (g := fun u : State => u.die e) (fun g u => ?_) u
    split
    · exact ended ..
    · rfl
  have latches : ∀ u : State, (foldOver (dieHeads d) setLatches u).die e = u.die e :=
    foldOver_keeps (g := fun u : State => u.die e) fun h u => congrArg (fun l => tget l e) (setLatches_dies h u)
  exact (latches _).trans ((sweeps _).trans (congrArg (fun l => tget l e) (jobs s)))

/-- Then the die goes into reset, and its heads' blocks and counters with it. -/
theorem resetDie_after : ∃ v w f, resetDie d s =
    foldOver (dieHeads d) (fun h s => s.modIrq (fun q => { q with hcnt := tset q.hcnt h { count := 0, sat := false } })) v ∧
    v = w.modDie d f ∧ w = foldOver (dieHeads d) (fun h s => s.modHead h resetHead)
      ((endDie d s).modPwr (fun p => { p with inReset := p.inReset ||| dieBit d })) := ⟨_, _, _, rfl, rfl, rfl⟩

theorem resetDie_keeps : (resetDie d s).pwr = { s.pwr with inReset := s.pwr.inReset ||| dieBit d } ∧
    (resetDie d s).sections = (endDie d s).sections ∧ OtherDiesKept d s (resetDie d s) := by
  obtain ⟨v, w, f, shape, reset, heads⟩ := resetDie_after d s
  have power : (endDie d s).pwr = s.pwr := pwr_of (rest_endDie d s Rest.power (fun _ => trivial) trivial)
  have others := endDie_otherDies d s
  generalize endDie d s = ended at heads power others
  have last : ∀ {β : Type} (g : State → β), (∀ (u : State) q, g (u.modIrq q) = g u) → g (resetDie d s) = g v := fun g keep => by
    rw [shape]
    exact foldOver_keeps (g := g) (fun h u => keep u _) v
  have before : ∀ {β : Type} (g : State → β), (∀ (u : State) h k, g (u.modHead h k) = g u) → g w =
      g (ended.modPwr (fun p => { p with inReset := p.inReset ||| dieBit d })) := fun g keep => by
    rw [heads]
    exact foldOver_keeps (g := g) (fun h u => keep u h _) _
  refine ⟨?_, ?_, fun e other => ?_⟩
  · rw [last State.pwr fun _ _ => rfl, reset]
    refine (before State.pwr fun _ _ _ => rfl).trans ?_
    rw [← power]
    rfl
  · rw [last State.sections fun _ _ => rfl, reset]
    exact before State.sections fun _ _ _ => rfl
  · rw [last (fun u => u.die e) fun _ _ => rfl, reset, modDie_die_other _ _ _ _ other]
    exact (before (fun u => u.die e) fun _ _ _ => rfl).trans (others e other)

/-! ### A monitor resets a die (R327, R341) -/

theorem dieNotice_dies : (dieNotice d s).dies = s.dies := by
  unfold dieNotice
  extract_lets heads u
  refine (foldOver_keeps (g := State.dies) (fun n u => ?_) _).trans (foldOver_keeps (g := State.dies) (fun h u => activity_dies ..) _)
  split
  · exact pushItem_dies ..
  · rfl

theorem dieDown_keeps : (dieDown d s).pwr = { s.pwr with inReset := s.pwr.inReset ||| dieBit d } ∧
    OtherDiesKept d s (dieDown d s) ∧
    (∀ h n, dieOf h = d → dieUp s d = true → boundTo h (s.sec n) = true → ((dieDown d s).sec n).latch = true) := by
  cases up : dieUp s d with
  | true =>
    have shape : dieDown d s = resetDie d (dieNotice d s) := if_pos up
    obtain ⟨pwr, secs, dies⟩ := resetDie_keeps d (dieNotice d s)
    rw [shape]
    refine ⟨?_, fun e other => ?_, fun h n of _ bound => ?_⟩
    · rw [pwr, pwr_of (rest_dieNotice Rest.power d s)]
    · exact (dies e other).trans (congrArg (fun l => tget l e) (dieNotice_dies d s))
    · have bound : boundTo h ((dieNotice d s).sec n) = true := (boundTo_of (rest_dieNotice Rest.binds d s) h n).trans bound
      exact (congrArg (fun l => (tget l n).latch) secs).trans (endDie_latches d _ of bound)
  | false =>
    have shape : dieDown d s = s := if_neg (by rw [up]; decide)
    have down : s.pwr.inReset.getLsbD d.val = true := by simpa [dieUp] using up
    rw [shape, or_dieBit_set down]
    exact ⟨rfl, fun _ _ => rfl, nofun⟩

theorem monitorDie_keeps :
    (monitorDie d s).pwr = { s.pwr with inReset := s.pwr.inReset ||| dieBit d, held := s.pwr.held ||| dieBit d } ∧
    OtherDiesKept d s (monitorDie d s) ∧
    (∀ h n, dieOf h = d → dieUp s d = true → boundTo h (s.sec n) = true → ((monitorDie d s).sec n).latch = true) := by
  obtain ⟨pwr, dies, latches⟩ := dieDown_keeps d s
  have held : ∀ v : State, (if dieUp s d then trig 9 d.val (put 28 4 2) v else v).device = v.device := fun v => by
    split
    · exact trig_device ..
    · rfl
  have same := held ((dieDown d s).modPwr (fun p => { p with held := p.held ||| dieBit d }))
  have shape : monitorDie d s = (if dieUp s d then trig 9 d.val (put 28 4 2)
      ((dieDown d s).modPwr (fun p => { p with held := p.held ||| dieBit d })) else
      (dieDown d s).modPwr (fun p => { p with held := p.held ||| dieBit d })) := rfl
  rw [← shape] at same
  refine ⟨(congrArg State.pwr same :).trans ?_, fun e other => ?_, fun h n of up bound => ?_⟩
  · show { (dieDown d s).pwr with held := (dieDown d s).pwr.held ||| dieBit d } = _
    rw [pwr]
  · exact (congrArg (fun u : State => tget u.dies e) same :).trans (dies e other)
  · exact (congrArg (fun x : Section => x.latch) (sec_of_device same n)).trans (latches h n of up bound)
end

end Sys2Proof.Machine
end

section
/-! SUPPORT. The monitors of the host and core supplies, and the recoveries (R310, R327 to R330, R341). Settles O38. -/
namespace Sys2Proof.Machine

section
variable (s : State)

theorem flagPwr_device (flags die : Word) (source : Nat) : (flagPwr flags die source s).device =
    (s.modPwr (fun p => { p with fault := p.fault ||| flags, dieFault := p.dieFault ||| die })).device := by
  unfold flagPwr
  extract_lets old u
  split
  · rfl
  · exact (trig_device ..).trans rfl

/-! ### Die monitors (R327) -/

theorem dieUp_false {u : State} {d : DieId} {a : BitVec 8} (e : u.pwr.inReset = a ||| dieBit d) : dieUp u d = false := by
  rw [dieUp, e, or_dieBit, decide_eq_true rfl, Bool.or_true]
  rfl

/-- Every die is down once each monitor has reset its own. -/
theorem monitorDies_down (d : DieId) : dieUp (foldOver (allFin 8) monitorDie s) d = false := by
  refine foldOver_establishes (P := fun d u => dieUp u d = false) (fun d u => ?_) (fun e d u was => ?_)
    (List.mem_finRange d) s
  · exact dieUp_false (congrArg Pwr.inReset (monitorDie_keeps d u).1 :)
  · have was : u.pwr.inReset.getLsbD d.val = true := by simpa [dieUp] using was
    rw [dieUp, show (monitorDie e u).pwr.inReset = u.pwr.inReset ||| dieBit e from (congrArg Pwr.inReset (monitorDie_keeps e u).1 :),
      or_dieBit, was]
    rfl

theorem monitorDies_fault : (foldOver (allFin 8) monitorDie s).pwr.fault = s.pwr.fault :=
  foldOver_keeps (g := fun u : State => u.pwr.fault) (fun d u => (congrArg Pwr.fault (monitorDie_keeps d u).1 :)) s

/-! ### The host supply (R327) -/

theorem vserTrip_device : ∃ v f, (vserTrip s).device = ({ s with
    vsp := v
    zl := { s.zl with link := .down, upCount := 0, laneLock := 0, alignRun := 0, fault := f }
    pwr := { s.pwr with
      hostUp := false, linkUp := false, hostHeld := true, linkHeld := true, fault := s.pwr.fault ||| bits 3 1
      dieFault := s.pwr.dieFault ||| 0 } } : State).device := by
  obtain ⟨v, cut⟩ := cutReads_inPort s
  obtain ⟨f, down⟩ := linkToDown_device (s := endpointReset (cutReads s))
  have cut : (endpointReset (cutReads s)).device = ({ s with vsp := v } : State).device := cut
  have shape : vserTrip s = flagPwr (bits 3 1) 0 0xFFFF ((linkToDown (endpointReset (cutReads s))).modPwr (fun p => { p with
    hostUp := false, linkUp := false, hostHeld := true, linkHeld := true })) := rfl
  rw [shape]
  clear shape
  generalize endpointReset (cutReads s) = w at cut down
  have down := down.trans (congrArg (fun x : State => ({ x with zl := { x.zl with
    link := .down, upCount := 0, laneLock := 0, alignRun := 0, fault := f } } : State)) cut :)
  generalize linkToDown w = x at down
  refine ⟨v, f, (flagPwr_device ..).trans ?_⟩
  exact (congrArg (fun x : State => x.modPwr (fun p => { p with
    hostUp := false, linkUp := false, hostHeld := true, linkHeld := true, fault := p.fault ||| bits 3 1
    dieFault := p.dieFault ||| 0 })) down :)
end

/-! ### The core supply (R310, R327, R329) -/

section
variable {s : State}

theorem coreReset_vcore (out : s.phase ≠ .reset) :
    coreReset .vcoreUv s = { clearCore (tearWrite s) with aon := s.aon.afterReset .vcoreUv } := by
  unfold coreReset
  rw [if_neg (by rintro (r | ⟨-, -, c | c⟩) <;> [exact out r; cases c; cases c]), if_pos (.inl rfl)]
  show { clearCore (tearWrite s) with aon := (tearWrite s).aon.afterReset .vcoreUv } = _
  rw [tearWrite_aon]

/-- A torn write changes no byte outside the slot of the last record. -/
theorem tearWrite_outside (inv : MemInv s) {a : Nat}
    (out : a < slotAddr ((s.aon.next + 2 ^ 32 - 1) % 2 ^ 32) ∨ slotAddr ((s.aon.next + 2 ^ 32 - 1) % 2 ^ 32) + 128 ≤ a) :
    memGet (tearWrite s).rcd.mem a = memGet s.rcd.mem a := by
  unfold tearWrite
  split
  · split
    · extract_lets body
      have bytes : body.length = 124 := by rw [List.length_map, List.length_range]
      clear_value body
      have length : (body ++ leWord (~~~ recordCrc body)).length = 128 := by
        rw [List.length_append, bytes, leWord, le_length]
      generalize body ++ leWord (~~~ recordCrc body) = torn at length
      exact memGet_memWrite_of_outside inv (by rw [length]; exact out)
    · rfl
  · rfl
end

/-- Settles O38, monitor by monitor. -/
theorem supplyMonitors : Obligations.Supply_monitors := by
  unfold Obligations.Supply_monitors
  intro t s
  refine ⟨fun up => ⟨fun d => ?_, ?_, ?_⟩, fun out => ?_, ⟨_, rfl, rfl, rfl⟩, ⟨_, rfl, rfl, rfl⟩, fun up => ?_⟩
  · have up : awake ((s.advance t).modPwr (fun p => { p with supplyOk := p.supplyOk &&& ~~~ BitVec.ofNat 8 (2 ^ d.val) })) = true := up
    obtain ⟨lost, is⟩ : ∃ v, v = flagPwr (bits 4 1) (bits d.val 1) d.val ((s.advance t).modPwr (fun p => { p with
      supplyOk := p.supplyOk &&& ~~~ BitVec.ofNat 8 (2 ^ d.val) })) := ⟨_, rfl⟩
    have device := (congrArg State.device is).trans (flagPwr_device ..)
    have run : exec (.supplyMonitorTrip t (.dieSupply d)) s = .next (monitorDie d lost) := by
      rw [is]
      exact congrArg Host.Outcome.next (if_pos up)
    have phase : (monitorDie d lost).phase = lost.phase := by simp [monitorDie]
    obtain ⟨pwr, dies, latches⟩ := monitorDie_keeps d lost
    have power := (congrArg State.pwr device :)
    have secs : lost.sections = s.sections := (congrArg State.sections device :)
    refine ⟨_, run, dieUp_false (congrArg Pwr.inReset pwr :), ?_, ?_, ?_, ?_, fun h n of wasUp bound => ?_, fun e other => ?_, ?_⟩
    · rw [show (monitorDie d lost).pwr.held = lost.pwr.held ||| dieBit d from (congrArg Pwr.held pwr :), or_dieBit,
        decide_eq_true rfl, Bool.or_true]
    · rw [show (monitorDie d lost).pwr.supplyOk = s.pwr.supplyOk &&& ~~~ dieBit d from
        (congrArg Pwr.supplyOk pwr :).trans (congrArg Pwr.supplyOk power :), andNot_dieBit, decide_eq_true rfl, Bool.not_true,
        Bool.and_false]
    · rw [show (monitorDie d lost).pwr.fault = s.pwr.fault ||| bits 4 1 from
        (congrArg Pwr.fault pwr :).trans (congrArg Pwr.fault power :)]
      exact bit_flagged _ _ (by decide)
    · rw [show (monitorDie d lost).pwr.dieFault = s.pwr.dieFault ||| bits d.val 1 from
        (congrArg Pwr.dieFault pwr :).trans (congrArg Pwr.dieFault power :)]
      exact bit_flagged _ _ (bit_bits_one (by omega))
    · refine latches h n of ?_ ?_
      · rw [dieUp, show lost.pwr.inReset = s.pwr.inReset from (congrArg Pwr.inReset power :)]
        exact wasUp
      · rw [State.sec, secs]
        exact bound
    · exact (dies e other).trans (congrArg (fun u : State => tget u.dies e) device :)
    · exact phase.trans (congrArg State.phase device :)
  · have up : awake (s.advance t) = true := up
    refine ⟨_, congrArg Host.Outcome.next (if_pos up), monitorDies_down _, ?_, ?_⟩
    · rw [monitorDies_fault, show (flagPwr (bits 0 1) 0 0xFFFF (s.advance t)).pwr.fault = s.pwr.fault ||| bits 0 1 from
        (congrArg (fun u : State => u.pwr.fault) (flagPwr_device ..) :)]
      exact bit_flagged _ _ (by decide)
    · simp [monitorDie]
  · have up : awake (s.advance t) = true := up
    obtain ⟨v, f, device⟩ := vserTrip_device (s.advance t)
    refine ⟨_, congrArg Host.Outcome.next (if_pos up), (congrArg (fun u : State => u.pwr.hostUp) device :),
      (congrArg (fun u : State => u.pwr.linkUp) device :), (congrArg (fun u : State => u.zl.link) device :), ?_,
      (congrArg State.heads device :), (congrArg State.sections device :), (congrArg State.phase device :)⟩
    exact (congrArg (fun u : State => bit u.pwr.fault 3) device :).trans (bit_flagged _ _ (by decide))
  · have run := coreReset_vcore (s := s.advance t) out
    refine ⟨_, congrArg (fun u : State => Host.Outcome.next (u.modPwr fun p => { p with coreHeld := true })) run, rfl, rfl, rfl, tearWrite_key _, fun ended => ?_,
      fun inv a outside => ?_⟩
    · exact (congrArg (fun u : State => u.rcd.mem) (tearWrite_of_ended (s := s.advance t) ended) :)
    · exact tearWrite_outside (s := s.advance t) inv outside
  · have up : awake (s.advance t) = true := up
    exact ⟨_, rfl, (congrArg ((s.advance t).pwr.hostUp || ·) up).trans (Bool.or_true _), rfl, rfl⟩

end Sys2Proof.Machine
end

section
/-! SUPPORT. Field dies in service and start-up (R329, R331, R338, R340). Settles O40. -/
namespace Sys2Proof.Machine

/-! ### Latches and the port while a die goes down -/

/-- The trip latches of the sections. -/
def Rest.latches : Rest where
  Part := SecId → Bool
  view s := fun n => (s.sec n).latch
  own _ := True
  words := True
  lines := False
  of_device s u e := by simp [sec_of_device e]
  of_blocks _ _ _ _ _ := rfl
  of_survey _ _ := rfl
  of_head _ _ _ _ _ := rfl
  of_sec s n f keep := by
    funext m
    have latch : ∀ x, (f x).latch = x.latch := fun x => (congrArg Section.latch (keep x) :)
    rw [modSec_sec]
    split
    · exact latch _
    · rfl
  of_trip _ _ _ no := no.elim

theorem latch_of {s u : State} (e : Rest.latches.view u = Rest.latches.view s) (n : SecId) :
    (u.sec n).latch = (s.sec n).latch := (congrFun e n :)

theorem complete_admSeq (seq : Nat) (st : Status) (k : Nat) (resp : List Byte) (s : State) :
    (complete seq st k resp s).hp.admSeq = s.hp.admSeq := by
  have writes : ∀ (c : InFlight) st k resp (u : State), (writeCompletion c st k resp u).hp.admSeq = u.hp.admSeq :=
    fun c st k resp u => by
      obtain ⟨w, shape, hp⟩ : ∃ w : State, writeCompletion c st k resp u = stepIndex (compOrbit c.orbit) w ∧
        w.hp.admSeq = u.hp.admSeq := ⟨_, rfl, rfl⟩
      rw [shape, stepIndex_hp, hp]
  unfold complete
  split
  · rfl
  next c rest _ =>
    extract_lets p u
    have begun : u.hp.admSeq = s.hp.admSeq := rfl
    clear_value u
    split
    · exact begun
    · split <;> exact (writes ..).trans begun

theorem completeJob_admSeq (job : Option Nat) (st : Status) (k : Nat) (s : State) :
    (completeJob job st k s).hp.admSeq = s.hp.admSeq := by
  cases job
  · rfl
  · exact complete_admSeq ..

section
variable (d : DieId) (s : State)

theorem endHeadJobs_admSeq (h : HeadId) : (endHeadJobs h s).hp.admSeq = s.hp.admSeq := by
  unfold endHeadJobs
  extract_lets x u v swap
  have swaps : ∀ (o : Option Swap) (u : State), (swap o u).hp.admSeq = u.hp.admSeq := fun o u => by
    unfold swap
    split
    · exact completeJob_admSeq ..
    · rfl
  rw [swaps, swaps]
  unfold v u
  split
  · rw [completeJob_admSeq, completeJob_admSeq]
  · exact completeJob_admSeq ..

theorem endDie_admSeq : (endDie d s).hp.admSeq = s.hp.admSeq := by
  have latches : ∀ u : State, (foldOver (dieHeads d) setLatches u).hp.admSeq = u.hp.admSeq :=
    foldOver_keeps (g := fun u : State => u.hp.admSeq) fun h u =>
      foldOver_keeps (g := fun u : State => u.hp.admSeq) (fun _ _ => by rfl) u
  have jobs : ∀ u : State, (foldOver (dieHeads d) endHeadJobs u).hp.admSeq = u.hp.admSeq :=
    foldOver_keeps (g := fun u : State => u.hp.admSeq) fun h u => endHeadJobs_admSeq u h
  have sweeps : ∀ u : State, (endDieSweeps d u).hp.admSeq = u.hp.admSeq := fun u => by
    unfold endDieSweeps
    refine foldOver_keeps (g := fun u : State => u.hp.admSeq) (fun g u => ?_) u
    split
    · unfold endSweep
      extract_lets a b
      split
      · exact complete_admSeq ..
      · rfl
    · rfl
  unfold endDie
  rw [latches, sweeps, jobs]

theorem dieNotice_hp : (dieNotice d s).hp = s.hp := by
  unfold dieNotice
  extract_lets heads u
  refine (foldOver_keeps (g := State.hp) (fun n u => ?_) _).trans (foldOver_keeps (g := State.hp) (fun h u => activity_hp ..) _)
  split
  · exact pushItem_hp ..
  · rfl

theorem resetDie_admSeq : (resetDie d s).hp.admSeq = s.hp.admSeq := by
  have ended := endDie_admSeq d s
  obtain ⟨v, w, f, shape, reset, heads⟩ := resetDie_after d s
  generalize endDie d s = e at ended heads
  rw [shape, foldOver_keeps (g := fun u : State => u.hp.admSeq) (fun h u => by rfl) v, reset]
  refine Eq.trans ?_ ended
  rw [modDie_hp, heads]
  exact foldOver_keeps (g := fun u : State => u.hp.admSeq) (fun h u => by rfl) _

theorem dieDown_admSeq : (dieDown d s).hp.admSeq = s.hp.admSeq := by
  unfold dieDown
  split
  · rw [resetDie_admSeq, dieNotice_hp]
  · rfl

theorem dieDown_bound (h : HeadId) (n : SecId) : boundTo h ((dieDown d s).sec n) = boundTo h (s.sec n) := by
  unfold dieDown
  split
  · rw [State.sec, (resetDie_keeps d (dieNotice d s)).2.1]
    exact (boundTo_of (rest_endDie d _ Rest.binds binds_own binds_lines) h n).trans
      (boundTo_of (rest_dieNotice Rest.binds d s) h n)
  · rfl

/-- A latch that is set stays set while a die goes down. -/
theorem dieDown_latch {n : SecId} (set_ : (s.sec n).latch = true) : ((dieDown d s).sec n).latch = true := by
  have latches : ∀ (l : List HeadId) (u : State), (u.sec n).latch = true → ((foldOver l setLatches u).sec n).latch = true :=
    fun l => by
      induction l with
      | nil => exact fun u set_ => set_
      | cons h l ih =>
        intro u set_
        obtain ⟨b, log, sec, kept⟩ := setLatches_latch h n u
        exact ih (setLatches h u) (by rw [sec]; exact kept set_)
  unfold dieDown
  split
  · rw [State.sec, (resetDie_keeps d (dieNotice d s)).2.1]
    refine latches _ _ ?_
    rw [latch_of (rest_endDieSweeps Rest.latches d _ fun _ => trivial) n,
      latch_of (rest_foldOver Rest.latches _ (fun h u => rest_endHeadJobs Rest.latches u h) _) n,
      latch_of (rest_dieNotice Rest.latches d s) n]
    exact set_
  · exact set_
end

/-! ### Turning dies off (R331) -/

section
variable (d : DieId) (s : State)

theorem turnOff_pwr : (turnOff d s).pwr = { s.pwr with
    inReset := s.pwr.inReset ||| dieBit d, goingOff := s.pwr.goingOff ||| dieBit d } := by
  show { (dieDown d s).pwr with goingOff := (dieDown d s).pwr.goingOff ||| dieBit d } = _
  rw [(dieDown_keeps d s).1]

/-- What a loop that turns dies off leaves of the power block. -/
theorem turnOffs_pwr (l : List DieId) : ∃ r g, (foldOver l turnOff s).pwr = { s.pwr with inReset := r, goingOff := g } := by
  induction l generalizing s with
  | nil => exact ⟨_, _, rfl⟩
  | cons e l ih =>
    obtain ⟨r, g, rest⟩ := ih (turnOff e s)
    exact ⟨r, g, rest.trans (by rw [turnOff_pwr])⟩

theorem turnOffs_admSeq (l : List DieId) : (foldOver l turnOff s).hp.admSeq = s.hp.admSeq :=
  foldOver_keeps (g := fun u : State => u.hp.admSeq) (f := turnOff) (fun e u => (dieDown_admSeq e u : (turnOff e u).hp.admSeq = u.hp.admSeq)) s

/-- Each die of the loop goes down and off. -/
theorem turnOffs_down {l : List DieId} (mem : d ∈ l) : dieUp (foldOver l turnOff s) d = false ∧
    (foldOver l turnOff s).pwr.goingOff.getLsbD d.val = true := by
  refine foldOver_establishes (P := fun d u => dieUp u d = false ∧ u.pwr.goingOff.getLsbD d.val = true) (fun d u => ?_)
    (fun e d u was => ?_) mem s
  · refine ⟨dieUp_false (congrArg Pwr.inReset (turnOff_pwr d u) :), ?_⟩
    rw [turnOff_pwr, or_dieBit, decide_eq_true rfl, Bool.or_true]
  · obtain ⟨down, off⟩ := was
    have down : u.pwr.inReset.getLsbD d.val = true := by simpa [dieUp] using down
    refine ⟨?_, ?_⟩
    · rw [dieUp, turnOff_pwr, or_dieBit, down]
      rfl
    · rw [turnOff_pwr, or_dieBit, off]
      rfl

/-- A die that was up and has gone down has set the latches of its heads' sections. -/
theorem turnOffs_latches (l : List DieId) {s : State} (up : dieUp s d = true) (down : dieUp (foldOver l turnOff s) d = false)
    {h : HeadId} {n : SecId} (of : dieOf h = d) (bound : boundTo h (s.sec n) = true) :
    ((foldOver l turnOff s).sec n).latch = true := by
  have binds : ∀ (e : DieId) (u : State), boundTo h ((turnOff e u).sec n) = boundTo h (u.sec n) := fun e u =>
    dieDown_bound e u h n
  have steps : ∀ (l : List DieId) (u : State), boundTo h (u.sec n) = true → (dieUp u d = false → (u.sec n).latch = true) →
      dieUp (foldOver l turnOff u) d = false → ((foldOver l turnOff u).sec n).latch = true := fun l => by
    induction l with
    | nil => exact fun u _ was down => was down
    | cons e l ih =>
      intro u bound was
      refine ih (turnOff e u) ((binds e u).trans bound) fun down => ?_
      show ((dieDown e u).sec n).latch = true
      cases up : dieUp u d with
      | false => exact dieDown_latch e u (was up)
      | true =>
        have same : e = d := by
          by_contra other
          rw [dieUp, turnOff_pwr, or_dieBit, decide_eq_false (Ne.symm other), Bool.or_false] at down
          rw [dieUp, down] at up
          cases up
        subst same
        exact (dieDown_keeps e u).2.2 h n of up bound
  exact steps l s bound (fun was => by rw [up] at was; cases was) down
end

end Sys2Proof.Machine
end

section
/-! SUPPORT. PWR_FLD, the release of a die and start-up (R329, R331, R338, R340). Settles O40. -/
namespace Sys2Proof.Machine

/-! ### PWR_FLD (R331) -/

section
variable {s : State} {d : DieId}

/-- The dies of a mask that still have to follow a command. -/
def todo (mask : BitVec 8) (on : Bool) (s : State) : List DieId := (maskDies mask).filter (fun d => !dieDone s on d)

/-- A mask of dies. -/
def dieMask (l : List DieId) : BitVec 8 := l.foldl (fun m d => m ||| BitVec.ofNat 8 (2 ^ d.val)) 0

theorem dieMask_has {l : List DieId} (mem : d ∈ l) : (dieMask l).getLsbD d.val = true := by
  have keeps : ∀ (l : List DieId) (m : BitVec 8), m.getLsbD d.val = true ∨ d ∈ l →
      (l.foldl (fun m d => m ||| BitVec.ofNat 8 (2 ^ d.val)) m).getLsbD d.val = true := fun l => by
    induction l with
    | nil => exact fun m given => given.resolve_right List.not_mem_nil
    | cons e l ih =>
      intro m given
      refine ih _ ?_
      have joined := or_dieBit m e d
      rw [dieBit] at joined
      rw [joined, Bool.or_eq_true, decide_eq_true_eq]
      rcases given with set_ | mem
      · exact .inl (.inl set_)
      · exact (List.mem_cons.mp mem).imp .inr id
  exact keeps l 0 (.inr mem)

theorem mem_todo {mask : BitVec 8} (wanted : mask.getLsbD d.val = true) (on : s.pwr.on.getLsbD d.val = true) :
    d ∈ todo mask false s := by
  refine List.mem_filter.mpr ⟨List.mem_filter.mpr ⟨List.mem_finRange d, wanted⟩, ?_⟩
  show (!(if false = true then _ else !maskHas s.pwr.on d)) = true
  rw [if_neg Bool.false_ne_true, maskHas, on]
  rfl

/-- A PWR_FLD that turns a die off which is on waits as a job; its dies go down. -/
theorem fldAdmit_off {mask : BitVec 8} {job : Option Nat} (mem : d ∈ todo mask false s) : ∃ u : State,
    fldAdmit mask false job s = foldOver (todo mask false s) turnOff u ∧ u.hp = s.hp ∧ u.sections = s.sections ∧
    u.pwr = { s.pwr with
      result := 0
      fldEn := s.pwr.fldEn &&& ~~~ mask
      jobs := s.pwr.jobs ++ [{ left := dieMask (todo mask false s), on := false, job := job }] } := by
  have some_ : dieMask (todo mask false s) ≠ 0 := fun none_ => by
    have set_ := dieMask_has mem
    rw [none_] at set_
    simp at set_
  unfold fldAdmit
  extract_lets dies left u v
  have waits : left ≠ 0 := some_
  have run : v = foldOver (todo mask false s) turnOff u := rfl
  rw [if_neg waits, run]
  refine ⟨u, rfl, rfl, rfl, ?_⟩
  unfold u State.modPwr
  dsimp only
  rw [if_neg waits]
  rfl

theorem pwrFld_off {p : List Byte} {seq : Nat} (op : field p 1 1 = 0) : pwrFld p seq s =
    if fldTest s (BitVec.ofNat 8 (field p 0 1)) 0 (decide (field p 2 1 % 2 = 1)) ≠ 0 then
      refuse seq .conflict (fldTest s (BitVec.ofNat 8 (field p 0 1)) 0 (decide (field p 2 1 % 2 = 1)))
        (s.modPwr (fun w => { w with
          result := fldTest s (BitVec.ofNat 8 (field p 0 1)) 0 (decide (field p 2 1 % 2 = 1)) }))
    else fldAdmit (BitVec.ofNat 8 (field p 0 1)) false (some seq) s := by
  unfold pwrFld
  rw [op]
  rfl

/-! ### The switches of a die that goes down open (R331) -/

theorem finishDie_device (of : FldJob → Bool) : ∃ jobs, (finishDie of d s).device =
    (s.modPwr (fun p => { p with jobs := jobs })).device := by
  unfold finishDie
  extract_lets jobs u
  exact ⟨_, foldOver_keeps (g := State.device) (fun j u => completeJob_device ..) _⟩

theorem powerDownDone_device (goes : s.pwr.goingOff.getLsbD d.val = true) : ∃ on onAt jobs,
    (powerDownDone d s).device = (s.modPwr (fun p => { p with
      on := on, onAt := onAt, goingOff := p.goingOff &&& ~~~ dieBit d, fault := p.fault ||| bits 5 1
      dieFault := p.dieFault ||| 0, jobs := jobs })).device ∧
    (s.pwr.fldEn.getLsbD d.val = false → on = s.pwr.on &&& ~~~ dieBit d) := by
  unfold powerDownDone
  rw [if_neg (by rw [maskHas, goes]; decide)]
  extract_lets one u v
  have opened : v.device = (s.modPwr (fun p => { p with
      on := p.on &&& ~~~ dieBit d, goingOff := p.goingOff &&& ~~~ dieBit d, fault := p.fault ||| bits 5 1
      dieFault := p.dieFault ||| 0 })).device := (trig_device ..).trans ((flagPwr_device ..).trans rfl)
  have fldEn : v.pwr.fldEn = s.pwr.fldEn := (congrArg (fun u : State => u.pwr.fldEn) opened :)
  clear_value v
  split
  next wanted =>
    obtain ⟨jobs, device⟩ := finishDie_device (s := v) (d := d) (fun j => !j.on)
    generalize finishDie (fun j => !j.on) d v = w at device
    refine ⟨_, _, jobs, (congrArg (fun x : State => x.modPwr (fun p => { p with
      on := p.on ||| BitVec.ofNat 8 (2 ^ d.val), onAt := tset p.onAt d w.now })) device :).trans
      (congrArg (fun x : State => (x.modPwr (fun p => { p with jobs := jobs })).modPwr (fun p => { p with
        on := p.on ||| BitVec.ofNat 8 (2 ^ d.val), onAt := tset p.onAt d w.now })) opened :), fun unwanted => ?_⟩
    rw [maskHas, fldEn, unwanted] at wanted
    cases wanted
  next =>
    obtain ⟨jobs, device⟩ := finishDie_device (s := v) (d := d) (fun _ => true)
    generalize finishDie (fun _ => true) d v = w at device
    exact ⟨_, _, jobs, device.trans (congrArg (fun x : State => x.modPwr (fun p => { p with jobs := jobs })) opened :),
      fun _ => rfl⟩

/-! ### The reset of a die is released (R48, R139, R331) -/

/-- The release of a die's reset, at one of its heads. -/
def releaseHead (h : HeadId) (s : State) : State := (s.modHead h resetHead).modFe h (fun b =>
  { b with imp := b.imp.both (fun i => { i with lastDone := s.now }) })

/-- A head is ISOLATED and its slices forced. -/
def Isolated (h : HeadId) (s : State) : Prop := (s.head h).fe.route.cur.mode = 0 ∧ (s.head h).cmp.slice.one.forced = true ∧
  (s.head h).cmp.slice.two.forced = true

theorem releaseHead_head (h : HeadId) : (releaseHead h s).head h = { resetHead (s.head h) with
    fe := { (resetHead (s.head h)).fe with
      imp := (resetHead (s.head h)).fe.imp.both (fun i => { i with lastDone := s.now }) } } := by
  unfold releaseHead
  rw [State.modFe, modHead_head_same, modHead_head_same]

theorem releaseHead_isolated (h : HeadId) : Isolated h (releaseHead h s) := by
  unfold Isolated
  rw [releaseHead_head]
  exact ⟨rfl, rfl, rfl⟩

theorem releaseHead_other {g h : HeadId} (other : g ≠ h) : (releaseHead h s).head g = s.head g :=
  (modHead_head_other _ _ _ _ other).trans (modHead_head_other _ _ _ _ other)

theorem releaseHead_freq (g h : HeadId) : ((releaseHead h s).head g).xs.freq = (s.head g).xs.freq := by
  by_cases same : g = h
  · rw [same]
    rw [releaseHead_head]
    rfl
  · rw [releaseHead_other same]

theorem releaseDie_eq : releaseDie d s = (foldOver (dieHeads d) releaseHead s).modPwr
    (fun p => { p with inReset := p.inReset &&& ~~~ dieBit d }) := rfl

theorem releaseLoop_other {h : HeadId} {l : List HeadId} (s : State) (notIn : h ∉ l) :
    (foldOver l releaseHead s).head h = s.head h := by
  induction l generalizing s with
  | nil => rfl
  | cons g l ih =>
    rw [List.mem_cons, not_or] at notIn
    exact (ih (releaseHead g s) notIn.2).trans (releaseHead_other notIn.1)

theorem releaseLoop_own {h : HeadId} {l : List HeadId} (s : State) (mem : h ∈ l) : Isolated h (foldOver l releaseHead s) ∧
    ((foldOver l releaseHead s).head h).xs.freq = (s.head h).xs.freq := by
  refine ⟨foldOver_establishes (P := Isolated) (fun h u => releaseHead_isolated h) (fun g h u was => ?_) mem s,
    foldOver_keeps (g := fun u : State => (u.head h).xs.freq) (fun g u => releaseHead_freq h g) s⟩
  by_cases same : h = g
  · rw [same]
    exact releaseHead_isolated g
  · unfold Isolated
    rw [releaseHead_other same]
    exact was

theorem releaseDie_head (h : HeadId) : (releaseDie d s).head h = (foldOver (dieHeads d) releaseHead s).head h := by
  rw [releaseDie_eq, modPwr_head]

theorem releaseDie_other {h : HeadId} (apart : dieOf h ≠ d) : (releaseDie d s).head h = s.head h :=
  (releaseDie_head h).trans (releaseLoop_other s fun mem => apart (mem_dieHeads.mp mem))

theorem releaseDie_own {h : HeadId} (of : dieOf h = d) : Isolated h (releaseDie d s) ∧
    ((releaseDie d s).head h).xs.freq = (s.head h).xs.freq := by
  have own := releaseLoop_own s (mem_dieHeads.mpr of)
  unfold Isolated at own ⊢
  rw [releaseDie_head]
  exact own

theorem releaseDie_keeps : (releaseDie d s).pwr = { s.pwr with inReset := s.pwr.inReset &&& ~~~ dieBit d } ∧
    (releaseDie d s).sections = s.sections := by
  have pwr : (foldOver (dieHeads d) releaseHead s).pwr = s.pwr := foldOver_keeps (g := State.pwr) (fun h u => by rfl) s
  have secs : (foldOver (dieHeads d) releaseHead s).sections = s.sections :=
    foldOver_keeps (g := State.sections) (fun h u => by rfl) s
  rw [releaseDie_eq]
  generalize foldOver (dieHeads d) releaseHead s = w at pwr secs
  rw [← pwr, ← secs]
  exact ⟨rfl, rfl⟩

/-- The command that turned the die on completes, and its trigger is given, after the release. -/
theorem dieReleased_device (may : mayReleaseDie s d = true) : ∃ jobs, (dieReleased d s).device =
    ((releaseDie d s).modPwr (fun p => { p with jobs := jobs })).device := by
  obtain ⟨jobs, device⟩ := finishDie_device (s := releaseDie d s) (d := d) (fun _ => true)
  unfold dieReleased
  rw [if_pos may]
  extract_lets byCommand u v
  have done_ : u.device = ((releaseDie d s).modPwr (fun p => { p with jobs := jobs })).device := device
  refine ⟨jobs, ?_⟩
  clear_value u
  split
  · exact (trig_device ..).trans done_
  · exact done_

end

/-! ### Start-up (R338) -/

theorem release_shape {i : StartInput} (lit : i.eclipseLow = false) (s : State) : ∃ u : State, (release i s).device = u.device ∧
    u.phase = .starting ∧ u.resetAt = s.now ∧ u.pwr.on = s.pwr.fldEn ∧ u.pwr.supplyOk = i.supplyOk ∧ u.clk.lock = true ∧
    u.heads = s.heads ∧ u.sections = s.sections ∧ u.key = s.key := by
  unfold release
  extract_lets epc tb ecl clk pwr u v
  refine ⟨startRecord u, ?_, rfl, rfl, rfl, rfl, rfl, rfl, rfl, rfl⟩
  rw [lit, if_neg Bool.false_ne_true]
  exact trig_device ..

/-- Settles O40, event by event. -/
theorem startUpAndFieldPower : Obligations.Start_up_and_field_power := by
  unfold Obligations.Start_up_and_field_power
  intro t s
  refine ⟨fun i held => ?_, fun i reset core aon lit => ?_, fun c A op => ⟨fun d wanted ok up on => ?_, fun bad => ?_⟩,
    fun d up goes => ?_, fun d may => ?_, fun c A => ?_⟩
  · exact congrArg Host.Outcome.next (if_neg fun ⟨_, aon, core⟩ => by
      rcases held with h | h
      · rw [show s.pwr.coreHeld = false from core] at h
        cases h
      · rw [show s.pwr.aonHeld = false from aon] at h
        cases h)
  · have runs : startUp i (s.advance t) = release i (s.advance t) := if_pos ⟨reset, aon, core⟩
    obtain ⟨u, device, phase, at_, on, supply, lock, heads, secs, key⟩ := release_shape lit (s.advance t)
    exact ⟨_, congrArg Host.Outcome.next runs, (congrArg State.phase device :).trans phase,
      (congrArg State.resetAt device :).trans at_, (congrArg (fun u : State => u.pwr.on) device :).trans on,
      (congrArg (fun u : State => u.pwr.supplyOk) device :).trans supply,
      (congrArg (fun u : State => u.clk.lock) device :).trans lock, (congrArg State.heads device :).trans heads,
      (congrArg State.sections device :).trans secs, (congrArg State.key device :).trans key⟩
  · obtain ⟨e, ob, ir, ou, ad, run⟩ := command_runs 0x02B0 (fun seq => pwrFld c.payload seq) A
    have mem : d ∈ todo (BitVec.ofNat 8 (field c.payload 0 1)) false (s.admitted t e ob ir ou) :=
      mem_todo (by rw [BitVec.getLsbD_ofNat, wanted, decide_eq_true d.isLt]; rfl) on
    obtain ⟨u, shape, hp, secs, pwr⟩ := fldAdmit_off (job := some s.hp.admSeq) mem
    rw [pwrFld_off op, if_neg (not_not.mpr (show fldTest (s.admitted t e ob ir ou) _ 0 _ = 0 from ok)), shape] at run
    have left := dieMask_has mem
    generalize todo (BitVec.ofNat 8 (field c.payload 0 1)) false (s.admitted t e ob ir ou) = l at mem shape pwr run left
    obtain ⟨down, off⟩ := turnOffs_down d u mem
    obtain ⟨r, g, power⟩ := turnOffs_pwr u l
    have upBefore : dieUp u d = true := by
      rw [dieUp, pwr]
      exact up
    rw [pwr] at power
    refine ⟨_, congrArg Host.Outcome.next run, ?_, ⟨{ left := dieMask l, on := false, job := some s.hp.admSeq }, ?_, rfl, rfl, left⟩, down, off, (congrArg Pwr.fldEn power :),
      (congrArg Pwr.result power :), fun h n of bound => ?_⟩
    · rw [turnOffs_admSeq, hp]
      rfl
    · rw [show (foldOver l turnOff u).pwr.jobs = _ from (congrArg Pwr.jobs power :)]
      exact List.mem_append_right _ (List.mem_singleton_self _)
    · exact turnOffs_latches d l upBefore down of (by rw [State.sec, secs]; exact bound)
  · exact answers_of A rfl fun e ob ir ou =>
      ⟨_, (pwrFld_off (s := s.admitted t e ob ir ou) op).trans (if_pos bad), rfl, rfl⟩
  · have run : ∀ f, (Host.Outcome.next (whenAwake f (s.advance t)) : Host.Outcome State Fault Refusal) =
        .next (f (s.advance t)) := fun f => congrArg Host.Outcome.next (whenAwake_advance up)
    obtain ⟨on, onAt, jobs, device, off⟩ := powerDownDone_device (s := s.advance t) goes
    refine ⟨_, run _, ?_, fun unwanted => ?_, ?_, (congrArg State.heads device :), (congrArg State.sections device :)⟩
    · refine (congrArg (fun u : State => u.pwr.goingOff.getLsbD d.val) device :).trans ?_
      exact (andNot_dieBit ..).trans (by rw [decide_eq_true rfl, Bool.not_true, Bool.and_false])
    · refine (congrArg (fun u : State => u.pwr.on.getLsbD d.val) device :).trans ?_
      show on.getLsbD d.val = false
      rw [off unwanted]
      exact (andNot_dieBit ..).trans (by rw [decide_eq_true rfl, Bool.not_true, Bool.and_false])
    · exact (congrArg (fun u : State => bit u.pwr.fault 5) device :).trans (bit_flagged _ _ (by decide))
  · obtain ⟨jobs, device⟩ := dieReleased_device may
    obtain ⟨pwr, secs⟩ := releaseDie_keeps (s := s.advance t) (d := d)
    have own := fun h => releaseDie_own (s := s.advance t) (d := d) (h := h)
    have other := fun h => releaseDie_other (s := s.advance t) (d := d) (h := h)
    have run : exec (.fldResetRelease t d) s = .next (dieReleased d (s.advance t)) := rfl
    generalize dieReleased d (s.advance t) = u at device run
    generalize releaseDie d (s.advance t) = w at device pwr secs own other
    have head : ∀ h, u.head h = w.head h := fun h => (head_of_device device h).trans (modPwr_head ..)
    refine ⟨u, run, ?_, fun h of => ?_, fun h apart => ?_, (congrArg State.sections device :).trans secs⟩
    · rw [dieUp, show u.pwr.inReset = (s.advance t).pwr.inReset &&& ~~~ dieBit d from
        (congrArg (fun u : State => u.pwr.inReset) device :).trans (congrArg Pwr.inReset pwr :), andNot_dieBit,
        decide_eq_true rfl, Bool.not_true, Bool.and_false]
      rfl
    · obtain ⟨⟨mode, one, two⟩, freq⟩ := own h of
      rw [head]
      exact ⟨mode, one, two, freq⟩
    · exact (head h).trans (other h apart)
  · exact answers_of A rfl fun e ob ir ou => ⟨_, rfl, rfl, rfl⟩

end Sys2Proof.Machine
end

section
/-! SUPPORT. What duplex operation, the vital port, the interrupt controller, eclipse and the recorder leave of a scope. -/
namespace Sys2Proof.Machine

/-! ### Time base and epochs -/

section
variable {F : Scope} (s : State)
@[simp] theorem scope_ppsEdge (err : Int) : F.view (ppsEdge err s) = F.view s := by
  unfold ppsEdge
  extract_lets capture base _ u e _ edge rated good _ counted _ missed
  have taken : F.view edge = F.view s := F.same rfl
  have steered : F.view rated = F.view s := by simp [rated, taken]
  have good : F.view counted = F.view s := F.same steered
  have bad : F.view missed = F.view s := (scope_flagTb ..).trans (F.same taken)
  split
  · exact scope_tb ..
  · simp [good, bad]
@[simp] theorem scope_freqLock : F.view (freqLock s) = F.view s := by simp [freqLock]
@[simp] theorem scope_refReturn : F.view (refReturn s) = F.view s := by simp [refReturn]
@[simp] theorem scope_evaluationDeadline : F.view (evaluationDeadline s) = F.view s := by simp [evaluationDeadline]
end

/-! ### Duplex operation -/

section
variable {F : Scope} (s : State) (m : LinkMsg) (h : HeadId) (x : Sys)
@[simp] theorem scope_raiseMarks : F.view (raiseMarks s) = F.view s := by
  unfold raiseMarks
  exact rest_foldOver _ _ (fun h s => rest_onBoth s fun x s => rest_raiseMark (F.all h) s x) s
@[simp] theorem scope_withdrawHead (lines : F.lines) : F.view (withdrawHead h s) = F.view s := by
  unfold withdrawHead
  exact rest_withLines _ _ (F.all h) lines fun s => rest_onBoth s fun x s => rest_withdrawSlice (F.all h) x s
@[simp] theorem scope_withdrawAll (lines : F.lines) (won : Bool) : F.view (withdrawAll won s) = F.view s := by
  simp [withdrawAll, abortDrive, lines]
@[simp] theorem scope_setRoleIn (lines : F.lines) (r : BitVec 2) : F.view (setRoleIn r s) = F.view s := by
  simp [setRoleIn, lines]
@[simp] theorem scope_roleInputChange (lines : F.lines) (pins : BitVec 2) :
    F.view (roleInputChange pins s) = F.view s := by
  simp [roleInputChange, lines]
@[simp] theorem scope_depose (lines : F.lines) : F.view (depose s) = F.view s := by simp [depose, lines]
@[simp] theorem scope_deposeRelease (lines : F.lines) : F.view (deposeRelease s) = F.view s := by
  simp [deposeRelease, lines]
@[simp] theorem scope_claimTry : F.view (claimTry s) = F.view s := by simp [claimTry]
@[simp] theorem scope_pickUpSlice : F.view (pickUpSlice h x s) = F.view s := by simp [pickUpSlice]
@[simp] theorem scope_pickUp : F.view (pickUp s) = F.view s := by
  unfold pickUp
  extract_lets bad _ u v _ w y
  have picked : F.view v = F.view s :=
    (rest_foldOver _ _ (fun h s => rest_onBoth s fun x s => scope_pickUpSlice s h x) _).trans (rest_zl ..)
  have driven : F.view w = F.view s := (rest_zl ..).trans picked
  simp [y, driven]
@[simp] theorem scope_claimEnd (released : Bool) : F.view (claimEnd released s) = F.view s := by simp [claimEnd]
@[simp] theorem scope_holdTimeout : F.view (holdTimeout s) = F.view s := by unfold holdTimeout; split <;> simp
/-- A section that is no longer synchronised has the same verdict. -/
@[simp] theorem scope_unsyncAll : F.view (unsyncAll s) = F.view s := by
  refine scope_sections F s (.inr fun n => ?_)
  rw [tget_tabulate, show (Fin.ofNat 256 n.val : SecId) = n from Fin.ext (Nat.mod_eq_of_lt n.isLt)]
  dsimp only
  split <;> rfl
@[simp] theorem scope_linkToTrain : F.view (linkToTrain s) = F.view s := by unfold linkToTrain; split <;> simp
@[simp] theorem scope_linkToDown : F.view (linkToDown s) = F.view s := by simp [linkToDown]
@[simp] theorem scope_linkStart : F.view (linkStart s) = F.view s := by simp [linkStart]
@[simp] theorem scope_doorbellSend : F.view (doorbellSend s) = F.view s := by unfold doorbellSend; split <;> simp
@[simp] theorem scope_linkTrained : F.view (linkTrained s) = F.view s := by simp [linkTrained]
@[simp] theorem scope_linkLoss (lanes : BitVec 4) : F.view (linkLoss lanes s) = F.view s := by simp [linkLoss]
@[simp] theorem scope_statusTimeout : F.view (statusTimeout s) = F.view s := by simp [statusTimeout]
@[simp] theorem scope_sendParts (type : Nat) (parts : List (List Byte)) : F.view (sendParts type parts s) = F.view s := by
  simp [sendParts]
@[simp] theorem scope_statusSend : F.view (statusSend s) = F.view s := by simp [statusSend]
@[simp] theorem scope_pdbWrite (v : Word) : F.view (pdbWrite v s) = F.view s := by simp [pdbWrite]
@[simp] theorem scope_putRx (f : RxSet → RxSet) : F.view (putRx f s) = F.view s := by simp [putRx]
@[simp] theorem scope_messageDiscarded : F.view (messageDiscarded s) = F.view s := by simp [messageDiscarded]
@[simp] theorem scope_receive (lo hi : Nat) (status : Bool) {f : State → State} (keep : ∀ s, F.view (f s) = F.view s) :
    F.view (receive lo hi m status f s) = F.view s := by
  simp [receive, keep]
@[simp] theorem scope_measureSkew (p : PartnerStatus) (consecutive : Bool) :
    F.view (measureSkew p consecutive s) = F.view s := by
  unfold measureSkew
  split <;> simp
@[simp] theorem scope_alignedNow : F.view (alignedNow s) = F.view s := by unfold alignedNow; split <;> simp
@[simp] theorem scope_applyFull (n : SecId) : F.view (applyFull m n s) = F.view s := by
  unfold applyFull
  extract_lets ledger gen put e u
  have put : F.view u = F.view s := scope_modSec F s (.inr fun x => rfl)
  exact (rest_zl ..).trans put
@[simp] theorem scope_lfullMessage : F.view (lfullMessage m s) = F.view s := by
  unfold lfullMessage
  refine scope_receive _ _ _ _ _ fun s => ?_
  split <;> simp
@[simp] theorem scope_driveComplete : F.view (driveComplete s) = F.view s := by
  unfold driveComplete
  split
  · exact F.same rfl
  · rfl
@[simp] theorem scope_driveHour : F.view (driveHour s) = F.view s := by simp [driveHour]
@[simp] theorem scope_zlStore (paired unit : Bool) (age : Nat) : F.view (zlStore paired unit age s) = F.view s := by
  simp [zlStore]
end

/-! ### Vital status port -/

section
variable {F : Scope} (s : State) (l : Lane)
@[simp] theorem scope_heldLow : F.view (heldLow l s) = F.view s := scope_modLane ..
@[simp] theorem scope_vspRead (i : ReadInput) : F.view (vspRead l i s) = F.view s := by
  simp only [vspRead]
  split <;> simp
@[simp] theorem scope_armCrcFail (v : Word) : F.view (armCrcFail v s) = F.view s := by simp [armCrcFail]
end

/-! ### Interrupts -/

section
variable {F : Scope} (s : State) (v : Word) (k : Fin 16) (be : BitVec 4)
@[simp] theorem scope_applyMessage : F.view (applyMessage s) = F.view s := by unfold applyMessage; split <;> simp
@[simp] theorem scope_sendMsix (v : SrcId) : F.view (sendMsix v s) = F.view s := by simp [sendMsix]
@[simp] theorem scope_commitSource (n : SrcId) : F.view (commitSource n s) = F.view s := by
  simp [commitSource, deliver, stormCount]
@[simp] theorem scope_arbitrate : F.view (arbitrate s) = F.view s := by unfold arbitrate; split <;> simp
@[simp] theorem scope_releaseHeld : F.view (releaseHeld s) = F.view s := by
  simp only [releaseHeld]
  repeat' split
  all_goals simp
@[simp] theorem scope_msixWrite (w : MsixWrite) : F.view (msixWrite w s) = F.view s := by unfold msixWrite; split <;> simp
@[simp] theorem scope_whenHostUp {f : State → State} (keep : ∀ s, F.view (f s) = F.view s) :
    F.view (whenHostUp f s) = F.view s := by
  simp [whenHostUp, keep]
@[simp] theorem scope_enabled (off : Nat) {f : State → State} (keep : ∀ s, F.view (f s) = F.view s) :
    F.view (enabled be off v f s) = F.view s := by
  simp [enabled, keep]
@[simp] theorem scope_eoi : F.view (eoi v s) = F.view s := by simp [eoi]
@[simp] theorem scope_hdrain : F.view (hdrain v s) = F.view s := by simp [hdrain]
@[simp] theorem scope_maskSet : F.view (maskSet k v s) = F.view s := by simp [maskSet]
@[simp] theorem scope_maskClr : F.view (maskClr k v s) = F.view s := by simp [maskClr]
@[simp] theorem scope_pendDiscard : F.view (pendDiscard k v s) = F.view s := by simp [pendDiscard]
@[simp] theorem scope_irqDoorbell : F.view (irqDoorbell v be s) = F.view s := by simp [irqDoorbell]
end

/-! ### Eclipse -/

section
variable {F : Scope} (s : State)
@[simp] theorem scope_enterEclipse (cause cls : Nat) : F.view (enterEclipse cause cls s) = F.view s := by
  unfold enterEclipse
  exact F.same (scope_cutReads s)
@[simp] theorem scope_requestEclipse (cause cls : Nat) : F.view (requestEclipse cause cls s) = F.view s := by
  unfold requestEclipse
  split <;> simp
@[simp] theorem scope_eclipsePin : F.view (eclipsePin s) = F.view s := by simp [eclipsePin]
end

/-! ### Recorder -/

section
variable {F : Scope} (s : State) (t : Trigger) (seq : Nat) (v : Word)
@[simp] theorem scope_stage (e : RecEntry) : F.view (stage e s) = F.view s := by simp [stage]
@[simp] theorem scope_enterQueue (ecl : Bool) : F.view (enterQueue t ecl s) = F.view s := by
  unfold enterQueue
  split
  · simp
  · extract_lets e u
    have queued : F.view u = F.view s := by simp [u]
    exact (rest_free ..).trans queued
@[simp] theorem scope_service : F.view (service t s) = F.view s := by
  simp only [service]
  repeat' split
  all_goals simp
@[simp] theorem scope_countTrigger : F.view (countTrigger t s) = F.view s := by simp [countTrigger]
@[simp] theorem scope_handleTrigger : F.view (handleTrigger t s) = F.view s := by simp [handleTrigger]
@[simp] theorem scope_nextTrigger : F.view (nextTrigger s) = F.view s := by unfold nextTrigger; split <;> simp
@[simp] theorem scope_settleTriggers : F.view (settleTriggers s) = F.view s := by simp [settleTriggers]
@[simp] theorem scope_surveyStart : F.view (surveyStart seq s) = F.view s := by simp [surveyStart]
@[simp] theorem scope_surveyPeriod : F.view (surveyPeriod s) = F.view s := by
  unfold surveyPeriod
  split
  · extract_lets u v
    have staged : F.view v = F.view s := by simp [v, u]
    exact (rest_free ..).trans staged
  · rfl
@[simp] theorem scope_queueClear (st : Status) (code : Nat) : F.view (queueClear seq st code s) = F.view s := by
  simp [queueClear]
@[simp] theorem scope_recMark : F.view (recMark v s) = F.view s := by simp [recMark]
@[simp] theorem scope_recCursor : F.view (recCursor v s) = F.view s := by simp [recCursor]
end

/-! ### What writes the recorder's memory, for a scope that allows it -/

section
variable {F : Scope} (ring : F.ring) (s : State) (seq : Nat) (v : Word)
include ring
@[simp] theorem scope_writeBack : F.view (writeBack s) = F.view s := by unfold writeBack; split <;> simp [ring]
@[simp] theorem scope_closeOpen : F.view (closeOpen s) = F.view s := by simp [closeOpen, ring]
@[simp] theorem scope_recSet (cfg period trigEn eclEn : Word) : F.view (recSet cfg period trigEn eclEn s) = F.view s := by
  simp [recSet, ring]
@[simp] theorem scope_recPreSeal (off : Nat) : F.view (recPreSeal off v s) = F.view s := by simp [recPreSeal, ring]
@[simp] theorem scope_recClear (p : List Byte) : F.view (recClear p seq s) = F.view s := by
  unfold recClear
  split <;> simp [ring]
end

end Sys2Proof.Machine
end

section
/-! SUPPORT. What the dies, the clocks, the start-up, the host port, its reads and the TAP leave of a scope. -/
namespace Sys2Proof.Machine

/-- The offsets of the recorder's set-up registers. -/
def inRecorderSetUp (off : Nat) : Prop := 0x4B000 ≤ off ∧ off < 0x4B010

/-! ### Power and clocks -/

section
variable {F : Scope} (s : State) (d : DieId) (job : Option Nat) (v : Word)
@[simp] theorem scope_flagPwr (flags die : Word) (source : Nat) : F.view (flagPwr flags die source s) = F.view s := by
  simp [flagPwr]
@[simp] theorem scope_endpointReset : F.view (endpointReset s) = F.view s := F.same rfl
@[simp] theorem scope_dieDown (lines : F.lines) : F.view (dieDown d s) = F.view s := by
  have reset : ∀ u, F.view (resetDie d u) = F.view u := fun u => by
    unfold resetDie
    extract_lets heads _ v w x y
    have ended : F.view v = F.view u := rest_endDie d u F.toRest F.all lines
    have cleared : F.view x = F.view u := by
      refine (rest_foldOver _ _ (fun h s => ?_) _).trans ((scope_modPwr F v _).trans ended)
      exact F.of_head _ _ _ (F.all h) (.inl F.free)
    refine (rest_foldOver _ _ (fun h s => scope_modIrq F s _) _).trans ?_
    exact (rest_modDie ..).trans cleared
  unfold dieDown
  split
  · rw [reset, rest_dieNotice]
  · rfl
@[simp] theorem scope_monitorDie (lines : F.lines) : F.view (monitorDie d s) = F.view s := by simp [monitorDie, lines]
@[simp] theorem scope_vserTrip : F.view (vserTrip s) = F.view s := by simp [vserTrip]
@[simp] theorem scope_finishDie (of : FldJob → Bool) : F.view (finishDie of d s) = F.view s := by simp [finishDie]
@[simp] theorem scope_closeSwitches : F.view (closeSwitches d s) = F.view s := by simp [closeSwitches]
@[simp] theorem scope_turnOff (lines : F.lines) : F.view (turnOff d s) = F.view s := by simp [turnOff, lines]
@[simp] theorem scope_turnOn : F.view (turnOn d s) = F.view s := by simp [turnOn]
@[simp] theorem scope_fldAdmit (lines : F.lines) (mask : BitVec 8) (on : Bool) :
    F.view (fldAdmit mask on job s) = F.view s := by
  unfold fldAdmit
  cases on <;> simp [lines]
@[simp] theorem scope_fldPreSeal (lines : F.lines) : F.view (fldPreSeal v s) = F.view s := by simp [fldPreSeal, lines]
@[simp] theorem scope_pwrFld (lines : F.lines) (p : List Byte) (seq : Nat) : F.view (pwrFld p seq s) = F.view s := by
  simp [pwrFld, lines]
@[simp] theorem scope_powerDownDone : F.view (powerDownDone d s) = F.view s := by simp [powerDownDone]
@[simp] theorem scope_releaseDie : F.view (releaseDie d s) = F.view s := by
  unfold releaseDie
  extract_lets u
  have released : F.view u = F.view s := rest_foldOver _ _ (fun h s => by
    have reset : F.view (s.modHead h resetHead) = F.view s := F.of_head _ _ _ (F.all h) (.inl F.free)
    exact (rest_modFe (F.all h) _ (.inl F.free)).trans reset) s
  exact (scope_modPwr ..).trans released
@[simp] theorem scope_dieReleased : F.view (dieReleased d s) = F.view s := by
  unfold dieReleased
  split
  · extract_lets byCommand u v
    have finished : F.view u = F.view s := by simp [u]
    have told : F.view v = F.view s := by simp [v, finished]
    have drawn : F.view { v with free := v.free + 1 } = F.view s := (rest_free ..).trans told
    split
    · exact drawn
    · exact finished
  · rfl
@[simp] theorem scope_recovered (dom : Domain) : F.view (recovered dom s) = F.view s := by unfold recovered; split <;> simp
@[simp] theorem scope_startRecord : F.view (startRecord s) = F.view s := by
  unfold startRecord
  exact (scope_stage ..).trans (F.same rfl)
@[simp] theorem scope_release (i : StartInput) : F.view (release i s) = F.view s := by
  unfold release
  extract_lets _ _ _ _ _ u v
  have started : F.view u = F.view s := F.same rfl
  have told : F.view v = F.view s := by simp [v, started]
  simp [told]
@[simp] theorem scope_startUp (i : StartInput) : F.view (startUp i s) = F.view s := by simp [startUp]
@[simp] theorem scope_clkStore : F.view (clkStore v job s) = F.view s := by simp [clkStore]
@[simp] theorem scope_zclkLock : F.view (zclkLock s) = F.view s := by simp [zclkLock]
@[simp] theorem scope_refclkLoss : F.view (refclkLoss s) = F.view s := by simp [refclkLoss]
@[simp] theorem scope_clkrefGlitch : F.view (clkrefGlitch s) = F.view s := by simp [clkrefGlitch]
@[simp] theorem scope_zpllLoss : F.view (zpllLoss s) = F.view s := by simp [zpllLoss]
@[simp] theorem scope_freqCheck (vsHclk vsTb : Option Int) : F.view (freqCheck vsHclk vsTb s) = F.view s := by
  unfold freqCheck
  extract_lets u v _ _ w
  have lost : F.view u = F.view s := by simp [u]
  have gone : F.view v = F.view s := by simp [v, lost]
  have compared : F.view w = F.view s := F.same gone
  exact (scope_flagClk ..).trans compared
end

/-! ### Host port -/

section
variable {F : Scope} (s : State) (v : Word) (k : Fin 16) (off o : Nat) (r : RegView) (be : BitVec 4) (h : HeadId)
@[simp] theorem scope_sealWrite : F.view (sealWrite v s) = F.view s := by simp [sealWrite]
@[simp] theorem scope_errClr : F.view (errClr v s) = F.view s := by simp [errClr]
@[simp] theorem scope_hpWriteReg : F.view (hpWriteReg off v s) = F.view s := by simp [hpWriteReg]
@[simp] theorem scope_orbCfgWrite : F.view (orbCfgWrite k v s) = F.view s := by simp [orbCfgWrite]
@[simp] theorem scope_orbWriteReg : F.view (orbWriteReg k o v s) = F.view s := by simp [orbWriteReg]
@[simp] theorem scope_skipShort (bufs : List Buf) : F.view (skipShort k bufs s) = F.view s := by
  induction bufs generalizing s with
  | nil => rfl
  | cons b rest ih => simp [skipShort, ih]
@[simp] theorem scope_skipNow : F.view (skipNow k s) = F.view s := by simp [skipNow]
@[simp] theorem scope_takeDoorbell (descs : List StreamDesc) : F.view (takeDoorbell k v descs s) = F.view s := by
  simp [takeDoorbell]
@[simp] theorem scope_doorbell (descs : List StreamDesc) : F.view (doorbell k v be descs s) = F.view s := by
  simp [doorbell]
@[simp] theorem scope_flushStream : F.view (flushStream k s) = F.view s := by
  simp only [flushStream]
  repeat' split
  all_goals simp
@[simp] theorem scope_irqWriteReg : F.view (irqWriteReg off v s) = F.view s := by
  simp [irqWriteReg, maskWrite, stormClear]
/-- A write that acts before and after sealing. -/
theorem scope_devAct {u : State} (e : devAct off v s = some u) : F.view u = F.view s := by
  unfold devAct at e
  iterate 4
    obtain rfl | e := eq_or_of_ite_eq_some e
    · simp
  obtain rfl | e := eq_or_of_ite_eq_some e
  · exact F.same (scope_endReads s)
  repeat
    obtain rfl | e := eq_or_of_ite_eq_some e
    · simp
  cases e
@[simp] theorem scope_secAuthWrite : F.view (secAuthWrite v s) = F.view s := by simp [secAuthWrite]
@[simp] theorem scope_tbPreSeal : F.view (tbPreSeal off v s) = F.view s := by simp [tbPreSeal]
@[simp] theorem scope_zlPreSeal : F.view (zlPreSeal v s) = F.view s := by simp [zlPreSeal]
@[simp] theorem scope_vspPreSeal : F.view (vspPreSeal v s) = F.view s := by
  unfold vspPreSeal
  extract_lets off u
  have disables : ∀ l s, F.view (off l s) = F.view s := fun l s => by simp [off]
  have disabled : F.view u = F.view s := by simp [u, disables]
  exact F.same disabled
@[simp] theorem scope_eclPreSeal : F.view (eclPreSeal v s) = F.view s := by simp [eclPreSeal]
@[simp] theorem scope_clkPreSeal : F.view (clkPreSeal v s) = F.view s := by simp [clkPreSeal]
/-- A pre-seal write to a device block but the recorder's set-up, and that too where the scope allows it. -/
@[simp] theorem scope_devPreSeal (lines : F.lines) (ring : F.ring ∨ ¬ inRecorderSetUp off) :
    F.view (devPreSeal off v s) = F.view s := by
  have recorder : (if 0x4B000 ≤ off ∧ off < 0x4B010 then F.view (recPreSeal off v s) else F.view s) = F.view s := by
    rcases ring with ring | out
    · simp [ring]
    · exact if_neg out
  simp [devPreSeal, recorder, lines]
@[simp] theorem scope_sealedWrite : F.view (sealedWrite off v r s) = F.view s := rest_sealedWrite ..
@[simp] theorem scope_secWrite (lines : F.lines) (n : SecId) : F.view (secWrite n o v r s) = F.view s := by
  simp [secWrite, lines]
@[simp] theorem scope_devWrite (lines : F.lines) (ring : F.ring ∨ ¬ inRecorderSetUp off) :
    F.view (devWrite off v r s) = F.view s := by
  unfold devWrite
  split
  next u e => exact scope_devAct _ _ _ e
  next => simp [lines, ring]
@[simp] theorem scope_writeReg (lines : F.lines) (ring : F.ring ∨ ¬ inRecorderSetUp off) :
    F.view (writeReg off v s) = F.view s := by
  have head : ∀ h o r, F.view (headWrite h o v r s) = F.view s := fun h o r => rest_headWrite (F.all h) F.free lines ..
  unfold writeReg
  split <;> simp [lines, ring, head]
@[simp] theorem scope_writeBar2 : F.view (writeBar2 off v be s) = F.view s := by simp [writeBar2]
@[simp] theorem scope_writeBar4 : F.view (writeBar4 off v s) = F.view s := by simp [writeBar4]
@[simp] theorem scope_busWrite (lines : F.lines) (ring : F.ring ∨ ¬ inRecorderSetUp off) (bar : Bar) (dwords : Nat) :
    F.view (busWrite bar off v be dwords s) = F.view s := by
  unfold busWrite
  split <;> simp [lines, ring]
@[simp] theorem scope_hpSeal (seq : Nat) : F.view (hpSeal seq s) = F.view s := by simp [hpSeal]
@[simp] theorem scope_hpWrite (lines : F.lines) (p : List Byte) (ring : F.ring ∨ ¬ inRecorderSetUp (field p 0 4))
    (seq : Nat) : F.view (hpWrite p seq s) = F.view s := by
  simp [hpWrite, lines, ring]
@[simp] theorem scope_hpIdent (seq : Nat) : F.view (hpIdent seq s) = F.view s := by simp [hpIdent]
@[simp] theorem scope_badOpcode (op : BitVec 16) (c : Cmd) : F.view (badOpcode op c s) = F.view s := by simp [badOpcode]
@[simp] theorem scope_logAer : F.view (logAer s) = F.view s := by simp [logAer]
@[simp] theorem scope_dmaError (r : DmaRead) : F.view (dmaError r s) = F.view s := by
  unfold dmaError
  split <;> simp [descriptorError, payloadError]
@[simp] theorem scope_functionReset : F.view (functionReset s) = F.view s := by simp [functionReset]
@[simp] theorem scope_leaveD3 : F.view (leaveD3 s) = F.view s := by simp [leaveD3]
@[simp] theorem scope_enterD3 : F.view (enterD3 s) = F.view s := by simp [enterD3]
@[simp] theorem scope_setBme (on : Bool) : F.view (setBme on s) = F.view s := by simp [setBme]
end

/-! ### Reads of the host and the TAP -/

section
variable {F : Scope} (s : State) (code : Byte)
@[simp] theorem scope_readSeq : F.view (readSeq s) = F.view s := rest_epc ..
@[simp] theorem scope_readTbNow : F.view (readTbNow s) = F.view s := scope_tb ..
@[simp] theorem scope_readTbEpoch : F.view (readTbEpoch s) = F.view s := scope_tb ..
@[simp] theorem scope_busRead (r : BusRead) : F.view (busRead r s) = F.view s := by simp [busRead, readCaptures]
@[simp] theorem scope_whenTap {f : State → State} (keep : ∀ s, F.view (f s) = F.view s) :
    F.view (whenTap f s) = F.view s := by
  simp [whenTap, keep]
@[simp] theorem scope_selectTap (dr : BitVec 40) : F.view (selectTap code dr s) = F.view s := by simp [selectTap]
@[simp] theorem scope_scanChain (cells : List (ScanPin × Bool)) : F.view (scanChain code cells s) = F.view s :=
  F.same rfl
@[simp] theorem scope_eclRead : F.view (eclRead s) = F.view s := F.same rfl
@[simp] theorem scope_loadPath (v : BitVec 48) : F.view (loadPath v s) = F.view s := by simp [loadPath]
end

end Sys2Proof.Machine
end

section
/-! SUPPORT. What each command leaves of a scope, command by command. -/
namespace Sys2Proof.Machine

/-- The commands of software that can set the trip latch of a section. -/
def mayTrip (i : Instr) : Bool :=
  match i with
  | .feRoute _ _ | .feRouteCtrlGo _ _ _ _ | .feBiasSet _ _ | .secBind _ _ | .pwrFld _ _ | .hpWrite _ _ => true
  | .registerWrite _ _ _ _ _ _ => true
  | _ => false

/-- The reset commands of a section. -/
def isResetCmd (i : Instr) : Bool :=
  match i with
  | .secResetSup _ _ | .secResetDir _ _ => true
  | _ => false

/-- The commands that reset the core die or the AON domain. -/
def mayResetCore (i : Instr) : Bool :=
  match i with
  | .supplyMonitorTrip _ _ | .aonPowerOnReset _ | .coreDieReset _ _ | .clkrefLoss _ | .epochWatchdog _ => true
  | _ => false

section
variable {F : Scope} {i : Instr} {s u : State} (e : exec i s = .next u)
include e

/-- A command of software keeps every scope that allows its trips, its queued resets and its writes of the recorder. -/
theorem software_keeps (soft : fromSoftware i = true) (lines : F.lines ∨ mayTrip i = false)
    (cmds : F.cmds ∨ isResetCmd i = false) (ring : F.ring ∨ writesRecorder i = false) : F.view u = F.view s := by
  cases i <;> simp only [fromSoftware, reduceCtorEq] at soft <;>
    simp only [mayTrip, isResetCmd, writesRecorder, or_false, reduceCtorEq] at lines cmds ring <;> cases e
  case feRoute | feRouteCtrlGo | feBiasSet | feImpSet | feImpRun | feImpSetref | feImpSweep =>
    simp [rest_command, lines]
  case xsSet | xsAdjSet | xsBandsSet | xsUbandSet | xsPlanSet | xsListenReset =>
    simp [rest_command]
  case fltSet | fltNotchSet | fltSwap | fltBankLoad | fltBankFree | fltBankRead =>
    simp [rest_command]
  case cmpSet | cmpStatus | trnSet | trnSetref | trnStatus =>
    simp [rest_command]
  case secBind =>
    refine (rest_command (F := F.toRest) _ fun seq s => scope_withSec s seq _ fun n s => ?_).trans (rest_advance ..)
    dsimp only
    split <;> simp [lines]
  case secResetSup | secResetDir =>
    exact (rest_command (F := F.toRest) _ fun _ _ => scope_withSec _ _ _ fun n s => scope_secReset s n _ cmds _ _ _).trans
      (rest_advance ..)
  case secSet | secService | secDisturb | secLedgerRead | secStatus | secKeyProgram =>
    simp [rest_command, keyProgram]
  case tbSet | tbStep | epcCtrlClr =>
    simp [rest_command, tbStep, tbRefuse]
  case zlSet | zlStatus | zlPdbWrite | statusMessage | ephMessage | coverMessage | ldeltaMessage | lfullMessage |
      doorbellMessage | messageDiscarded =>
    simp [rest_command, zlSet, zlStatus, statusMessage, countStatus, useStatus, ephMessage, coverMessage,
      ldeltaMessage, doorbellMessage]
  case recSet | recSelect | recRead | recClear | recMarkWrite | recCursorWrite =>
    simp [rest_command, recSelect, recRead, ring]
  case pwrFld | pwrStatus | clkSet | eclEnter =>
    simp [rest_command, pwrStatus, clkSet, eclEnter, lines]
  case vspTestCrcFail =>
    simp
  case irqEoi | irqHdrain | irqMaskSet | irqMaskClr | irqPendDiscard | irqDoorbellWrite | msixUnmask =>
    simp
  case hpNop | hpSeal | hpWrite | hpIdent | commandBadOpcode | hpSealWrite | hpCtrlErrClr | orbDoorbell | orbCfgWrite |
      registerWrite | functionLevelReset | d3hotToD0 | conventionalReset | dmaReadError | poisonedWrite |
      d0ToD3hot | busMasterEnableChange =>
    simp [rest_command, lines, ring]
  case epcSeqLoRead | tbNowLoRead | tbEpochLoRead =>
    simp

/-- What happens to the device but a write of the recorder and a reset of its core keeps every scope that allows the
sections, their trips and the set-up of heads. -/
theorem events_keep (soft : fromSoftware i = false) (secs : F.secs) (lines : F.lines)
    (writes : writesRecorder i = false) (core : mayResetCore i = false) : F.view u = F.view s := by
  cases i <;> simp only [fromSoftware, reduceCtorEq] at soft <;>
    simp only [writesRecorder, reduceCtorEq] at writes <;> simp only [mayResetCore, reduceCtorEq] at core <;> cases e
  case tapReset =>
    exact (scope_tap ..).trans (rest_advance ..)
  case extest | idcode | samplePreload | highz | clamp | eclPath | eclRead | eclStatus | bypass =>
    simp
  case invalidRunStart | invalidRunLong | gapUnbridged | gapBridged | routeRampDownDone | routeBreakExpiry |
      routeDischargeExpiry | routeBreak2Expiry | leakFaultTimer | impCheckDue | impSlotStart | impSlotEnd | impSlotAbort |
      impOverdue | sweepTimeout | invalidRunEnd =>
    simp [checkDue, lines]
  case carrierSwitchPoint | regulatorRampUpDone | regulatorAcquireDone | regulatorAcquireTimeout | regulatorHoldBegin |
      regulatorHoldEnd | regulationFault | driverClipFault | listenLocked | thermWarn | thermOff | thermOffClear |
      regulatorRampDownDone =>
    simp [lines]
  case trackSampleLate | fadeStart | fadeComplete =>
    simp
  case settleComplete | presenceAssert | presenceRelease | occultationExpiry |
      presenceEpisodeJudgement | healthTrip | healthReturn | railFault | brakeComparatorSet | brakeComparatorClear |
      brakeRecognitionEnd | envelopeHoldEnd | comparatorTestEnd =>
    simp [lines]
  case transitStep | passageValidation =>
    simp
  case ppsEdge | tbFreqLock | ref10mLoss | ppsLoss | referenceReturn =>
    simp
  case epochBoundary | sectionGrant | sectionCommit | evaluationDeadline | trackTick =>
    simp [secs, lines]
  case handoverMarkRaise | handoverMarkEnd | roleInputChange | depose | deposeRelease |
      interlockClaim | claimWaitExpiry | holdTimeout | statusSend | doorbellSend | linkTrained | linkLoss | statusTimeout |
      aligned | driveIntervalComplete | driveAgeHour =>
    simp [lines]
  case vspRead | vspReadAbort =>
    simp
  case interruptMessage | interruptCommit =>
    simp
  case eclipseRequest =>
    simp
  case recTrigger | recSurveyPeriod =>
    simp
  case supplyRecovery | startUp | fldPowerDownDone | fldResetRelease | clkrefGlitch | sclkFrequencyCheck | zpllLoss |
      zclkPllLock | pcieRefclkLoss =>
    simp
  case streamFlush =>
    simp
end

end Sys2Proof.Machine
end

section
/-! SUPPORT. What software leaves of a section (R18): its standing, its trip latch, and the resets that wait for it. -/
namespace Sys2Proof.Machine

/-! ### Scopes of one section -/

/-- A part of one section's verdict; `lines` says whether a trip may change it, `cmds` whether a queued reset may. -/
def Scope.ofSection (n : SecId) {α : Type} (part : Section → α) (lines cmds : Prop)
    (of_verdict : ∀ x y : Section, x.verdict = y.verdict → part x = part y)
    (of_trip : lines → ∀ t x, part (Section.trip t x) = part x)
    (of_queue : ∀ (x : Section) (q : SecCmd), (cmds ∨ ∀ direct, q.op ≠ .reset direct) →
      part { x with cmds := x.cmds ++ [q] } = part x) : Scope where
  Part := α
  view s := part (s.sec n)
  own _ := True
  words := True
  lines := lines
  of_device s u e := congrArg part (sec_of_device e n)
  of_blocks _ _ _ _ _ := rfl
  of_survey _ _ := rfl
  of_head _ _ _ _ _ := rfl
  of_sec s m f keep := by
    rw [modSec_sec]
    split
    · exact of_verdict _ _ (congrArg Section.verdict (keep _) :)
    · rfl
  of_trip s m t may := by
    rw [modSec_sec]
    split
    · exact of_trip may _ _
    · rfl
  all _ := trivial
  free := trivial
  secs := False
  cmds := cmds
  ring := True
  of_parts s u e _ := congrArg (fun l => part (tget l n)) e
  of_sections s v keep := of_verdict _ _ (keep.resolve_left id n)
  of_queue s m op job wr keep := by
    rw [queueCmd, modSec_sec]
    split
    · exact of_queue _ _ keep
    · rfl

/-- The state, the count, the service and the code of a section. -/
def Scope.standing (n : SecId) : Scope :=
  .ofSection n (fun x => (x.core.state, x.core.count, x.core.service, x.code)) True True
    (fun x y e => by
      simp only [Section.verdict, Prod.mk.injEq] at e
      simp only [e])
    (fun _ t x => by unfold Section.trip; split <;> rfl)
    (fun _ _ _ => rfl)

/-- The trip latch of a section. -/
def Scope.latch (n : SecId) : Scope :=
  .ofSection n Section.latch False True
    (fun x y e => by
      simp only [Section.verdict, Prod.mk.injEq] at e
      exact e.2.2.2.2.1)
    (fun no => no.elim)
    (fun _ _ _ => rfl)

/-- A command that waits for a section is a reset. -/
def SecCmd.isReset (q : SecCmd) : Bool :=
  match q.op with
  | .reset _ => true
  | _ => false

theorem SecCmd.isReset_iff {q : SecCmd} : q.isReset = true ↔ ∃ direct, q.op = .reset direct := by
  unfold SecCmd.isReset
  split
  next direct e => exact ⟨fun _ => ⟨direct, e⟩, fun _ => rfl⟩
  next other => exact ⟨nofun, fun ⟨direct, e⟩ => absurd e (other direct)⟩

/-- The resets that wait for a section. -/
def Scope.resets (n : SecId) : Scope :=
  .ofSection n (fun x => x.cmds.filter SecCmd.isReset) True False
    (fun x y e => by
      simp only [Section.verdict, Prod.mk.injEq] at e
      simp only [e])
    (fun _ t x => by unfold Section.trip; split <;> rfl)
    (fun x q keep => by
      have other : ¬ q.isReset = true := fun is => by
        obtain ⟨direct, is⟩ := SecCmd.isReset_iff.mp is
        exact keep.resolve_left id direct is
      rw [List.filter_append, List.filter_cons_of_neg other, List.filter_nil, List.append_nil])

/-! ### What may set a latch releases none -/

/-- The trip latch of section `n`, where it was set, is still set. -/
structure KeepsLatch (n : SecId) (s u : State) : Prop where
  still : (s.sec n).latch = true → (u.sec n).latch = true

section
variable {n : SecId} {s u v : State}

theorem KeepsLatch.of_view (e : (Scope.latch n).view u = (Scope.latch n).view s) : KeepsLatch n s u :=
  ⟨fun was => Eq.trans e was⟩

theorem KeepsLatch.trans (a : KeepsLatch n s u) (b : KeepsLatch n u v) : KeepsLatch n s v :=
  ⟨fun was => b.still (a.still was)⟩

/-- A step after one that keeps the latch as it is. -/
theorem KeepsLatch.after (e : (Scope.latch n).view u = (Scope.latch n).view s) (b : KeepsLatch n u v) :
    KeepsLatch n s v := (KeepsLatch.of_view e).trans b

/-- A step before one that keeps the latch as it is. -/
theorem KeepsLatch.then (a : KeepsLatch n s u) (e : (Scope.latch n).view v = (Scope.latch n).view u) :
    KeepsLatch n s v := a.trans (.of_view e)

theorem KeepsLatch.ite {p : Prop} [Decidable p] (a : KeepsLatch n s u) (b : KeepsLatch n s v) :
    KeepsLatch n s (if p then u else v) := by split <;> assumption
end

section
variable (n : SecId) (s : State) (h : HeadId)

theorem KeepsLatch.refl : KeepsLatch n s s := ⟨id⟩

theorem trip_keepsLatch (m : SecId) (t : Nat) : KeepsLatch n s (s.modSec m (Section.trip t)) :=
  ⟨fun was => by
    rw [modSec_sec]
    split
    · rw [Section.trip, if_pos was]
      exact was
    · exact was⟩

theorem setLatches_keepsLatch : KeepsLatch n s (setLatches h s) :=
  ⟨fun was => by
    obtain ⟨b, log, sec, kept⟩ := setLatches_latch h n s
    rw [sec]
    exact kept was⟩

theorem withLines_keepsLatch {f : State → State} (keep : ∀ s, (Scope.latch n).view (f s) = (Scope.latch n).view s) :
    KeepsLatch n s (withLines h f s) := by
  unfold withLines
  extract_lets s' note t
  have noted : ∀ x u, (Scope.latch n).view (note x u) = (Scope.latch n).view u := fun x u => by simp [note]
  have same : (Scope.latch n).view t = (Scope.latch n).view s := by simp [t, noted, s', keep]
  exact .ite (.of_view same) (.after same (setLatches_keepsLatch ..))

/-- A command keeps a latch that its body keeps. -/
theorem command_keepsLatch {op : BitVec 16} {long : Bool} {need rneed : Nat} {c : Cmd} {body : Nat → State → State}
    (keep : ∀ seq s, KeepsLatch n s (body seq s)) : KeepsLatch n s (command op long need rneed c body s) := by
  rcases command_cases op long need rneed c body s with e | ⟨st, d, e⟩ | e <;> rw [e]
  · exact .of_view (scope_holdBack ..)
  · exact .of_view ((rest_complete ..).trans (scope_admitCmd ..))
  · exact .after (scope_admitCmd ..) (keep _ _)
end

/-! ### Front end -/

section
variable (n : SecId) (s : State) (h : HeadId)

theorem admitRoute_keepsLatch (r : RouteCfg) (job : Option Nat) : KeepsLatch n s (admitRoute h r job s) := by
  unfold admitRoute
  refine withLines_keepsLatch n s h fun s => ?_
  simp

theorem routeCtrlWrite_keepsLatch (v : Word) : KeepsLatch n s (routeCtrlWrite h v s) := by
  unfold routeCtrlWrite
  extract_lets off t
  have stored : (Scope.latch n).view t = (Scope.latch n).view s := by simp [t]
  refine .ite (.of_view (by simp)) (.ite (.of_view (by simp)) (.ite ?_ (.of_view stored)))
  split
  · exact .of_view (by simp)
  · exact .after stored (admitRoute_keepsLatch ..)

theorem feRoute_keepsLatch (p : List Byte) (seq : Nat) : KeepsLatch n s (feRoute p seq s) := by
  unfold feRoute
  split
  · exact .of_view (by simp)
  · refine .ite (.of_view (by simp)) ?_
    dsimp only
    split
    · exact .of_view (by simp)
    · exact .after (by simp) (admitRoute_keepsLatch ..)

theorem feBiasSet_keepsLatch (p : List Byte) (seq : Nat) : KeepsLatch n s (feBiasSet p seq s) := by
  unfold feBiasSet withHead
  split
  · exact .of_view (by simp)
  next h _ =>
    refine .ite ?_ (.of_view (by simp))
    extract_lets warn fault level
    refine .ite (.of_view (by simp)) ?_
    extract_lets was store r
    have stores : ∀ u, (Scope.latch n).view (store u) = (Scope.latch n).view u := fun u => by simp [store]
    refine .ite (.of_view (by simp [stores])) ?_
    split
    · exact .of_view (by simp)
    · exact .after (stores s) (admitRoute_keepsLatch ..)
end

/-! ### Bindings -/

section
variable (n m : SecId) (s : State)

theorem storeBind_keepsLatch (words : List Word) : KeepsLatch n s (storeBind m words s) := by
  unfold storeBind
  extract_lets old u added
  have bound : (Scope.latch n).view u = (Scope.latch n).view s := scope_modSec _ s (.inr fun _ => rfl)
  exact .ite (.after bound (trip_keepsLatch ..)) (.of_view bound)

theorem secBind_keepsLatch (entries words : List Word) (job : Option Nat) :
    KeepsLatch n s (secBind m entries words job s) :=
  .ite (.of_view (scope_secOutcome ..)) ((storeBind_keepsLatch ..).then (scope_secOutcome ..))

theorem secPreSeal_keepsLatch (o : Nat) (v : Word) : KeepsLatch n s (secPreSeal m o v s) := by
  unfold secPreSeal
  extract_lets x off set_ serve code code' u k words entries
  have stored : (Scope.latch n).view u = (Scope.latch n).view s := by simp [u]
  refine .ite (.ite (.of_view (by simp)) (.of_view (by simp [stored]))) (.ite (.of_view (by simp)) ?_)
  exact (secBind_keepsLatch ..).then (scope_secWriteErr ..)
end

/-! ### Field dies -/

section
variable (n : SecId) (s : State)

theorem foldOver_keepsLatch {α : Type} {f : α → State → State} (l : List α) (keep : ∀ a s, KeepsLatch n s (f a s)) :
    KeepsLatch n s (foldOver l f s) := by
  induction l generalizing s with
  | nil => exact .refl n s
  | cons a l ih => exact (keep a s).trans (ih (f a s))

theorem turnOff_keepsLatch (d : DieId) : KeepsLatch n s (turnOff d s) :=
  KeepsLatch.then ⟨dieDown_latch d s⟩ (scope_modPwr ..)

theorem fldAdmit_keepsLatch (mask : BitVec 8) (on : Bool) (job : Option Nat) :
    KeepsLatch n s (fldAdmit mask on job s) := by
  unfold fldAdmit
  extract_lets todo left u v
  have turned : KeepsLatch n s v := by
    refine .after (scope_modPwr ..) (foldOver_keepsLatch n u _ fun d w => ?_)
    cases on
    · exact turnOff_keepsLatch ..
    · exact .of_view (scope_turnOn ..)
  exact .ite (turned.then (rest_completeJob ..)) turned

theorem fldPreSeal_keepsLatch (v : Word) : KeepsLatch n s (fldPreSeal v s) := by
  unfold fldPreSeal
  extract_lets new off on code u w
  have cleared : (Scope.latch n).view u = (Scope.latch n).view s := scope_modPwr ..
  have off_ : KeepsLatch n s w := .ite (.of_view cleared) (.after cleared (fldAdmit_keepsLatch ..))
  exact .ite (.of_view (by simp)) (.ite off_ (off_.trans (fldAdmit_keepsLatch ..)))

theorem pwrFld_keepsLatch (p : List Byte) (seq : Nat) : KeepsLatch n s (pwrFld p seq s) :=
  .ite (.of_view (by simp)) (fldAdmit_keepsLatch ..)
end

/-! ### Register writes -/

section
variable (n : SecId) (s : State) (off o : Nat) (v : Word) (r : RegView)

theorem devPreSeal_keepsLatch : KeepsLatch n s (devPreSeal off v s) := by
  by_cases dies : off = 0x4C000
  · subst dies
    exact fldPreSeal_keepsLatch n s v
  · have recorder : (Scope.latch n).view (recPreSeal off v s) = (Scope.latch n).view s := scope_recPreSeal trivial ..
    exact .of_view (by simp [devPreSeal, dies, recorder])

theorem devWrite_keepsLatch : KeepsLatch n s (devWrite off v r s) := by
  unfold devWrite
  split
  next u e => exact .of_view (scope_devAct _ _ _ e)
  next => exact .ite (.of_view (scope_sealedWrite ..)) (.ite (.refl n s) (devPreSeal_keepsLatch ..))

theorem headWrite_keepsLatch (h : HeadId) : KeepsLatch n s (headWrite h o v r s) := by
  have clear : ∀ f : Head → Head, (Scope.latch n).view (s.modHead h f) = (Scope.latch n).view s := fun f => rfl
  unfold headWrite
  refine .ite (routeCtrlWrite_keepsLatch ..) (.of_view ?_)
  split
  · simp
  · split <;> simp [clear]

theorem secWrite_keepsLatch (m : SecId) : KeepsLatch n s (secWrite m o v r s) :=
  .ite (.of_view (scope_modSec _ s (.inr fun _ => rfl)))
    (.ite (.of_view (scope_sealedWrite ..)) (.ite (.refl n s) (secPreSeal_keepsLatch ..)))

theorem writeReg_keepsLatch : KeepsLatch n s (writeReg off v s) := by
  unfold writeReg
  split
  · exact .of_view (by simp)
  · exact .ite (.of_view (scope_hpWriteReg ..)) (.ite (.of_view (scope_orbWriteReg ..))
      (.ite (.of_view (scope_irqWriteReg ..)) (.ite (devWrite_keepsLatch ..)
        (.ite (headWrite_keepsLatch ..) (secWrite_keepsLatch ..)))))

theorem busWrite_keepsLatch (bar : Bar) (be : BitVec 4) (dwords : Nat) :
    KeepsLatch n s (busWrite bar off v be dwords s) := by
  cases bar
  case bar0 => exact .ite (.of_view (by simp)) (.ite (.of_view (by simp)) (writeReg_keepsLatch ..))
  case bar2 => exact .of_view (by simp [busWrite])
  case bar4 => exact .of_view (by simp [busWrite])

theorem hpWrite_keepsLatch (p : List Byte) (seq : Nat) : KeepsLatch n s (hpWrite p seq s) := by
  unfold hpWrite
  extract_lets off u bad w
  have written : KeepsLatch n s u := .after (scope_modHp ..) (writeReg_keepsLatch ..)
  have ended : KeepsLatch n s w := written.then (scope_modHp ..)
  exact .ite (.of_view (by simp)) (.ite (.of_view (by simp)) (.ite (ended.then (by simp)) (ended.then (by simp))))
end

/-- What may set a latch releases none. -/
theorem tripping_keepsLatch {i : Instr} {s u : State} (n : SecId) (may : mayTrip i = true) (e : exec i s = .next u) :
    KeepsLatch n s u := by
  cases i <;> simp only [mayTrip, reduceCtorEq] at may <;> cases e
  case feRoute => exact .after (rest_advance ..) (command_keepsLatch n _ fun _ _ => feRoute_keepsLatch ..)
  case feBiasSet => exact .after (rest_advance ..) (command_keepsLatch n _ fun _ _ => feBiasSet_keepsLatch ..)
  case pwrFld => exact .after (rest_advance ..) (command_keepsLatch n _ fun _ _ => pwrFld_keepsLatch ..)
  case hpWrite => exact .after (rest_advance ..) (command_keepsLatch n _ fun _ _ => hpWrite_keepsLatch ..)
  case secBind =>
    refine .after (rest_advance ..) (command_keepsLatch n _ fun seq s => ?_)
    unfold withSec
    split
    · exact .of_view (rest_refuse ..)
    · exact .ite (.of_view (scope_secOutcome ..)) (secBind_keepsLatch ..)
  case feRouteCtrlGo =>
    refine .after (rest_advance ..) (.ite ?_ (.refl n _))
    exact .ite (routeCtrlWrite_keepsLatch ..) (.of_view (rest_hpErr ..))
  case registerWrite =>
    exact .after (rest_advance ..) (.ite (busWrite_keepsLatch ..) (.refl n _))

/-- No command of software releases a trip latch. -/
theorem software_keepsLatch {i : Instr} {s u : State} (n : SecId) (soft : fromSoftware i = true)
    (e : exec i s = .next u) : KeepsLatch n s u := by
  cases may : mayTrip i with
  | false => exact .of_view (software_keeps e soft (.inr may) (.inl trivial) (.inl trivial))
  | true => exact tripping_keepsLatch n may e

end Sys2Proof.Machine
end

section
/-! SUPPORT. Resets queued only behind valid tokens (R18, R187). Settles O58. -/
namespace Sys2Proof.Machine

/-! ### The reset commands -/

theorem queueCmd_resets_other {m n : SecId} (other : m ≠ n) (op : SecOp) (job : Option Nat) (wr : Option Word)
    (s : State) : (Scope.resets m).view (queueCmd n op job wr s) = (Scope.resets m).view s := by
  show ((queueCmd n op job wr s).sec m).cmds.filter _ = (s.sec m).cmds.filter _
  rw [queueCmd, modSec_sec, if_neg other]

/-- A reset form queues a reset only of the section it names, and only where each of its tokens is right. -/
theorem secReset_authorised (m n : SecId) (direct : Bool) (etok : Nat) (toks : List (Nat × List Byte)) (seq : Nat)
    (s : State) : (Scope.resets m).view (secReset n direct etok toks seq s) = (Scope.resets m).view s ∨
      m = n ∧ ∃ key, s.key = some key ∧ ∀ t ∈ toks, t.2 = token key t.1 n.val etok (s.sec n).nonce := by
  unfold secReset
  split
  · exact .inl (by simp)
  · split
    · exact .inl (by simp)
    next key keyed =>
      extract_lets nonce d u x
      have renewed : (Scope.resets m).view u = (Scope.resets m).view s := by simp [u, d]
      by_cases right : ∀ t ∈ toks, t.2 = token key t.1 n.val etok nonce
      · by_cases same : m = n
        · exact .inr ⟨same, key, keyed, right⟩
        · exact .inl (by simp [renewed, queueCmd_resets_other same])
      · have bad : toks.any (fun t => t.2 != token key t.1 n.val etok nonce) = true := by
          simpa using right
        exact .inl (by simp [renewed, bad])

/-- The reset commands, likewise. -/
theorem resetCmd_authorised {m : SecId} {op : BitVec 16} {need rneed : Nat} {c : Cmd} {direct : Bool}
    {toks : List (Nat × List Byte)} (t : Nat) (s : State) :
    (Scope.resets m).view (command op false need rneed c (fun seq => withSec c.payload seq fun n =>
      secReset n direct (field c.payload 2 6) toks seq) (s.advance t)) = (Scope.resets m).view s ∨
    secArg c.payload 0 = some m ∧ ∃ key, s.key = some key ∧
      ∀ k ∈ toks, k.2 = token key k.1 m.val (field c.payload 2 6) (s.sec m).nonce := by
  have advanced : (Scope.resets m).view (s.advance t) = (Scope.resets m).view s := rest_advance ..
  have admits := scope_admitCmd (Scope.resets m) (s.advance t) c op false
  have dev := admitCmd_device (s.advance t) op false c
  rcases command_cases op false need rneed c (fun seq => withSec c.payload seq fun n =>
    secReset n direct (field c.payload 2 6) toks seq) (s.advance t) with e | ⟨st, d, e⟩ | e <;> rw [e]
  · exact .inl ((scope_holdBack ..).trans advanced)
  · exact .inl ((rest_complete ..).trans (admits.trans advanced))
  · unfold withSec
    split
    · exact .inl ((rest_refuse ..).trans (admits.trans advanced))
    next n named =>
      refine (secReset_authorised m n direct _ toks _ _).imp (fun kept => kept.trans (admits.trans advanced)) ?_
      rintro ⟨rfl, key, keyed, right⟩
      refine ⟨named, key, (congrArg State.key dev).symm.trans keyed, ?_⟩
      rw [sec_of_device dev m] at right
      exact right

/-- A command of software queues no reset of a section but a reset command with its valid tokens. -/
theorem software_resets {i : Instr} {s u : State} (n : SecId) (soft : fromSoftware i = true) (e : exec i s = .next u) :
    (Scope.resets n).view u = (Scope.resets n).view s ∨ carriesTokens i s n := by
  cases reset : isResetCmd i with
  | false => exact .inl (software_keeps e soft (.inl trivial) (.inr reset) (.inl trivial))
  | true =>
    cases i <;> simp only [isResetCmd, reduceCtorEq] at reset
    case true.secResetSup t c =>
      cases e
      refine (resetCmd_authorised t s).imp_right ?_
      rintro ⟨named, key, keyed, right⟩
      exact ⟨named, key, keyed, right _ (List.mem_singleton_self _)⟩
    case true.secResetDir t c =>
      cases e
      refine (resetCmd_authorised t s).imp_right ?_
      rintro ⟨named, key, keyed, right⟩
      exact ⟨named, key, keyed, right _ (List.mem_cons_self ..), right _ (List.mem_cons_of_mem _ (List.mem_singleton_self _))⟩

/-! ### O58 -/

/-- Settles O58: every command of software keeps the standing of each section, releases no latch, and queues a reset only
behind valid tokens. -/
theorem softwareMovesNoSectionTowardsClear : Obligations.Software_moves_no_section_towards_clear := by
  unfold Obligations.Software_moves_no_section_towards_clear
  intro i s u n soft e
  have standing : (Scope.standing n).view u = (Scope.standing n).view s :=
    software_keeps e soft (.inl trivial) (.inl trivial) (.inl trivial)
  simp only [Scope.standing, Scope.ofSection, Prod.mk.injEq] at standing
  obtain ⟨state, count, service, code⟩ := standing
  refine ⟨state, count, service, code, (software_keepsLatch n soft e).still, fun q waits reset => ?_⟩
  refine (software_resets n soft e).imp_left fun kept => ?_
  have mem : q ∈ (u.sec n).cmds.filter SecCmd.isReset := List.mem_filter.mpr ⟨waits, SecCmd.isReset_iff.mpr reset⟩
  rw [show (u.sec n).cmds.filter SecCmd.isReset = (s.sec n).cmds.filter SecCmd.isReset from kept] at mem
  exact (List.mem_filter.mp mem).1

end Sys2Proof.Machine
end

section
/-! SUPPORT. The recorder's memory and its ring (R310, R316, R317). Settles O56. -/
namespace Sys2Proof.Machine

/-- The recorder's memory, its header and the ring's pointers. -/
def Scope.ringView : Scope where
  Part := Memory × Pair RecHeader × Nat × Nat
  view := ringOf
  own _ := True
  words := True
  lines := True
  of_device _ _ e := (congrArg ringOf e :)
  of_blocks _ _ _ _ _ := rfl
  of_survey _ _ := rfl
  of_head _ _ _ _ _ := rfl
  of_sec _ _ _ _ := rfl
  of_trip _ _ _ _ := rfl
  all _ := trivial
  free := trivial
  secs := True
  cmds := True
  ring := False
  of_parts _ _ _ keep := keep.resolve_left id
  of_sections _ _ _ := rfl
  of_queue _ _ _ _ _ _ := rfl

/-- The memory stays canonical, and the pointers stay at most a ring apart. -/
structure KeepsRing (s u : State) : Prop where
  mem : MemInv s → MemInv u
  ring : RingInv s → RingInv u

section
variable {s u v : State}

theorem KeepsRing.of_view (e : Scope.ringView.view u = Scope.ringView.view s) : KeepsRing s u := by
  simp only [Scope.ringView, ringOf, Prod.mk.injEq] at e
  obtain ⟨mem, header, next, oldest⟩ := e
  exact ⟨fun was => by rw [MemInv, mem]; exact was, fun was => by rw [RingInv, header, next, oldest]; exact was⟩

theorem KeepsRing.refl (s : State) : KeepsRing s s := ⟨id, id⟩

theorem KeepsRing.trans (a : KeepsRing s u) (b : KeepsRing u v) : KeepsRing s v := ⟨b.mem ∘ a.mem, b.ring ∘ a.ring⟩

/-- A step after one that keeps the ring as it is. -/
theorem KeepsRing.after (e : Scope.ringView.view u = Scope.ringView.view s) (b : KeepsRing u v) : KeepsRing s v :=
  (KeepsRing.of_view e).trans b

/-- A step before one that keeps the ring as it is. -/
theorem KeepsRing.then (a : KeepsRing s u) (e : Scope.ringView.view v = Scope.ringView.view u) : KeepsRing s v :=
  a.trans (.of_view e)

theorem KeepsRing.ite {p : Prop} [Decidable p] (a : KeepsRing s u) (b : KeepsRing s v) :
    KeepsRing s (if p then u else v) := by split <;> assumption
end

/-! ### Records and write-backs (R316, R317) -/

section
variable (s : State)

/-- A change of the recorder that keeps its memory canonical and leaves its header. -/
theorem modRec_keepsRing {f : Rec → Rec} (mem : Memory.wf s.rcd.mem = true → Memory.wf (f s.rcd).mem = true)
    (header : (f s.rcd).header = s.rcd.header) : KeepsRing s (s.modRec f) :=
  ⟨mem, fun was => by
    show ringOk _ _ ∧ ringOk (f s.rcd).header.one.next (f s.rcd).header.one.oldest ∧
      ringOk (f s.rcd).header.two.next (f s.rcd).header.two.oldest
    rw [header]
    exact was⟩

theorem writeBack_keepsRing : KeepsRing s (writeBack s) := by
  unfold writeBack
  split
  · exact modRec_keepsRing s memWrite_wf rfl
  · exact .refl s

theorem closeOpen_keepsRing : KeepsRing s (closeOpen s) :=
  (writeBack_keepsRing s).then (scope_modRec _ _ (.inr fun _ => ⟨rfl, rfl⟩))

/-- NEXT steps by one, and OLDEST follows it at most a ring behind. -/
theorem ringOk_step {next oldest : Nat} (was : ringOk next oldest) (clear : Bool) :
    ringOk ((next + 1) % 2 ^ 32) (if clear then next
      else if ringSize < recDist oldest ((next + 1) % 2 ^ 32) then recDist ringSize ((next + 1) % 2 ^ 32) else oldest) := by
  obtain ⟨hn, ho, dist⟩ := was
  by_cases full : ringSize < recDist oldest ((next + 1) % 2 ^ 32) <;> cases clear <;>
    simp only [full, Bool.false_eq_true, if_false, if_true] <;> simp only [ringOk, recDist, ringSize] at * <;> omega

theorem writeHeader_keepsRing : KeepsRing s (writeHeader s) := by
  refine ⟨id, fun ⟨now, one, two⟩ => ?_⟩
  unfold writeHeader
  by_cases even : s.rcd.passes % 2 = 0
  · exact ⟨now, by simpa only [State.modRec, if_pos even] using now, by simpa only [State.modRec, if_pos even] using two⟩
  · exact ⟨now, by simpa only [State.modRec, if_neg even] using one, by simpa only [State.modRec, if_neg even] using now⟩

theorem stepRing_keepsRing (e : RecEntry) : KeepsRing s (stepRing e s) := by
  unfold stepRing
  extract_lets n next oldest passes _ _ u v
  have stepped : KeepsRing s u := ⟨id, fun ⟨now, copies⟩ => ⟨ringOk_step now e.ok, copies⟩⟩
  have headed : KeepsRing s v := .ite (stepped.trans (writeHeader_keepsRing u)) stepped
  exact .ite (headed.then (scope_flagRec ..)) headed

theorem afterWrite_view (e : RecEntry) (bytes : List Byte) :
    Scope.ringView.view (afterWrite e bytes s) = Scope.ringView.view s := by
  simp [afterWrite]

theorem writeEntry_keepsRing (e : RecEntry) : KeepsRing s (writeEntry e s) := by
  unfold writeEntry
  extract_lets u n bytes o v
  have written : KeepsRing u v := by
    refine modRec_keepsRing u (fun was => ?_) rfl
    dsimp only
    exact memWrite_wf was
  exact (((closeOpen_keepsRing s).trans written).trans (stepRing_keepsRing v e)).then (afterWrite_view ..)

theorem recWrite_keepsRing : KeepsRing s (recWrite s) := by
  unfold recWrite
  split
  · exact .refl s
  · refine .ite (.after ?_ (writeEntry_keepsRing ..)) (.refl s)
    exact scope_modRec _ _ (.inr fun _ => ⟨rfl, rfl⟩)

theorem recWriteBack_keepsRing : KeepsRing s (recWriteBack s) := by
  unfold recWriteBack
  split
  · exact .ite (closeOpen_keepsRing s) (.ite (writeBack_keepsRing s) (.refl s))
  · exact .refl s
end

/-! ### Commands and register writes of the recorder (R317, R321) -/

section
variable (s : State) (off : Nat) (v : Word)

theorem recSet_keepsRing (cfg period trigEn eclEn : Word) : KeepsRing s (recSet cfg period trigEn eclEn s) := by
  unfold recSet
  extract_lets u c p fresh w
  have closed : KeepsRing s u := .after (scope_settleTriggers s) (closeOpen_keepsRing _)
  have stored : KeepsRing s w := closed.then (scope_modRec _ _ (.inr fun _ => ⟨rfl, rfl⟩))
  exact .ite (stored.then (scope_surveyStart ..)) stored

theorem recPreSeal_keepsRing : KeepsRing s (recPreSeal off v s) :=
  .ite (recSet_keepsRing ..) (.ite (recSet_keepsRing ..) (.ite (recSet_keepsRing ..) (recSet_keepsRing ..)))

theorem recClear_keepsRing (p : List Byte) (seq : Nat) : KeepsRing s (recClear p seq s) := by
  unfold recClear
  split
  · exact .of_view (by simp)
  · extract_lets u nonce d w etok
    have renewed : Scope.ringView.view w = Scope.ringView.view s := by simp [w, d, u]
    refine .ite (.of_view (by simp [renewed])) (.ite (.of_view (by simp [renewed])) ?_)
    exact (KeepsRing.after renewed (closeOpen_keepsRing w)).then (scope_queueClear ..)

theorem writeReg_keepsRing : KeepsRing s (writeReg off v s) := by
  by_cases inside : inRecorderSetUp off
  · have recorder : devPreSeal off v s = recPreSeal off v s := by
      obtain ⟨low, high⟩ := inside
      simp only [devPreSeal, low, high]
      repeat rw [if_neg (by omega)]
      exact if_pos ⟨trivial, trivial⟩
    have device : ∀ r, KeepsRing s (devWrite off v r s) := fun r => by
      unfold devWrite
      split
      next u e => exact .of_view (scope_devAct _ _ _ e)
      next =>
        rw [recorder]
        exact .ite (.of_view (scope_sealedWrite ..)) (.ite (.refl s) (recPreSeal_keepsRing ..))
    unfold writeReg
    split
    · exact .of_view (rest_hpErr ..)
    · exact .ite (.of_view (scope_hpWriteReg ..)) (.ite (.of_view (scope_orbWriteReg ..))
        (.ite (.of_view (scope_irqWriteReg ..)) (.ite (device _)
          (.ite (.of_view (rest_headWrite (F := Scope.ringView.toRest) trivial trivial trivial ..))
            (.of_view (scope_secWrite (lines := trivial) ..))))))
  · exact .of_view (scope_writeReg s v off trivial (.inr inside))

theorem busWrite_keepsRing (bar : Bar) (be : BitVec 4) (dwords : Nat) :
    KeepsRing s (busWrite bar off v be dwords s) := by
  cases bar
  case bar0 => exact .ite (.of_view (rest_hpErr ..)) (.ite (.of_view (rest_hpErr ..)) (writeReg_keepsRing ..))
  case bar2 => exact .of_view (by simp [busWrite])
  case bar4 => exact .of_view (by simp [busWrite])

theorem hpWrite_keepsRing (p : List Byte) (seq : Nat) : KeepsRing s (hpWrite p seq s) := by
  unfold hpWrite
  extract_lets off u bad w
  have written : KeepsRing s u := .after (scope_modHp ..) (writeReg_keepsRing ..)
  have ended : KeepsRing s w := written.then (scope_modHp ..)
  exact .ite (.of_view (rest_complete ..)) (.ite (.of_view (rest_complete ..))
    (.ite (ended.then (rest_complete ..)) (ended.then (rest_complete ..))))

theorem command_keepsRing {op : BitVec 16} {long : Bool} {need rneed : Nat} {c : Cmd} {body : Nat → State → State}
    (keep : ∀ seq s, KeepsRing s (body seq s)) : KeepsRing s (command op long need rneed c body s) := by
  rcases command_cases op long need rneed c body s with e | ⟨st, d, e⟩ | e <;> rw [e]
  · exact .of_view (scope_holdBack ..)
  · exact .of_view ((rest_complete ..).trans (scope_admitCmd ..))
  · exact .after (scope_admitCmd ..) (keep _ _)
end

/-! ### Resets (R310, R329, R330) -/

section
variable (s : State)

theorem tearWrite_keepsRing : KeepsRing s (tearWrite s) := by
  unfold tearWrite
  split
  · refine .ite (modRec_keepsRing s (fun was => ?_) rfl) (.refl s)
    dsimp only
    exact memWrite_wf was
  · exact .refl s

/-- The reset of the core die keeps the recorder's memory and its pointers. -/
theorem clearCore_view : Scope.ringView.view (clearCore s) = Scope.ringView.view s := rfl

theorem coreReset_keepsRing (cause : ResetCause) : KeepsRing s (coreReset cause s) := by
  unfold coreReset
  refine .ite (.refl s) ?_
  extract_lets u
  have torn : KeepsRing s u := by
    refine KeepsRing.then ?_ (clearCore_view _)
    exact .ite (tearWrite_keepsRing s) (.refl s)
  exact torn.then rfl

/-- A reset that no loss of a supply began leaves the memory alone. -/
theorem coreReset_view {cause : ResetCause} (vcore : cause ≠ .vcoreUv) (vio : cause ≠ .vioUv) :
    Scope.ringView.view (coreReset cause s) = Scope.ringView.view s := by
  unfold coreReset
  split
  · rfl
  · rw [if_neg (not_or.mpr ⟨vcore, vio⟩)]
    exact clearCore_view s

/-- The pointers of the newer copy of the header are taken. -/
theorem aonReset_keepsRing : KeepsRing s (aonReset s) := by
  refine ⟨(tearWrite_keepsRing s).mem, fun was => ?_⟩
  obtain ⟨-, copies⟩ := (tearWrite_keepsRing s).ring was
  obtain ⟨-, one, two⟩ := was
  have newest : ringOk (newestHeader s.rcd).next (newestHeader s.rcd).oldest := by
    unfold newestHeader
    split <;> assumption
  exact ⟨newest, copies⟩

theorem monitorTrip_keepsRing (m : Monitor) : KeepsRing s (monitorTrip m s) := by
  have lines : Scope.ringView.lines := trivial
  cases m
  case vcoreUv =>
    unfold monitorTrip
    exact (coreReset_keepsRing s .vcoreUv).then (scope_modPwr ..)
  case vioUv =>
    unfold monitorTrip
    exact (coreReset_keepsRing s .vioUv).then (scope_modPwr ..)
  all_goals exact .of_view (by simp [monitorTrip, lines])
end

/-! ### Every command and every step -/

/-- No command but the recorder's writers changes a byte of its memory, or a pointer. -/
theorem exec_ringView {i : Instr} {s u : State} (writes : writesRecorder i = false) (e : exec i s = .next u) :
    Scope.ringView.view u = Scope.ringView.view s := by
  cases core : mayResetCore i with
  | false =>
    cases soft : fromSoftware i with
    | true => exact software_keeps e soft (.inl trivial) (.inl trivial) (.inr writes)
    | false => exact events_keep e soft trivial trivial writes core
  | true =>
    cases i <;> simp only [mayResetCore, reduceCtorEq] at core <;> simp only [writesRecorder, reduceCtorEq] at writes
    case true.clkrefLoss =>
      cases e
      simp [clkrefLoss, coreReset_view]
    case true.epochWatchdog =>
      cases e
      simp [watchdog, coreReset_view]

theorem exec_keepsRing {i : Instr} {s u : State} (e : exec i s = .next u) : KeepsRing s u := by
  cases writes : writesRecorder i with
  | false => exact .of_view (exec_ringView writes e)
  | true =>
    have advanced (t : Nat) : Scope.ringView.view (s.advance t) = Scope.ringView.view s := rest_advance ..
    cases i <;> simp only [writesRecorder, reduceCtorEq] at writes <;> cases e
    case true.hpWrite => exact .after (advanced _) (command_keepsRing _ fun _ _ => hpWrite_keepsRing ..)
    case true.recSet =>
      exact .after (advanced _) (command_keepsRing _ fun _ _ => (recSet_keepsRing ..).then (rest_done ..))
    case true.recClear => exact .after (advanced _) (command_keepsRing _ fun _ _ => recClear_keepsRing ..)
    case true.supplyMonitorTrip => exact .after (advanced _) (monitorTrip_keepsRing ..)
    case true.aonPowerOnReset => exact .after (advanced _) (aonReset_keepsRing _)
    case true.coreDieReset => exact .after (advanced _) (coreReset_keepsRing ..)
    case true.registerWrite => exact .after (advanced _) (.ite (busWrite_keepsRing ..) (.refl _))
    case true.recWrite => exact .after (advanced _) (.ite (recWrite_keepsRing _) (.refl _))
    case true.recWriteBack => exact .after (advanced _) (.ite (recWriteBack_keepsRing _) (.refl _))

/-- Settles O56, by the frame of the ring that every command but its writers keeps, and the writers one by one. -/
theorem everyStepKeepsTheMemoryCanonical : Obligations.Every_step_keeps_the_memory_canonical := by
  unfold Obligations.Every_step_keeps_the_memory_canonical
  intro s u e
  unfold step at e
  split at e
  next empty =>
    cases e
    exact ⟨id, id, fun _ _ _ _ => rfl⟩
  next c rest front =>
    have keeps := exec_keepsRing (s := { s with pending := rest }) e
    refine ⟨keeps.mem, keeps.ring, fun i rest' front' writes => ?_⟩
    obtain ⟨rfl, rfl⟩ := List.cons_eq_cons.mp (front.symm.trans front')
    exact (congrArg Prod.fst (exec_ringView writes e) :)

end Sys2Proof.Machine
end

section
/-! SUPPORT. The set-up of a sealed device under the accesses of the host (R9, R264). Settles O51. -/
namespace Sys2Proof.Machine

/-! ### What no access changes -/

/-- The set-up values and what goes with them, apart from the seal. -/
def setUpPart (s : State) :=
  (s.phase, (fun h : HeadId => (s.head h).sansFaults),
    (fun n : SecId => { s.sec n with core := { (s.sec n).core with fault := 0 } }), s.dies, s.dev, s.epc.cfg, s.epc.seq,
    s.vsp.ctrl, { s.zl with fault := 0, doorbells := [] }, { s.tb with fault := 0, nowHi := 0, epochHi := 0 }, s.rcd.cfg,
    s.rcd.period, s.rcd.trigEn, s.rcd.eclEn, s.rcd.sel, s.rcd.selgen, s.rcd.mem, { s.pwr with fault := 0, dieFault := 0 },
    { s.clk with fault := 0 }, s.ecl, s.key, { s.aon with cause := 0 })

theorem setUpPart_of_device {s u : State} (e : u.device = s.device) : setUpPart u = setUpPart s :=
  (congrArg setUpPart e :)

/-- On a sealed device: the set-up is as it was, and the device is still sealed. -/
structure KeepsSetUp (s u : State) : Prop where
  still : s.hp.isSealed = true → u.hp.isSealed = true ∧ setUpPart u = setUpPart s

section
variable {s u v : State}

theorem KeepsSetUp.refl (s : State) : KeepsSetUp s s := ⟨fun shut => ⟨shut, rfl⟩⟩

theorem KeepsSetUp.trans (a : KeepsSetUp s u) (b : KeepsSetUp u v) : KeepsSetUp s v :=
  ⟨fun shut => by
    obtain ⟨shut, first⟩ := a.still shut
    obtain ⟨shut, second⟩ := b.still shut
    exact ⟨shut, second.trans first⟩⟩

/-- What leaves the device and the seal alone. -/
theorem KeepsSetUp.of_device (e : u.device = s.device) (shut : u.hp.isSealed = s.hp.isSealed) : KeepsSetUp s u :=
  ⟨fun was => ⟨shut.trans was, setUpPart_of_device e⟩⟩

/-- What leaves the host port alone and, of the device, the set-up. -/
theorem KeepsSetUp.of_part (e : setUpPart u = setUpPart s) (port : u.hp = s.hp) : KeepsSetUp s u :=
  ⟨fun was => ⟨(congrArg Hp.isSealed port).trans was, e⟩⟩

theorem KeepsSetUp.ite {p : Prop} [Decidable p] (a : KeepsSetUp s u) (b : KeepsSetUp s v) :
    KeepsSetUp s (if p then u else v) := by split <;> assumption

/-- The set-up is kept as O51 lists it. -/
theorem KeepsSetUp.setUpKept (k : KeepsSetUp s u) (shut : s.hp.isSealed = true) : SetUpKept s u := by
  obtain ⟨shut, part⟩ := k.still shut
  simp only [setUpPart, Prod.mk.injEq] at part
  obtain ⟨phase, heads, secs, rest⟩ := part
  exact ⟨shut, phase, congrFun heads, congrFun secs, rest⟩
end

/-! ### The operations of an access -/

section
variable (s : State)

theorem hpErr_keepsSetUp (cause : Nat) (bar2 : Bool) (off : Nat) (v : Word) : KeepsSetUp s (hpErr cause bar2 off v s) := by
  obtain ⟨n, l, m, port⟩ := hpErr_port cause bar2 off v s
  exact .of_device (hpErr_device ..) (by rw [port])

theorem whenHost_keepsSetUp {f : State → State} (keep : ∀ s, KeepsSetUp s (f s)) : KeepsSetUp s (whenHost f s) :=
  .ite (keep s) (.refl s)

theorem whenHostUp_keepsSetUp {f : State → State} (keep : ∀ s, KeepsSetUp s (f s)) : KeepsSetUp s (whenHostUp f s) :=
  .ite (keep s) (.refl s)

theorem enabled_keepsSetUp {be : BitVec 4} {off : Nat} {v : Word} {f : State → State} (keep : ∀ s, KeepsSetUp s (f s)) :
    KeepsSetUp s (enabled be off v f s) := .ite (keep s) (hpErr_keepsSetUp ..)

/-- A change of the interrupt controller alone. -/
theorem modIrq_keepsSetUp (f : Irq → Irq) : KeepsSetUp s (s.modIrq f) := .of_device rfl rfl

theorem modOrbit_keepsSetUp (k : Fin 16) (f : Orbit → Orbit) : KeepsSetUp s (s.modOrbit k f) := .of_device rfl rfl

/-- A change of the host port that keeps the seal. -/
theorem modHp_keepsSetUp {f : Hp → Hp} (shut : s.hp.isSealed = true → (f s.hp).isSealed = true) :
    KeepsSetUp s (s.modHp f) := ⟨fun was => ⟨shut was, rfl⟩⟩

/-! ### Seal, port and orbits -/

theorem sealWrite_keepsSetUp (v : Word) : KeepsSetUp s (sealWrite v s) :=
  .ite (modHp_keepsSetUp s fun _ => rfl) (hpErr_keepsSetUp ..)

theorem errClr_keepsSetUp (v : Word) : KeepsSetUp s (errClr v s) := .ite (modHp_keepsSetUp s id) (.refl s)

theorem hpWriteReg_keepsSetUp (off : Nat) (v : Word) : KeepsSetUp s (hpWriteReg off v s) :=
  .ite (sealWrite_keepsSetUp ..) (.ite (errClr_keepsSetUp ..) (.ite (modHp_keepsSetUp s id) (.refl s)))

theorem orbCfgWrite_keepsSetUp (k : Fin 16) (v : Word) : KeepsSetUp s (orbCfgWrite k v s) := by
  unfold orbCfgWrite
  extract_lets code refused
  exact .ite (modOrbit_keepsSetUp ..) (.trans (.ite (modOrbit_keepsSetUp ..) (.refl s)) (hpErr_keepsSetUp ..))

theorem orbWriteReg_keepsSetUp (k : Fin 16) (o : Nat) (v : Word) : KeepsSetUp s (orbWriteReg k o v s) :=
  .ite (.ite (hpErr_keepsSetUp ..) (.ite (.refl s) (modOrbit_keepsSetUp ..)))
    (.ite (orbCfgWrite_keepsSetUp ..) (.ite (modOrbit_keepsSetUp ..) (.refl s)))

theorem skipShort_keepsSetUp (k : Fin 16) (bufs : List Buf) : KeepsSetUp s (skipShort k bufs s) := by
  induction bufs generalizing s with
  | nil => exact .refl s
  | cons b rest ih =>
    have back : KeepsSetUp s (handBack k { b with used := 0, first := none } 5 s) :=
      .of_device (handBack_device ..) (by rw [handBack_hp])
    exact .ite (back.trans (ih _)) (.refl s)

theorem skipNow_keepsSetUp (k : Fin 16) : KeepsSetUp s (skipNow k s) := .ite (skipShort_keepsSetUp ..) (.refl s)

theorem orbFault_keepsSetUp (k : Fin 16) (w : Word) : KeepsSetUp s (orbFault k w s) :=
  .of_device (orbFault_device ..) (by rw [orbFault_hp])

theorem doorbell_keepsSetUp (k : Fin 16) (v : Word) (be : BitVec 4) (descs : List StreamDesc) :
    KeepsSetUp s (doorbell k v be descs s) := by
  have taken : KeepsSetUp s (takeDoorbell k v descs s) :=
    (modOrbit_keepsSetUp s k _).trans (.ite (.refl _) ((modOrbit_keepsSetUp ..).trans (skipNow_keepsSetUp ..)))
  unfold doorbell
  extract_lets o off
  exact .ite (hpErr_keepsSetUp ..) (.ite ((orbFault_keepsSetUp ..).trans (hpErr_keepsSetUp ..))
    (.ite taken ((orbFault_keepsSetUp ..).trans (hpErr_keepsSetUp ..))))

/-! ### Interrupts -/

theorem eoi_keepsSetUp (v : Word) : KeepsSetUp s (eoi v s) :=
  .ite (modIrq_keepsSetUp ..) ((modIrq_keepsSetUp s _).trans (hpErr_keepsSetUp ..))

theorem irqDoorbell_keepsSetUp (v : Word) (be : BitVec 4) : KeepsSetUp s (irqDoorbell v be s) :=
  .ite (.of_device rfl rfl) (hpErr_keepsSetUp ..)

theorem irqWriteReg_keepsSetUp (off : Nat) (v : Word) : KeepsSetUp s (irqWriteReg off v s) := by
  have irq := modIrq_keepsSetUp s
  have drained : KeepsSetUp s (hdrain v s) := .of_device rfl rfl
  unfold irqWriteReg
  extract_lets k
  exact .ite (irq _) (.ite (eoi_keepsSetUp ..) (.ite (irq _) (.ite (irq _) (.ite (irq _) (.ite (irq _) (.ite (irq _)
    (.ite (irq _) (.ite drained (.refl s)))))))))

theorem releaseHeld_keepsSetUp : KeepsSetUp s (releaseHeld s) :=
  .of_device (releaseHeld_device ..) (by rw [releaseHeld_hp])

theorem msixWrite_keepsSetUp (w : MsixWrite) : KeepsSetUp s (msixWrite w s) := by
  unfold msixWrite
  split
  · refine KeepsSetUp.trans ?_ (releaseHeld_keepsSetUp _)
    exact .of_device rfl rfl
  · exact .ite (.refl s) ((modIrq_keepsSetUp s _).trans (releaseHeld_keepsSetUp _))

/-! ### Lanes, the recorder, the link -/

theorem endRead_keepsSetUp (l : Lane) : KeepsSetUp s (endRead l s) := by
  refine .of_part ?_ (endRead_hp s l)
  unfold endRead
  split
  · split
    · extract_lets b
      unfold flagVsp
      refine (setUpPart_of_device (announce_device ..)).trans ?_
      cases l <;> rfl
    · rfl
  · rfl

theorem endReads_keepsSetUp : KeepsSetUp s (endReads s) :=
  ((endRead_keepsSetUp s .a).trans (endRead_keepsSetUp _ .b)).trans (endRead_keepsSetUp _ .c)

theorem armCrcFail_keepsSetUp (v : Word) : KeepsSetUp s (armCrcFail v s) := by
  unfold armCrcFail
  extract_lets arm
  have arms : ∀ l s, KeepsSetUp s (arm l s) := fun l s => by
    refine .ite (.of_part ?_ rfl) (.refl s)
    cases l <;> rfl
  exact (endReads_keepsSetUp s).trans ((arms .a _).trans ((arms .b _).trans (arms .c _)))

theorem epcCtrl_keepsSetUp (v : Word) : KeepsSetUp s (epcCtrl v s) := .ite (.of_part rfl rfl) (.refl s)

theorem pdbWrite_keepsSetUp (v : Word) : KeepsSetUp s (pdbWrite v s) := .ite (.of_part rfl rfl) (hpErr_keepsSetUp ..)

theorem recMark_keepsSetUp (v : Word) : KeepsSetUp s (recMark v s) := .of_device (trig_device ..) (by rw [recMark, trig_hp])

theorem recCursor_keepsSetUp (v : Word) : KeepsSetUp s (recCursor v s) := .of_part rfl rfl

theorem busRead_keepsSetUp (r : BusRead) : KeepsSetUp s (busRead r s) := by
  have seq : ∀ s, KeepsSetUp s (readSeq s) := fun s => .of_part rfl rfl
  have now : ∀ s, KeepsSetUp s (readTbNow s) := fun s => .of_part rfl rfl
  have epoch : ∀ s, KeepsSetUp s (readTbEpoch s) := fun s => .of_part rfl rfl
  have captures : KeepsSetUp s (readCaptures r s) :=
    .trans (.trans (.ite (seq s) (.refl s)) (.ite (now _) (.refl _))) (.ite (epoch _) (.refl _))
  unfold busRead
  extract_lets u
  have read : KeepsSetUp s u := .ite captures (.refl s)
  exact read.trans (modHp_keepsSetUp u id)

/-! ### Register writes -/

theorem devAct_keepsSetUp {off : Nat} {v : Word} {u : State} (e : devAct off v s = some u) : KeepsSetUp s u := by
  unfold devAct at e
  iterate 2
    obtain rfl | e := eq_or_of_ite_eq_some e
    · exact .of_part rfl rfl
  obtain rfl | e := eq_or_of_ite_eq_some e
  · exact epcCtrl_keepsSetUp ..
  obtain rfl | e := eq_or_of_ite_eq_some e
  · exact armCrcFail_keepsSetUp ..
  obtain rfl | e := eq_or_of_ite_eq_some e
  · exact (endReads_keepsSetUp s).trans (.of_part rfl rfl)
  obtain rfl | e := eq_or_of_ite_eq_some e
  · exact .of_part rfl rfl
  obtain rfl | e := eq_or_of_ite_eq_some e
  · exact pdbWrite_keepsSetUp ..
  iterate 2
    obtain rfl | e := eq_or_of_ite_eq_some e
    · exact .of_part rfl rfl
  obtain rfl | e := eq_or_of_ite_eq_some e
  · exact recMark_keepsSetUp ..
  obtain rfl | e := eq_or_of_ite_eq_some e
  · exact recCursor_keepsSetUp ..
  repeat
    obtain rfl | e := eq_or_of_ite_eq_some e
    · exact .of_part rfl rfl
  cases e
end

end Sys2Proof.Machine
end

section
/-! SUPPORT. Register writes on a sealed device: what they keep and what they count (R9, R264). Settles O51. -/
namespace Sys2Proof.Machine

/-! ### What a register write keeps -/

section
variable (s : State) (off o : Nat) (v : Word) (r : RegView) (h : HeadId)

theorem sealedWrite_keepsSetUp : KeepsSetUp s (sealedWrite off v r s) := .ite (.refl s) (hpErr_keepsSetUp ..)

theorem devWrite_keepsSetUp (shut : s.hp.isSealed = true) : KeepsSetUp s (devWrite off v r s) := by
  unfold devWrite
  split
  next u e => exact devAct_keepsSetUp s e
  next =>
    rw [if_pos shut]
    exact sealedWrite_keepsSetUp ..

theorem routeCtrlWrite_sealed (shut : s.hp.isSealed = true) : routeCtrlWrite h v s =
    if bit v 31 || decide (fld v 0 2 ≠ fld (s.head h).fe.routeCtrl 0 2) then hpErr 2 false (headOff h 8) v s else s :=
  if_pos shut

theorem routeCtrlWrite_keepsSetUp (shut : s.hp.isSealed = true) : KeepsSetUp s (routeCtrlWrite h v s) := by
  rw [routeCtrlWrite_sealed s v h shut]
  exact .ite (hpErr_keepsSetUp ..) (.refl s)

/-- A write of a fault register of a head clears fault flags alone. -/
theorem clearFault_keepsSetUp (f : HeadReg) (w : Head → Word) :
    KeepsSetUp s (s.modHead h fun x => setHeadFault f (w x) x) := by
  have heads : (fun g : HeadId => ((s.modHead h fun x => setHeadFault f (w x) x).head g).sansFaults) =
      fun g => (s.head g).sansFaults := by
    funext g
    rw [modHead_head]
    split
    · cases f <;> rfl
    · rfl
  refine .of_part ?_ rfl
  show ((s.modHead h fun x => setHeadFault f (w x) x).phase, (fun g : HeadId => _), _) = _
  rw [heads]
  rfl

/-- On a sealed device a write of a head block beside FE_ROUTE_CTRL clears fault flags, or is tested for a change. -/
theorem headWrite_sealed (shut : s.hp.isSealed = true) (other : o ≠ 8) : headWrite h o v r s =
    match headFaultAt o with
    | some f => s.modHead h (fun x => setHeadFault f (w1c (headFault f x) v 0xFFF) x)
    | none => sealedWrite (headOff h o) v r s := by
  unfold headWrite
  rw [if_neg other, if_neg (by simp [shut])]
  cases headFaultAt o with
  | some f => rfl
  | none => exact if_pos shut

theorem headWrite_keepsSetUp (shut : s.hp.isSealed = true) : KeepsSetUp s (headWrite h o v r s) := by
  by_cases go : o = 8
  · subst go
    exact routeCtrlWrite_keepsSetUp s v h shut
  · rw [headWrite_sealed s o v r h shut go]
    split
    · exact clearFault_keepsSetUp ..
    · exact sealedWrite_keepsSetUp ..

theorem secWrite_keepsSetUp (n : SecId) (shut : s.hp.isSealed = true) : KeepsSetUp s (secWrite n o v r s) := by
  unfold secWrite
  rw [if_pos shut]
  refine .ite (.of_part ?_ rfl) (sealedWrite_keepsSetUp ..)
  have secs : (fun m : SecId => ({ (s.modSec n fun x => { x with core := { x.core with
        fault := w1c x.core.fault v 0x7FF } }).sec m with core := { ((s.modSec n fun x => { x with core := { x.core with
        fault := w1c x.core.fault v 0x7FF } }).sec m).core with fault := 0 } } : Section)) =
      fun m => { s.sec m with core := { (s.sec m).core with fault := 0 } } := by
    funext m
    rw [modSec_sec]
    split <;> rfl
  show (_, (fun g : HeadId => _), (fun m : SecId => _), _) = _
  rw [secs]
  rfl

theorem writeReg_keepsSetUp (shut : s.hp.isSealed = true) : KeepsSetUp s (writeReg off v s) := by
  unfold writeReg
  split
  · exact hpErr_keepsSetUp ..
  · exact .ite (hpWriteReg_keepsSetUp ..) (.ite (orbWriteReg_keepsSetUp ..) (.ite (irqWriteReg_keepsSetUp ..)
      (.ite (devWrite_keepsSetUp s off v _ shut) (.ite (headWrite_keepsSetUp s _ v _ _ shut)
        (secWrite_keepsSetUp s _ v _ _ shut)))))

theorem busWrite_keepsSetUp (shut : s.hp.isSealed = true) (bar : Bar) (be : BitVec 4) (dwords : Nat) :
    KeepsSetUp s (busWrite bar off v be dwords s) := by
  cases bar
  case bar0 =>
    exact .ite (hpErr_keepsSetUp ..) (.ite (hpErr_keepsSetUp ..) (writeReg_keepsSetUp s off v shut))
  case bar2 =>
    exact .ite (hpErr_keepsSetUp ..) (.ite (irqDoorbell_keepsSetUp ..) (.ite (doorbell_keepsSetUp ..)
      (hpErr_keepsSetUp ..)))
  case bar4 => exact .ite (.refl s) (.ite (msixWrite_keepsSetUp ..) (.refl s))
end

/-! ### Every access -/

/-- An operation that keeps the set-up of a sealed device, run at an instant. -/
theorem next_keepsSetUp {s : State} (shut : s.hp.isSealed = true) (t : Nat) {f : State → State}
    (keep : ∀ v, v.hp.isSealed = true → KeepsSetUp v (f v)) :
    ∃ u, (.next (f (s.advance t)) : Host.Outcome State Fault Refusal) = .next u ∧ KeepsSetUp s u :=
  ⟨_, rfl, KeepsSetUp.trans (.of_device (u := s.advance t) rfl rfl) (keep _ shut)⟩

/-- No access of the host changes the set-up of a sealed device. -/
theorem access_keepsSetUp {i : Instr} (s : State) (host : hostAccess i = true) (shut : s.hp.isSealed = true) :
    ∃ u, exec i s = .next u ∧ KeepsSetUp s u := by
  have bytes {f : State → State} {be : BitVec 4} {off : Nat} {v : Word} (keep : ∀ s, KeepsSetUp s (f s)) :
      ∀ s, KeepsSetUp s (if allEnables be then f s else hpErr 1 false off v s) := fun s =>
    .ite (keep s) (hpErr_keepsSetUp ..)
  cases i <;> simp only [hostAccess, reduceCtorEq] at host
  case feRouteCtrlGo t h v be =>
    exact next_keepsSetUp shut t fun _ shut =>
      .ite (.ite (routeCtrlWrite_keepsSetUp _ v h shut) (hpErr_keepsSetUp ..)) (.refl _)
  case hpSealWrite =>
    exact next_keepsSetUp shut _ fun _ _ => whenHost_keepsSetUp _ fun _ => enabled_keepsSetUp _ fun _ =>
      sealWrite_keepsSetUp ..
  case hpCtrlErrClr =>
    exact next_keepsSetUp shut _ fun _ _ => whenHost_keepsSetUp _ fun _ => enabled_keepsSetUp _ fun _ =>
      errClr_keepsSetUp ..
  case epcCtrlClr =>
    exact next_keepsSetUp shut _ fun _ _ => whenHost_keepsSetUp _ (bytes fun _ => epcCtrl_keepsSetUp ..)
  case vspTestCrcFail =>
    exact next_keepsSetUp shut _ fun _ _ => whenHost_keepsSetUp _ (bytes fun _ => armCrcFail_keepsSetUp ..)
  case zlPdbWrite =>
    exact next_keepsSetUp shut _ fun _ _ => whenHost_keepsSetUp _ (bytes fun _ => pdbWrite_keepsSetUp ..)
  case recMarkWrite =>
    exact next_keepsSetUp shut _ fun _ _ => whenHost_keepsSetUp _ fun _ => enabled_keepsSetUp _ fun _ =>
      recMark_keepsSetUp ..
  case recCursorWrite =>
    exact next_keepsSetUp shut _ fun _ _ => whenHost_keepsSetUp _ fun _ => enabled_keepsSetUp _ fun _ =>
      recCursor_keepsSetUp ..
  case irqEoi =>
    exact next_keepsSetUp shut _ fun _ _ => whenHost_keepsSetUp _ fun _ => enabled_keepsSetUp _ fun _ =>
      eoi_keepsSetUp ..
  case irqHdrain =>
    exact next_keepsSetUp shut _ fun _ _ => whenHost_keepsSetUp _ fun _ => enabled_keepsSetUp _ fun _ =>
      .of_device rfl rfl
  case irqMaskSet | irqMaskClr | irqPendDiscard =>
    exact next_keepsSetUp shut _ fun _ _ => whenHost_keepsSetUp _ fun _ => enabled_keepsSetUp _ fun _ =>
      modIrq_keepsSetUp ..
  case irqDoorbellWrite =>
    exact next_keepsSetUp shut _ fun _ _ => whenHost_keepsSetUp _ fun _ => irqDoorbell_keepsSetUp ..
  case orbDoorbell =>
    exact next_keepsSetUp shut _ fun _ _ => whenHost_keepsSetUp _ fun _ => doorbell_keepsSetUp ..
  case orbCfgWrite =>
    exact next_keepsSetUp shut _ fun _ _ => whenHost_keepsSetUp _ fun _ => enabled_keepsSetUp _ fun _ =>
      orbCfgWrite_keepsSetUp ..
  case epcSeqLoRead | tbNowLoRead | tbEpochLoRead =>
    exact next_keepsSetUp shut _ fun _ _ => whenHost_keepsSetUp _ fun _ => busRead_keepsSetUp ..
  case registerWrite =>
    exact next_keepsSetUp shut _ fun _ shut => .ite (busWrite_keepsSetUp _ _ _ shut ..) (.refl _)
  case functionLevelReset =>
    exact next_keepsSetUp shut _ fun _ _ => whenHostUp_keepsSetUp _ fun _ => .of_device rfl rfl
  case d3hotToD0 =>
    exact next_keepsSetUp shut _ fun _ _ => whenHostUp_keepsSetUp _ fun _ => .ite (.of_device rfl rfl) (.refl _)
  case conventionalReset =>
    exact next_keepsSetUp shut _ fun _ _ => .ite (.of_device rfl rfl) (.refl _)
  case poisonedWrite =>
    exact next_keepsSetUp shut _ fun _ _ => whenHost_keepsSetUp _ fun _ => .of_device rfl rfl
  case msixUnmask =>
    exact next_keepsSetUp shut _ fun _ _ => whenHostUp_keepsSetUp _ fun _ => msixWrite_keepsSetUp ..
  case d0ToD3hot =>
    exact next_keepsSetUp shut _ fun _ _ => whenHostUp_keepsSetUp _ fun _ => .ite (.refl _) (.of_device rfl rfl)
  case busMasterEnableChange =>
    exact next_keepsSetUp shut _ fun _ _ => whenHostUp_keepsSetUp _ fun s =>
      (modHp_keepsSetUp s id).trans (releaseHeld_keepsSetUp _)

end Sys2Proof.Machine
end

section
/-! SUPPORT. What a register write counts on a sealed device (R9, R264). Settles O51. -/
namespace Sys2Proof.Machine

/-- What the error counter reads after a write of `v` to a register: a step where an RW field would have changed. -/
def countAfter (s : State) (v : Word) (r : RegView) : Nat :=
  if (v ^^^ r.val) &&& r.rw = 0 then s.hp.errCount else min (s.hp.errCount + 1) 65535

theorem countAfter_quiet {s u : State} {v : Word} {r : RegView} (none_ : r.rw = 0) (port : u.hp = s.hp) :
    u.hp.errCount = countAfter s v r := by
  have same : (v ^^^ r.val) &&& r.rw = 0 := by rw [none_]; exact BitVec.and_zero
  rw [countAfter, if_pos same, port]

theorem sealedWrite_countAfter {s : State} (heard : s.hp.muted = none) (off : Nat) (v : Word) (r : RegView) :
    (sealedWrite off v r s).hp.errCount = countAfter s v r := by
  unfold sealedWrite countAfter
  split
  · rfl
  · exact (hpErr_counts 2 false off v heard).2.1

/-! ### Registers that act before and after sealing have no RW field -/

/-- The offsets of the device blocks that act before and after sealing. -/
def actingOffs : List Nat :=
  [0x47024, 0x47028, 0x4702C, 0x48004, 0x48040, 0x4902C, 0x49030, 0x4A02C, 0x4B074, 0x4B078, 0x4B07C, 0x4C018, 0x4C01C,
    0x4C020, 0x4D00C]

section
variable {s u : State} {off o : Nat} {v : Word} {r : RegView}

theorem devAct_acts (e : devAct off v s = some u) : off ∈ actingOffs := by
  by_contra other
  simp only [actingOffs, List.mem_cons, List.not_mem_nil, or_false, not_or] at other
  simp [devAct, other] at e

theorem devAct_rw (e : devAct off v s = some u) (cursor : off ≠ 0x4B07C) (mapped : regView s off = some r) :
    r.rw = 0 := by
  have acts := devAct_acts e
  simp only [actingOffs, List.mem_cons, List.not_mem_nil, or_false] at acts
  rcases acts with rfl | rfl | rfl | rfl | rfl | rfl | rfl | rfl | rfl | rfl | rfl | rfl | rfl | rfl | rfl
  case inr.inr.inr.inr.inr.inr.inr.inr.inr.inr.inl => exact absurd rfl cursor
  all_goals
    cases mapped
    rfl

theorem endReads_hp (s : State) : (endReads s).hp = s.hp := by rw [endReads, endRead_hp, endRead_hp, endRead_hp]

theorem armCrcFail_hp (v : Word) (s : State) : (armCrcFail v s).hp = s.hp := by
  unfold armCrcFail
  extract_lets arm
  have arms : ∀ l s, (arm l s).hp = s.hp := fun l s => by
    unfold arm
    split
    · exact modLane_hp ..
    · rfl
  rw [arms, arms, arms, endReads_hp]

/-- What acts before and after sealing leaves the host port alone, but for a refused doorbell of the partner. -/
theorem devAct_hp (e : devAct off v s = some u) (doorbell : off ≠ 0x49030) : u.hp = s.hp := by
  unfold devAct at e
  iterate 2
    obtain rfl | e := eq_or_of_ite_eq_some e
    · rfl
  obtain rfl | e := eq_or_of_ite_eq_some e
  · unfold epcCtrl
    split <;> rfl
  obtain rfl | e := eq_or_of_ite_eq_some e
  · exact armCrcFail_hp ..
  obtain rfl | e := eq_or_of_ite_eq_some e
  · exact endReads_hp s
  obtain rfl | e := eq_or_of_ite_eq_some e
  · rfl
  rw [if_neg doorbell] at e
  iterate 2
    obtain rfl | e := eq_or_of_ite_eq_some e
    · rfl
  obtain rfl | e := eq_or_of_ite_eq_some e
  · exact trig_hp ..
  repeat
    obtain rfl | e := eq_or_of_ite_eq_some e
    · rfl
  cases e

/-- The fault register of a head has no RW field. -/
theorem headFaultAt_rw {f : HeadReg} {h : HeadId} (fault : headFaultAt o = some f) (mapped : headView s h o = some r) :
    r.rw = 0 := by
  have offs : o = 0x084 ∨ o = 0x138 ∨ o = 0x254 ∨ o = 0x31C ∨ o = 0x444 := by
    by_contra other
    simp only [not_or] at other
    simp [headFaultAt, other] at fault
  have regs : ∀ w, headRegs s h o = some w → w.rw = 0 := fun w e => by
    rcases offs with rfl | rfl | rfl | rfl | rfl <;> cases e <;> rfl
  unfold headView at mapped
  split at mapped
  · exact regs r mapped
  · obtain ⟨w, e, rfl⟩ := Option.map_eq_some_iff.mp mapped
    exact regs w e

/-- The fault register of a section has no RW field. -/
theorem secFault_rw {n : SecId} (mapped : secView s n 0x5C = some r) : r.rw = 0 := by
  have reads : ((secRegs (s.sec n))[23]?).map (fun v => ({ val := v, rw := secMasks 23 } : RegView)) = some r := mapped
  obtain ⟨w, -, rfl⟩ := Option.map_eq_some_iff.mp reads
  rfl

/-! ### The blocks of the map -/

theorem regView_head (low : 0x100000 ≤ off) (high : off < 0x200000) (mapped : regView s off = some r) :
    headView s (Fin.ofNat 256 ((off - 0x100000) / 0x1000)) (off % 0x1000) = some r := by
  unfold regView at mapped
  split at mapped
  · cases mapped
  · rw [if_neg (by omega), if_neg (by omega), if_neg (by omega), if_neg (by omega), if_neg (by omega), if_neg (by omega),
      if_neg (by omega)] at mapped
    exact mapped

theorem regView_sec (low : 0x200000 ≤ off) (mapped : regView s off = some r) :
    secView s (Fin.ofNat 256 ((off - 0x200000) / 0x400)) (off % 0x400) = some r := by
  unfold regView at mapped
  split at mapped
  · cases mapped
  · rw [if_neg (by omega), if_neg (by omega), if_neg (by omega), if_neg (by omega), if_neg (by omega), if_neg (by omega),
      if_neg (by omega), if_neg (by omega)] at mapped
    split at mapped
    · exact mapped
    · cases mapped

/-! ### What a write counts -/

variable (shut : s.hp.isSealed = true) (heard : s.hp.muted = none)
include shut heard

theorem devWrite_counts (mapped : regView s off = some r) (doorbell : off ≠ 0x49030) (cursor : off ≠ 0x4B07C) :
    (devWrite off v r s).hp.errCount = countAfter s v r := by
  unfold devWrite
  split
  next u e => exact countAfter_quiet (devAct_rw e cursor mapped) (devAct_hp e doorbell)
  next =>
    rw [if_pos shut]
    exact sealedWrite_countAfter heard ..

theorem headWrite_counts {h : HeadId} (mapped : headView s h o = some r) (go : o ≠ 8) :
    (headWrite h o v r s).hp.errCount = countAfter s v r := by
  rw [headWrite_sealed s o v r h shut go]
  split
  next f fault => exact countAfter_quiet (headFaultAt_rw fault mapped) rfl
  next => exact sealedWrite_countAfter heard ..

theorem secWrite_counts {n : SecId} (mapped : secView s n o = some r) :
    (secWrite n o v r s).hp.errCount = countAfter s v r := by
  unfold secWrite
  split
  next fault =>
    subst fault
    exact countAfter_quiet (secFault_rw mapped) rfl
  next =>
    exact sealedWrite_countAfter heard ..

/-- A write to a register beside those that the host port owns. -/
theorem writeReg_counts (mapped : regView s off = some r) (low : 0x20000 ≤ off) (doorbell : off ≠ 0x49030)
    (cursor : off ≠ 0x4B07C) (go : 0x100000 ≤ off → off < 0x200000 → off % 0x1000 ≠ 8) :
    (writeReg off v s).hp.errCount = countAfter s v r := by
  unfold writeReg
  rw [mapped]
  dsimp only
  rw [if_neg (by omega), if_neg (by omega), if_neg (by omega)]
  by_cases device : off < 0x100000
  · rw [if_pos device]
    exact devWrite_counts shut heard mapped doorbell cursor
  · rw [if_neg device]
    by_cases head : off < 0x200000
    · rw [if_pos head]
      exact headWrite_counts shut heard (regView_head (by omega) head mapped) (go (by omega) head)
    · rw [if_neg head]
      exact secWrite_counts shut heard (regView_sec (by omega) mapped)

/-- A write of FE_ROUTE_CTRL counts a changed MODE, and GO. -/
theorem routeCtrlWrite_counts (h : HeadId) : (routeCtrlWrite h v s).hp.errCount =
    if bit v 31 = false ∧ fld v 0 2 = fld (s.head h).fe.routeCtrl 0 2 then s.hp.errCount
    else min (s.hp.errCount + 1) 65535 := by
  rw [routeCtrlWrite_sealed s v h shut]
  by_cases same : bit v 31 = false ∧ fld v 0 2 = fld (s.head h).fe.routeCtrl 0 2
  · rw [if_neg (by simp [same]), if_pos same]
  · have acts : (bit v 31 || decide (fld v 0 2 ≠ fld (s.head h).fe.routeCtrl 0 2)) = true := by
      rw [Bool.or_eq_true, decide_eq_true_eq, ← Bool.not_eq_false]
      exact not_and_or.mp same
    rw [if_pos acts, if_neg same]
    exact (hpErr_counts 2 false _ v heard).2.1
end

/-! ### O51 -/

/-- Settles O51: every access keeps the set-up of a sealed device, and a write counts where an RW field would change. -/
theorem sealedSetUpIsKept : Obligations.Sealed_set_up_is_kept := by
  unfold Obligations.Sealed_set_up_is_kept
  refine fun s shut => ⟨fun i host => ?kept, fun t up heard => ⟨fun off v r mapped low doorbell cursor go => ?counted,
    fun h v => ?route⟩⟩
  case kept =>
    obtain ⟨u, e, keeps⟩ := access_keepsSetUp s host shut
    exact ⟨u, e, keeps.setUpKept shut⟩
  case counted =>
    refine ⟨_, rfl, ?_⟩
    rw [whenHost_open _ up]
    exact writeReg_counts (s := s.advance t) shut heard mapped low doorbell cursor go
  case route =>
    refine ⟨_, rfl, ?_⟩
    rw [whenHost_open _ up]
    exact routeCtrlWrite_counts (s := s.advance t) shut heard h

end Sys2Proof.Machine
end
